-- ==== Sys2Proof/Config.lean ====
section
/-! DEFINITION. The limits the manual fixes: table sizes, ceilings and timer lengths.
The manual leaves no result of a command undefined, so there is no free value here. -/

namespace Sys2Proof.Config

/-- Slab records the stock table holds (R6). -/
def maxSlabs : Nat := 1024
/-- Plan records the plan table holds (R44). -/
def maxPlans : Nat := 256
/-- Blade records the blade table holds (R132). -/
def maxBlades : Nat := 32
/-- Job records the job table holds (R187). -/
def maxJobs : Nat := 128
/-- Plans a job's plan list holds (R189). -/
def maxJobPlans : Nat := 16
/-- Plans a saw's queue holds (R49). -/
def maxQueue : Nat := 4
/-- Pieces a plan holds in all (R45). -/
def maxPieces : Nat := 24
/-- Slabs FIND SLABS returns at most (R16). -/
def maxFound : Nat := 16
/-- Owed BUSY answers at most (R213). -/
def maxOwed : Nat := 4
/-- Readings a channel's history holds (R147). -/
def maxHistory : Nat := 16

/-- First remnant number (R17). -/
def firstRemnant : Nat := 50000
/-- Last remnant number (R17). -/
def lastRemnant : Nat := 65535
/-- Least tail width kept as a remnant, in mm (R79). -/
def minTail : Nat := 200

/-- Ceiling of a job cost component, in cents (R199). -/
def maxCents : Nat := 999999999
/-- Ceiling of a piece count (R206, R207). -/
def maxCount : Nat := 65535
/-- Ceiling of a time in ds (R85, R114). -/
def maxTime : Nat := 65535
/-- Ceiling of the accumulator S (R163). -/
def maxS : Nat := 4294967295
/-- Ceiling of blade wear, in mm (R132). -/
def maxWear : Nat := 4000000000
/-- Ceiling of the overload count and of the fault count (R132, R113). -/
def maxFaults : Nat := 255
/-- Overload count that exhausts a blade (R133). -/
def overloadLimit : Nat := 8

/-- Heartbeat age that is link silence, in ds (R91). -/
def silenceAge : Nat := 30
/-- Ceiling of the heartbeat age, in ds (R89). -/
def maxAge : Nat := 600
/-- Length of the hold timer, in ds (R114: 5 s). -/
def holdTime : Nat := 50

/-- ds-cents per hour that make one cent of saw time (R200). -/
def sawDivisor : Nat := 36000
/-- dL-cents per cubic metre that make one cent of water (R201). -/
def waterDivisor : Nat := 10000
/-- Interval flows that make one dL (R164). -/
def meterDivisor : Nat := 600

end Sys2Proof.Config
end

