-- ==== Sys2Proof/Word.lean ====
section
/-! DEFINITION. The byte of the serial links, and the fixed-size groups of four saws and seven channels. -/

namespace Sys2Proof

/-- One byte on a serial link (R209, R211). -/
abbrev Byte := BitVec 8

/-- One value for each saw 1 to 4. -/
structure Four (α : Type) where
  one : α
  two : α
  three : α
  four : α
  deriving DecidableEq, Repr

/-- One value for each analog channel 0 to 6. -/
structure Seven (α : Type) where
  ch0 : α
  ch1 : α
  ch2 : α
  ch3 : α
  ch4 : α
  ch5 : α
  ch6 : α
  deriving DecidableEq, Repr

end Sys2Proof
end

