-- ==== Sys2Proof/Syntax.lean ====
section
/-! DEFINITION. The commands: one constructor of Instr for each row of spec/opcode_table.json, with the fields its rule
names. A reading of an input of the part that a rule takes at that moment is an operand too (log 8). -/

namespace Sys2Proof

/-- A saw, 1 to 4 (Numbering, R1). -/
inductive Saw where
  | saw1 | saw2 | saw3 | saw4
  deriving DecidableEq, Repr

/-- An analog channel, 0 to 6 (R146). -/
inductive Chan where
  | c0 | c1 | c2 | c3 | c4 | c5 | c6
  deriving DecidableEq, Repr

/-- A serial link of the part (R209). -/
inductive Link where
  | office
  | saw (w : Saw)
  deriving DecidableEq, Repr

/-- A flaw rectangle, half-open (R7). -/
structure Flaw where
  x0 : Nat
  x1 : Nat
  y0 : Nat
  y1 : Nat
  deriving DecidableEq, Repr

/-- A piece of a strip (R45). -/
structure Piece where
  mark : Nat
  length : Nat
  deriving DecidableEq, Repr

/-- A strip of a plan's layout (R45). -/
structure Strip where
  width : Nat
  pieces : List Piece
  deriving DecidableEq, Repr

/-- A span of racks (R31). -/
structure Span where
  first : Nat
  last : Nat
  deriving DecidableEq, Repr

/-- The causes a saw may send in FAULT (R89, R120). -/
inductive SawCause where
  | overload | stall | operatorStop | safety
  deriving DecidableEq, Repr

/-- What POWER_LOSS tells apart (R224, log 20). -/
inductive LossCause where
  /-- Main power is lost. -/
  | mainPower
  /-- The RESET input is asserted with main power present. -/
  | resetAsserted
  deriving DecidableEq, Repr

/-- The inputs of the part as they stand at a start (R111, R166, R223, R224; log 8). -/
structure Inputs where
  /-- The four interlock inputs. -/
  interlock : Four Bool
  /-- The field-supply sense input. -/
  fieldSupply : Bool
  /-- The backup supply lies within its retention range. -/
  backup : Bool
  /-- The raw reading the front end gives on each channel. -/
  raw : Seven Int
  /-- Main power is lost again before the start's last action (R223, log 29). -/
  cut : Bool
  deriving DecidableEq, Repr

/-- The commands and events of the part, in the order of spec/opcode_table.json. -/
inductive Instr where
  /-- DEFINE MATERIAL (R3). -/
  | defineMaterial (code hardness feed : Nat)
  /-- DROP MATERIAL (R4). -/
  | dropMaterial (code : Nat)
  /-- READ MATERIAL (R5). -/
  | readMaterial (code : Nat)
  /-- CREATE SLAB (R9). -/
  | createSlab (number material thickness lotNumber lotSeq length width basis : Nat) (flaws : List Flaw)
  /-- AMEND SLAB (R10). -/
  | amendSlab (number material thickness lotNumber lotSeq basis : Nat) (flaws : List Flaw)
  /-- SCRAP SLAB (R11). -/
  | scrapSlab (number : Nat)
  /-- RETIRE SLAB (R12). -/
  | retireSlab (number : Nat)
  /-- READ SLAB (R13). -/
  | readSlab (number : Nat)
  /-- FIND SLABS (R14). -/
  | findSlabs (material thickness minLength minWidth lotNumber : Nat)
  /-- READ RACK (R28). -/
  | readRack (rack : Nat)
  /-- MOVE SLAB (R29). -/
  | moveSlab (number rack position : Nat)
  /-- START AUDIT (R32). -/
  | startAudit (spans : List Span)
  /-- VERIFY SLAB (R34). -/
  | verifySlab (number rack position : Nat)
  /-- END AUDIT (R38). -/
  | endAudit
  /-- ABORT AUDIT (R39). -/
  | abortAudit
  /-- READ AUDIT (R40). -/
  | readAudit
  /-- CREATE PLAN (R50). -/
  | createPlan (number job slab kerf : Nat) (strips : List Strip)
  /-- REVISE PLAN (R52). -/
  | revisePlan (number kerf : Nat) (strips : List Strip)
  /-- CHECK PLAN (R54). -/
  | checkPlan (number : Nat)
  /-- RELEASE PLAN (R56). -/
  | releasePlan (number saw : Nat)
  /-- CANCEL PLAN (R57). -/
  | cancelPlan (number : Nat)
  /-- ABANDON PLAN (R59). -/
  | abandonPlan (number : Nat)
  /-- READ PLAN (R60). -/
  | readPlan (number : Nat)
  /-- READ PASS LIST (R60). -/
  | readPassList (number : Nat)
  /-- RETIRE PLAN (R61). -/
  | retirePlan (number : Nat)
  /-- CONFIGURE SAW (R86). -/
  | configureSaw (saw demand rate : Nat)
  /-- READ SAW (R87). -/
  | readSaw (saw : Nat)
  /-- READ CONTEXT (R115). -/
  | readContext (saw : Nat)
  /-- RESUME SAW (R127). -/
  | resumeSaw (saw : Nat)
  /-- ADD BLADE (R134). -/
  | addBlade (number kerf price life : Nat)
  /-- AMEND BLADE (R135). -/
  | amendBlade (number price life : Nat)
  /-- FIT BLADE (R136). -/
  | fitBlade (number saw : Nat)
  /-- REMOVE BLADE (R137). -/
  | removeBlade (saw : Nat)
  /-- RETIRE BLADE (R138). -/
  | retireBlade (number : Nat)
  /-- READ BLADE (R139). -/
  | readBlade (number : Nat)
  /-- SET CHANNEL (R149); `raw` is the reading the front end gives for the sample taken at once (log 8). -/
  | setChannel (channel range filter : Nat) (low high : Int) (raw : Int)
  /-- READ CHANNEL (R157). -/
  | readChannel (channel : Nat)
  /-- CAL BEGIN (R158); the channel set is the list of the channels named. -/
  | calBegin (set : List Nat)
  /-- CAL POINT (R159); point 0 is LOW and 1 is HIGH (R212). -/
  | calPoint (set : List Nat) (point : Nat)
  /-- CAL END (R160); mode 0 is NORMAL and 1 is DEFAULTS (R212). -/
  | calEnd (set : List Nat) (mode : Nat)
  /-- CAL ABORT (R162). -/
  | calAbort (set : List Nat)
  /-- SET PLANT (R168), the settings in the order of R167. -/
  | setPlant (rating hold restart reduce turbidity sump waterRate grace : Nat)
  /-- READ PLANT (R185). -/
  | readPlant
  /-- OPEN JOB (R191). -/
  | openJob (number lotNumber quote : Nat)
  /-- AMEND JOB (R192). -/
  | amendJob (number quote lotNumber : Nat)
  /-- READ JOB (R193). -/
  | readJob (number : Nat)
  /-- CLOSE JOB (R194). -/
  | closeJob (number : Nat)
  /-- RETIRE JOB (R197). -/
  | retireJob (number : Nat)
  /-- READ NOTICES (R220). -/
  | readNotices
  /-- SET NOTICES (R221). -/
  | setNotices (enable : BitVec 16) (master : Nat)
  /-- READ STATE (R222); `backup` is the backup supply as it stands at that moment (log 8). -/
  | readState (backup : Bool)
  /-- WIPE STORE (R226). -/
  | wipeStore
  /-- A good office-link frame that is no request: its kind is none of the table's (R212), or its body does not suit its
  kind (R211, log 12). -/
  | unknownRequest (kind : Byte)
  /-- A good request frame of the kind given, taken while the slot is SERVING (R213). -/
  | busyRequest (kind : Byte)
  /-- The last byte of a reply or owed BUSY answer has gone out (R213). -/
  | replySent
  /-- A frame with a bad length or CRC on the link (R209). -/
  | badFrame (link : Link)
  /-- A gap of more than 20 ms inside a frame on the link; `byte` is the byte that ends the gap (R209, log 25). -/
  | byteGapTimeout (link : Link) (byte : Byte)
  /-- HELLO from a saw (R90). -/
  | hello (w : Saw) (maxFeed : Nat)
  /-- LOADED from a saw (R94). -/
  | loaded (w : Saw) (plan : Nat)
  /-- START from a saw (R102). -/
  | start (w : Saw) (tag : Nat)
  /-- DONE from a saw (R108). -/
  | done (w : Saw) (tag : Nat)
  /-- HELD from a saw (R117). -/
  | held (w : Saw) (tag position : Nat)
  /-- FAULT from a saw (R120). -/
  | fault (w : Saw) (tag : Option Nat) (position : Nat) (cause : SawCause)
  /-- STATUS from a saw (R105). -/
  | status (w : Saw) (position : Nat)
  /-- A good saw frame of no known kind or a bad form (R89). -/
  | sawMessageMalformed (w : Saw) (kind : Byte)
  /-- The heartbeat age of the saw reaches 30 ds (R91). -/
  | linkSilence (w : Saw)
  /-- The hold timer of the saw expires (R118). -/
  | holdTimerExpiry (w : Saw)
  /-- The interlock input of the saw drops (R121). -/
  | interlockDrop (w : Saw)
  /-- The interlock input of the saw is asserted again (R101). -/
  | interlockReturn (w : Saw)
  /-- The 100 ms sample of a channel; `raw` is the front end's reading (R150). -/
  | channelSample (c : Chan) (raw : Int)
  /-- The grace timer of a channel reaches 0 (R153). -/
  | graceExpiry (c : Chan)
  /-- The field-supply sense input drops (R155). -/
  | fieldSupplyLoss
  /-- The field-supply sense input returns; `raw` holds the front end's readings (R156). -/
  | fieldSupplyReturn (raw : Seven Int)
  /-- The 100 ms capacity evaluation (R173). -/
  | capacityEvaluation
  /-- The 100 ms metering of a saw's open segment (R163). -/
  | meteringInterval (w : Saw)
  /-- The RESET input is released (R224). -/
  | resetRelease (inputs : Inputs)
  /-- Main power returns (R224). -/
  | powerReturn (inputs : Inputs)
  /-- Main power is lost or RESET is asserted (R224). -/
  | powerLoss (cause : LossCause)
  /-- The backup supply falls below its retention range (R223). -/
  | backupFailure
  deriving DecidableEq, Repr

/-- The saw a saw number names, 1 to 4. -/
def Saw.ofNat? : Nat → Option Saw
  | 1 => some .saw1
  | 2 => some .saw2
  | 3 => some .saw3
  | 4 => some .saw4
  | _ => none

/-- The number of a saw. -/
def Saw.toNat : Saw → Nat
  | .saw1 => 1
  | .saw2 => 2
  | .saw3 => 3
  | .saw4 => 4

/-- The four saws in order. -/
def Saw.all : List Saw := [.saw1, .saw2, .saw3, .saw4]

/-- The channel a channel number names, 0 to 6. -/
def Chan.ofNat? : Nat → Option Chan
  | 0 => some .c0
  | 1 => some .c1
  | 2 => some .c2
  | 3 => some .c3
  | 4 => some .c4
  | 5 => some .c5
  | 6 => some .c6
  | _ => none

/-- The number of a channel. -/
def Chan.toNat : Chan → Nat
  | .c0 => 0
  | .c1 => 1
  | .c2 => 2
  | .c3 => 3
  | .c4 => 4
  | .c5 => 5
  | .c6 => 6

/-- The seven channels in order. -/
def Chan.all : List Chan := [.c0, .c1, .c2, .c3, .c4, .c5, .c6]

/-- The value of a group of four for a saw. -/
def Four.get {α : Type} (f : Four α) : Saw → α
  | .saw1 => f.one
  | .saw2 => f.two
  | .saw3 => f.three
  | .saw4 => f.four

/-- The group with the value of one saw replaced. -/
def Four.set {α : Type} (f : Four α) (w : Saw) (a : α) : Four α :=
  match w with
  | .saw1 => { f with one := a }
  | .saw2 => { f with two := a }
  | .saw3 => { f with three := a }
  | .saw4 => { f with four := a }

/-- The same value for each saw. -/
def Four.all {α : Type} (a : α) : Four α := ⟨a, a, a, a⟩

/-- A function applied to each of the four. -/
def Four.map {α β : Type} (g : α → β) (f : Four α) : Four β :=
  ⟨g f.one, g f.two, g f.three, g f.four⟩

/-- The value of a group of seven for a channel. -/
def Seven.get {α : Type} (f : Seven α) : Chan → α
  | .c0 => f.ch0
  | .c1 => f.ch1
  | .c2 => f.ch2
  | .c3 => f.ch3
  | .c4 => f.ch4
  | .c5 => f.ch5
  | .c6 => f.ch6

/-- The group with the value of one channel replaced. -/
def Seven.set {α : Type} (f : Seven α) (c : Chan) (a : α) : Seven α :=
  match c with
  | .c0 => { f with ch0 := a }
  | .c1 => { f with ch1 := a }
  | .c2 => { f with ch2 := a }
  | .c3 => { f with ch3 := a }
  | .c4 => { f with ch4 := a }
  | .c5 => { f with ch5 := a }
  | .c6 => { f with ch6 := a }

/-- The same value for each channel. -/
def Seven.all {α : Type} (a : α) : Seven α := ⟨a, a, a, a, a, a, a⟩

/-- A function applied to each of the seven. -/
def Seven.map {α β : Type} (g : α → β) (f : Seven α) : Seven β :=
  ⟨g f.ch0, g f.ch1, g f.ch2, g f.ch3, g f.ch4, g f.ch5, g f.ch6⟩

end Sys2Proof
end

