-- ==== Sys2Proof/Decode.lean ====
section
/-! DEFINITION. The table gives no row any bits, so decodeTableWord spells no command. Beside it stands what the manual does
give: the kind bytes (R212), the field encoding (R211), the CRC (R210), the byte-level receiver (R209), the reading of a
frame's body as a command, and the body a command is sent in. -/

namespace Sys2Proof

/-- No row of spec/opcode_table.json has bits, so no word spells a command. -/
def decodeTableWord (_nbits _w : Nat) : Option Instr := none

namespace Kind

/-! The kind bytes of the office link and of the saw links (R212). -/

def defineMaterial : Byte := 0x01#8
def dropMaterial : Byte := 0x02#8
def readMaterial : Byte := 0x03#8
def createSlab : Byte := 0x04#8
def amendSlab : Byte := 0x05#8
def scrapSlab : Byte := 0x06#8
def retireSlab : Byte := 0x07#8
def readSlab : Byte := 0x08#8
def findSlabs : Byte := 0x09#8
def readRack : Byte := 0x0A#8
def moveSlab : Byte := 0x0B#8
def startAudit : Byte := 0x0C#8
def verifySlab : Byte := 0x0D#8
def endAudit : Byte := 0x0E#8
def abortAudit : Byte := 0x0F#8
def readAudit : Byte := 0x10#8
def createPlan : Byte := 0x11#8
def revisePlan : Byte := 0x12#8
def checkPlan : Byte := 0x13#8
def releasePlan : Byte := 0x14#8
def cancelPlan : Byte := 0x15#8
def abandonPlan : Byte := 0x16#8
def readPlan : Byte := 0x17#8
def readPassList : Byte := 0x18#8
def retirePlan : Byte := 0x19#8
def configureSaw : Byte := 0x1A#8
def readSaw : Byte := 0x1B#8
def readContext : Byte := 0x1C#8
def resumeSaw : Byte := 0x1D#8
def addBlade : Byte := 0x1E#8
def amendBlade : Byte := 0x1F#8
def fitBlade : Byte := 0x20#8
def removeBlade : Byte := 0x21#8
def retireBlade : Byte := 0x22#8
def readBlade : Byte := 0x23#8
def setChannel : Byte := 0x24#8
def readChannel : Byte := 0x25#8
def calBegin : Byte := 0x26#8
def calPoint : Byte := 0x27#8
def calEnd : Byte := 0x28#8
def calAbort : Byte := 0x29#8
def setPlant : Byte := 0x2A#8
def readPlant : Byte := 0x2B#8
def openJob : Byte := 0x2C#8
def amendJob : Byte := 0x2D#8
def readJob : Byte := 0x2E#8
def closeJob : Byte := 0x2F#8
def retireJob : Byte := 0x30#8
def readNotices : Byte := 0x31#8
def setNotices : Byte := 0x32#8
def readState : Byte := 0x33#8
def wipeStore : Byte := 0x34#8
def hello : Byte := 0x40#8
def loaded : Byte := 0x41#8
def start : Byte := 0x42#8
def done : Byte := 0x43#8
def order : Byte := 0x44#8
def held : Byte := 0x45#8
def fault : Byte := 0x46#8
def status : Byte := 0x47#8
def load : Byte := 0x48#8
def go : Byte := 0x49#8
def wait : Byte := 0x4A#8
def hold : Byte := 0x4B#8
def resume : Byte := 0x4C#8
def unload : Byte := 0x4D#8

end Kind

/-- The kind byte of a reply or answer: the kind answered with its top bit set (R212). -/
def Kind.answer (k : Byte) : Byte := k ||| 0x80#8

/-! ## Field encoding, little-endian (R211) -/

/-- A one-byte field. -/
def bytesU8 (n : Nat) : List Byte := [BitVec.ofNat 8 n]
/-- A two-byte field. -/
def bytesU16 (n : Nat) : List Byte := [BitVec.ofNat 8 n, BitVec.ofNat 8 (n / 256)]
/-- A four-byte field. -/
def bytesU32 (n : Nat) : List Byte :=
  [BitVec.ofNat 8 n, BitVec.ofNat 8 (n / 256), BitVec.ofNat 8 (n / 65536), BitVec.ofNat 8 (n / 16777216)]
/-- A signed two-byte field, in two's complement. -/
def bytesS16 (i : Int) : List Byte := bytesU16 (i % 65536).toNat

/-- A list: a count byte, then the items in order (R211). -/
def bytesList {α : Type} (item : α → List Byte) (xs : List α) : List Byte :=
  bytesU8 xs.length ++ xs.flatMap item

def Flaw.bytes (f : Flaw) : List Byte := bytesU16 f.x0 ++ bytesU16 f.x1 ++ bytesU16 f.y0 ++ bytesU16 f.y1
def Piece.bytes (p : Piece) : List Byte := bytesU16 p.mark ++ bytesU16 p.length
/-- A strip of the plan layout (R216). -/
def Strip.bytes (s : Strip) : List Byte := bytesU16 s.width ++ bytesList Piece.bytes s.pieces
def Span.bytes (s : Span) : List Byte := bytesU8 s.first ++ bytesU8 s.last

/-! ## Field reading -/

def takeU8 : List Byte → Option (Nat × List Byte)
  | a :: r => some (a.toNat, r)
  | _ => none
def takeU16 : List Byte → Option (Nat × List Byte)
  | a :: b :: r => some (a.toNat + 256 * b.toNat, r)
  | _ => none
def takeU32 : List Byte → Option (Nat × List Byte)
  | a :: b :: c :: d :: r => some (a.toNat + 256 * b.toNat + 65536 * c.toNat + 16777216 * d.toNat, r)
  | _ => none
def takeS16 (b : List Byte) : Option (Int × List Byte) :=
  match takeU16 b with
  | some (n, r) => some (if n < 32768 then (n : Int) else (n : Int) - 65536, r)
  | none => none

/-- `n` items, one after the other. -/
def takeItems {α : Type} (item : List Byte → Option (α × List Byte)) : Nat → List Byte → Option (List α × List Byte)
  | 0, b => some ([], b)
  | n + 1, b =>
    match item b with
    | none => none
    | some (a, r) =>
      match takeItems item n r with
      | none => none
      | some (as, r') => some (a :: as, r')

/-- A counted list of at most `limit` items; a count beyond the list's limit is a bad form (R211). -/
def takeList {α : Type} (limit : Nat) (item : List Byte → Option (α × List Byte)) (b : List Byte) :
    Option (List α × List Byte) :=
  match takeU8 b with
  | none => none
  | some (n, r) => if n ≤ limit then takeItems item n r else none

def takeFlaw (b : List Byte) : Option (Flaw × List Byte) := do
  let (x0, b) ← takeU16 b
  let (x1, b) ← takeU16 b
  let (y0, b) ← takeU16 b
  let (y1, b) ← takeU16 b
  some (⟨x0, x1, y0, y1⟩, b)
def takePiece (b : List Byte) : Option (Piece × List Byte) := do
  let (mark, b) ← takeU16 b
  let (length, b) ← takeU16 b
  some (⟨mark, length⟩, b)
def takeStrip (b : List Byte) : Option (Strip × List Byte) := do
  let (width, b) ← takeU16 b
  let (pieces, b) ← takeList 6 takePiece b
  some (⟨width, pieces⟩, b)
def takeSpan (b : List Byte) : Option (Span × List Byte) := do
  let (first, b) ← takeU8 b
  let (last, b) ← takeU8 b
  some (⟨first, last⟩, b)
def takeFlaws (b : List Byte) : Option (List Flaw × List Byte) := takeList 4 takeFlaw b
def takeStrips (b : List Byte) : Option (List Strip × List Byte) := takeList 8 takeStrip b
def takeSpans (b : List Byte) : Option (List Span × List Byte) := takeList 3 takeSpan b
/-- A channel set is read as a counted list of channel numbers (DESIGN CHOICE, log 14). -/
def takeSet (b : List Byte) : Option (List Nat × List Byte) := takeList 7 takeU8 b

/-! ## Office link requests (R211, R212, R215, R216) -/

/-- The request of a kind, read from the bytes after the kind byte, with what is left over. The inputs give the readings a
request takes with it (log 8). -/
def takeRequest (inputs : Inputs) (kind : Nat) (b : List Byte) : Option (Instr × List Byte) :=
  match kind with
  | 0x01 => do
    let (code, b) ← takeU8 b
    let (hardness, b) ← takeU16 b
    let (feed, b) ← takeU16 b
    some (.defineMaterial code hardness feed, b)
  | 0x02 => do
    let (code, b) ← takeU8 b
    some (.dropMaterial code, b)
  | 0x03 => do
    let (code, b) ← takeU8 b
    some (.readMaterial code, b)
  | 0x04 => do
    let (number, b) ← takeU16 b
    let (material, b) ← takeU8 b
    let (thickness, b) ← takeU16 b
    let (lotNumber, b) ← takeU16 b
    let (lotSeq, b) ← takeU8 b
    let (length, b) ← takeU16 b
    let (width, b) ← takeU16 b
    let (basis, b) ← takeU32 b
    let (flaws, b) ← takeFlaws b
    some (.createSlab number material thickness lotNumber lotSeq length width basis flaws, b)
  | 0x05 => do
    let (number, b) ← takeU16 b
    let (material, b) ← takeU8 b
    let (thickness, b) ← takeU16 b
    let (lotNumber, b) ← takeU16 b
    let (lotSeq, b) ← takeU8 b
    let (basis, b) ← takeU32 b
    let (flaws, b) ← takeFlaws b
    some (.amendSlab number material thickness lotNumber lotSeq basis flaws, b)
  | 0x06 => do
    let (number, b) ← takeU16 b
    some (.scrapSlab number, b)
  | 0x07 => do
    let (number, b) ← takeU16 b
    some (.retireSlab number, b)
  | 0x08 => do
    let (number, b) ← takeU16 b
    some (.readSlab number, b)
  | 0x09 => do
    let (material, b) ← takeU8 b
    let (thickness, b) ← takeU16 b
    let (minLength, b) ← takeU16 b
    let (minWidth, b) ← takeU16 b
    let (lotNumber, b) ← takeU16 b
    some (.findSlabs material thickness minLength minWidth lotNumber, b)
  | 0x0A => do
    let (rack, b) ← takeU8 b
    some (.readRack rack, b)
  | 0x0B => do
    let (number, b) ← takeU16 b
    let (rack, b) ← takeU8 b
    let (position, b) ← takeU8 b
    some (.moveSlab number rack position, b)
  | 0x0C => do
    let (spans, b) ← takeSpans b
    some (.startAudit spans, b)
  | 0x0D => do
    let (number, b) ← takeU16 b
    let (rack, b) ← takeU8 b
    let (position, b) ← takeU8 b
    some (.verifySlab number rack position, b)
  | 0x0E => do
    some (.endAudit, b)
  | 0x0F => do
    some (.abortAudit, b)
  | 0x10 => do
    some (.readAudit, b)
  | 0x11 => do
    let (number, b) ← takeU16 b
    let (job, b) ← takeU16 b
    let (slab, b) ← takeU16 b
    let (kerf, b) ← takeU8 b
    let (strips, b) ← takeStrips b
    some (.createPlan number job slab kerf strips, b)
  | 0x12 => do
    let (number, b) ← takeU16 b
    let (kerf, b) ← takeU8 b
    let (strips, b) ← takeStrips b
    some (.revisePlan number kerf strips, b)
  | 0x13 => do
    let (number, b) ← takeU16 b
    some (.checkPlan number, b)
  | 0x14 => do
    let (number, b) ← takeU16 b
    let (saw, b) ← takeU8 b
    some (.releasePlan number saw, b)
  | 0x15 => do
    let (number, b) ← takeU16 b
    some (.cancelPlan number, b)
  | 0x16 => do
    let (number, b) ← takeU16 b
    some (.abandonPlan number, b)
  | 0x17 => do
    let (number, b) ← takeU16 b
    some (.readPlan number, b)
  | 0x18 => do
    let (number, b) ← takeU16 b
    some (.readPassList number, b)
  | 0x19 => do
    let (number, b) ← takeU16 b
    some (.retirePlan number, b)
  | 0x1A => do
    let (saw, b) ← takeU8 b
    let (demand, b) ← takeU16 b
    let (rate, b) ← takeU32 b
    some (.configureSaw saw demand rate, b)
  | 0x1B => do
    let (saw, b) ← takeU8 b
    some (.readSaw saw, b)
  | 0x1C => do
    let (saw, b) ← takeU8 b
    some (.readContext saw, b)
  | 0x1D => do
    let (saw, b) ← takeU8 b
    some (.resumeSaw saw, b)
  | 0x1E => do
    let (number, b) ← takeU16 b
    let (kerf, b) ← takeU8 b
    let (price, b) ← takeU32 b
    let (life, b) ← takeU16 b
    some (.addBlade number kerf price life, b)
  | 0x1F => do
    let (number, b) ← takeU16 b
    let (price, b) ← takeU32 b
    let (life, b) ← takeU16 b
    some (.amendBlade number price life, b)
  | 0x20 => do
    let (number, b) ← takeU16 b
    let (saw, b) ← takeU8 b
    some (.fitBlade number saw, b)
  | 0x21 => do
    let (saw, b) ← takeU8 b
    some (.removeBlade saw, b)
  | 0x22 => do
    let (number, b) ← takeU16 b
    some (.retireBlade number, b)
  | 0x23 => do
    let (number, b) ← takeU16 b
    some (.readBlade number, b)
  | 0x24 => do
    let (channel, b) ← takeU8 b
    let (range, b) ← takeU8 b
    let (filter, b) ← takeU8 b
    let (low, b) ← takeS16 b
    let (high, b) ← takeS16 b
    some (.setChannel channel range filter low high ((Chan.ofNat? channel).elim 0 inputs.raw.get), b)
  | 0x25 => do
    let (channel, b) ← takeU8 b
    some (.readChannel channel, b)
  | 0x26 => do
    let (set, b) ← takeSet b
    some (.calBegin set, b)
  | 0x27 => do
    let (set, b) ← takeSet b
    let (point, b) ← takeU8 b
    some (.calPoint set point, b)
  | 0x28 => do
    let (set, b) ← takeSet b
    let (mode, b) ← takeU8 b
    some (.calEnd set mode, b)
  | 0x29 => do
    let (set, b) ← takeSet b
    some (.calAbort set, b)
  | 0x2A => do
    let (rating, b) ← takeU16 b
    let (hold, b) ← takeU16 b
    let (restart, b) ← takeU16 b
    let (reduce, b) ← takeU16 b
    let (turbidity, b) ← takeU16 b
    let (sump, b) ← takeU16 b
    let (waterRate, b) ← takeU32 b
    let (grace, b) ← takeU16 b
    some (.setPlant rating hold restart reduce turbidity sump waterRate grace, b)
  | 0x2B => do
    some (.readPlant, b)
  | 0x2C => do
    let (number, b) ← takeU16 b
    let (lotNumber, b) ← takeU16 b
    let (quote, b) ← takeU32 b
    some (.openJob number lotNumber quote, b)
  | 0x2D => do
    let (number, b) ← takeU16 b
    let (quote, b) ← takeU32 b
    let (lotNumber, b) ← takeU16 b
    some (.amendJob number quote lotNumber, b)
  | 0x2E => do
    let (number, b) ← takeU16 b
    some (.readJob number, b)
  | 0x2F => do
    let (number, b) ← takeU16 b
    some (.closeJob number, b)
  | 0x30 => do
    let (number, b) ← takeU16 b
    some (.retireJob number, b)
  | 0x31 => do
    some (.readNotices, b)
  | 0x32 => do
    let (enable, b) ← takeU16 b
    let (master, b) ← takeU8 b
    some (.setNotices (BitVec.ofNat 16 enable) master, b)
  | 0x33 => do
    some (.readState inputs.backup, b)
  | 0x34 => do
    some (.wipeStore, b)
  | _ => none

/-- The command a good frame on the office link is: the request, or UNKNOWN_REQUEST where its kind is no request or its body
does not suit its kind (R211, R212; log 12). A frame's body holds at least its kind (R209). -/
def requestOf (inputs : Inputs) : List Byte → Instr
  | [] => .unknownRequest 0#8
  | k :: b =>
    match takeRequest inputs k.toNat b with
    | some (i, []) => i
    | _ => .unknownRequest k

/-! ## Saw messages (R89, R212) -/

/-- The cause of a FAULT message (R212). -/
def SawCause.ofNat? : Nat → Option SawCause
  | 1 => some .overload
  | 2 => some .stall
  | 3 => some .operatorStop
  | 4 => some .safety
  | _ => none

/-- The code of a FAULT message's cause (R212). -/
def SawCause.code : SawCause → Nat
  | .overload => 1
  | .stall => 2
  | .operatorStop => 3
  | .safety => 4

/-- A tag field; a tag above 7 is a bad form (R89). -/
def takeTag (b : List Byte) : Option (Nat × List Byte) :=
  match takeU8 b with
  | some (n, r) => if n ≤ 7 then some (n, r) else none
  | none => none

/-- A present indication; any value but 0 and 1 is a bad form (R89). -/
def takePresent (b : List Byte) : Option (Bool × List Byte) :=
  match takeU8 b with
  | some (0, r) => some (false, r)
  | some (1, r) => some (true, r)
  | _ => none

/-- The message of a kind, read from the bytes after the kind byte, with what is left over. -/
def takeMessage (w : Saw) (kind : Nat) (b : List Byte) : Option (Instr × List Byte) :=
  match kind with
  | 0x40 => do
    let (maxFeed, b) ← takeU16 b
    some (.hello w maxFeed, b)
  | 0x41 => do
    let (plan, b) ← takeU16 b
    some (.loaded w plan, b)
  | 0x42 => do
    let (tag, b) ← takeTag b
    some (.start w tag, b)
  | 0x43 => do
    let (tag, b) ← takeTag b
    some (.done w tag, b)
  | 0x45 => do
    let (tag, b) ← takeTag b
    let (position, b) ← takeU16 b
    some (.held w tag position, b)
  | 0x46 => do
    let (given, b) ← takePresent b
    let (tag, b) ← takeTag b
    let (position, b) ← takeU16 b
    let (code, b) ← takeU8 b
    match SawCause.ofNat? code with
    | some cause => some (.fault w (if given then some tag else none) position cause, b)
    | none => none
  | 0x47 => do
    let (position, b) ← takeU16 b
    some (.status w position, b)
  | _ => none

/-- The command a good frame on a saw link is: the message, or SAW_MESSAGE_MALFORMED (R89). -/
def messageOf (w : Saw) : List Byte → Instr
  | [] => .sawMessageMalformed w 0#8
  | k :: b =>
    match takeMessage w k.toNat b with
    | some (i, []) => i
    | _ => .sawMessageMalformed w k

/-- The command a good frame on a link is. -/
def commandOf (inputs : Inputs) : Link → List Byte → Instr
  | .office, body => requestOf inputs body
  | .saw w, body => messageOf w body

/-! ## The body a command is sent in -/

/-- The body of the frame that carries a request or a saw message, written from the same rules; the other commands are no
frames and have none. -/
def Instr.body : Instr → List Byte
  | .defineMaterial code hardness feed => Kind.defineMaterial :: (bytesU8 code ++ bytesU16 hardness ++ bytesU16 feed)
  | .dropMaterial code => Kind.dropMaterial :: (bytesU8 code)
  | .readMaterial code => Kind.readMaterial :: (bytesU8 code)
  | .createSlab number material thickness lotNumber lotSeq length width basis flaws =>
    Kind.createSlab :: (bytesU16 number ++ bytesU8 material ++ bytesU16 thickness ++ bytesU16 lotNumber ++ bytesU8 lotSeq ++ bytesU16 length ++ bytesU16 width ++ bytesU32 basis ++ bytesList Flaw.bytes flaws)
  | .amendSlab number material thickness lotNumber lotSeq basis flaws =>
    Kind.amendSlab :: (bytesU16 number ++ bytesU8 material ++ bytesU16 thickness ++ bytesU16 lotNumber ++ bytesU8 lotSeq ++ bytesU32 basis ++ bytesList Flaw.bytes flaws)
  | .scrapSlab number => Kind.scrapSlab :: (bytesU16 number)
  | .retireSlab number => Kind.retireSlab :: (bytesU16 number)
  | .readSlab number => Kind.readSlab :: (bytesU16 number)
  | .findSlabs material thickness minLength minWidth lotNumber =>
    Kind.findSlabs :: (bytesU8 material ++ bytesU16 thickness ++ bytesU16 minLength ++ bytesU16 minWidth ++ bytesU16 lotNumber)
  | .readRack rack => Kind.readRack :: (bytesU8 rack)
  | .moveSlab number rack position => Kind.moveSlab :: (bytesU16 number ++ bytesU8 rack ++ bytesU8 position)
  | .startAudit spans => Kind.startAudit :: (bytesList Span.bytes spans)
  | .verifySlab number rack position => Kind.verifySlab :: (bytesU16 number ++ bytesU8 rack ++ bytesU8 position)
  | .endAudit => Kind.endAudit :: []
  | .abortAudit => Kind.abortAudit :: []
  | .readAudit => Kind.readAudit :: []
  | .createPlan number job slab kerf strips =>
    Kind.createPlan :: (bytesU16 number ++ bytesU16 job ++ bytesU16 slab ++ bytesU8 kerf ++ bytesList Strip.bytes strips)
  | .revisePlan number kerf strips =>
    Kind.revisePlan :: (bytesU16 number ++ bytesU8 kerf ++ bytesList Strip.bytes strips)
  | .checkPlan number => Kind.checkPlan :: (bytesU16 number)
  | .releasePlan number saw => Kind.releasePlan :: (bytesU16 number ++ bytesU8 saw)
  | .cancelPlan number => Kind.cancelPlan :: (bytesU16 number)
  | .abandonPlan number => Kind.abandonPlan :: (bytesU16 number)
  | .readPlan number => Kind.readPlan :: (bytesU16 number)
  | .readPassList number => Kind.readPassList :: (bytesU16 number)
  | .retirePlan number => Kind.retirePlan :: (bytesU16 number)
  | .configureSaw saw demand rate => Kind.configureSaw :: (bytesU8 saw ++ bytesU16 demand ++ bytesU32 rate)
  | .readSaw saw => Kind.readSaw :: (bytesU8 saw)
  | .readContext saw => Kind.readContext :: (bytesU8 saw)
  | .resumeSaw saw => Kind.resumeSaw :: (bytesU8 saw)
  | .addBlade number kerf price life =>
    Kind.addBlade :: (bytesU16 number ++ bytesU8 kerf ++ bytesU32 price ++ bytesU16 life)
  | .amendBlade number price life => Kind.amendBlade :: (bytesU16 number ++ bytesU32 price ++ bytesU16 life)
  | .fitBlade number saw => Kind.fitBlade :: (bytesU16 number ++ bytesU8 saw)
  | .removeBlade saw => Kind.removeBlade :: (bytesU8 saw)
  | .retireBlade number => Kind.retireBlade :: (bytesU16 number)
  | .readBlade number => Kind.readBlade :: (bytesU16 number)
  | .setChannel channel range filter low high _ =>
    Kind.setChannel :: (bytesU8 channel ++ bytesU8 range ++ bytesU8 filter ++ bytesS16 low ++ bytesS16 high)
  | .readChannel channel => Kind.readChannel :: (bytesU8 channel)
  | .calBegin set => Kind.calBegin :: (bytesList bytesU8 set)
  | .calPoint set point => Kind.calPoint :: (bytesList bytesU8 set ++ bytesU8 point)
  | .calEnd set mode => Kind.calEnd :: (bytesList bytesU8 set ++ bytesU8 mode)
  | .calAbort set => Kind.calAbort :: (bytesList bytesU8 set)
  | .setPlant rating hold restart reduce turbidity sump waterRate grace =>
    Kind.setPlant :: (bytesU16 rating ++ bytesU16 hold ++ bytesU16 restart ++ bytesU16 reduce ++ bytesU16 turbidity ++ bytesU16 sump ++ bytesU32 waterRate ++ bytesU16 grace)
  | .readPlant => Kind.readPlant :: []
  | .openJob number lotNumber quote => Kind.openJob :: (bytesU16 number ++ bytesU16 lotNumber ++ bytesU32 quote)
  | .amendJob number quote lotNumber => Kind.amendJob :: (bytesU16 number ++ bytesU32 quote ++ bytesU16 lotNumber)
  | .readJob number => Kind.readJob :: (bytesU16 number)
  | .closeJob number => Kind.closeJob :: (bytesU16 number)
  | .retireJob number => Kind.retireJob :: (bytesU16 number)
  | .readNotices => Kind.readNotices :: []
  | .setNotices enable master => Kind.setNotices :: (bytesU16 enable.toNat ++ bytesU8 master)
  | .readState _ => Kind.readState :: []
  | .wipeStore => Kind.wipeStore :: []
  | .hello _ maxFeed => Kind.hello :: bytesU16 maxFeed
  | .loaded _ plan => Kind.loaded :: bytesU16 plan
  | .start _ tag => Kind.start :: bytesU8 tag
  | .done _ tag => Kind.done :: bytesU8 tag
  | .held _ tag position => Kind.held :: (bytesU8 tag ++ bytesU16 position)
  | .fault _ tag position cause =>
    Kind.fault :: (bytesU8 (if tag.isSome then 1 else 0) ++ bytesU8 (tag.getD 0) ++ bytesU16 position ++ bytesU8 cause.code)
  | .status _ position => Kind.status :: bytesU16 position
  | .unknownRequest _ => []
  | .busyRequest _ => []
  | .replySent => []
  | .badFrame _ => []
  | .byteGapTimeout _ _ => []
  | .sawMessageMalformed _ _ => []
  | .linkSilence _ => []
  | .holdTimerExpiry _ => []
  | .interlockDrop _ => []
  | .interlockReturn _ => []
  | .channelSample _ _ => []
  | .graceExpiry _ => []
  | .fieldSupplyLoss => []
  | .fieldSupplyReturn _ => []
  | .capacityEvaluation => []
  | .meteringInterval _ => []
  | .resetRelease _ => []
  | .powerReturn _ => []
  | .powerLoss _ => []
  | .backupFailure => []

/-! ## CRC and frames (R209, R210) -/

/-- One bit of the CRC: shift left, and take the polynomial x^16 + x^12 + x^5 + 1 where the top bit was 1 (R210). -/
def crcBit (c : BitVec 16) : BitVec 16 :=
  if c.msb then (c <<< 1) ^^^ 0x1021#16 else c <<< 1

/-- One byte of the CRC, most significant bit first (R210). -/
def crcByte (c : BitVec 16) (b : Byte) : BitVec 16 :=
  let c := c ^^^ (b.setWidth 16 <<< 8)
  crcBit (crcBit (crcBit (crcBit (crcBit (crcBit (crcBit (crcBit c)))))))

/-- The CRC over a list of bytes, from the initial value 0xFFFF, with no final inversion (R210). -/
def crc (bs : List Byte) : BitVec 16 := bs.foldl crcByte 0xFFFF#16

/-- The start byte of every frame (R209). -/
def startByte : Byte := 0x5A#8

/-- The bytes of a frame on the line: start byte, length, body, and the CRC over the length and the body, low byte first
(R209, R210). -/
def frameBytes (body : List Byte) : List Byte :=
  let len : Byte := BitVec.ofNat 8 body.length
  let c := crc (len :: body)
  startByte :: len :: (body ++ [c.setWidth 8, (c >>> 8).setWidth 8])

/-- The phase of a link's receiver, with the bytes it holds (R209). -/
inductive Phase where
  | hunt
  | length
  /-- The length byte, the body bytes held (latest first) and how many are still to come. -/
  | inBody (len : Byte) (taken : List Byte) (left : Nat)
  /-- The length byte and the body bytes held; `low` is the low CRC byte once it is taken. -/
  | inCrc (len : Byte) (held : List Byte) (low : Option Byte)
  deriving DecidableEq, Repr

/-- What a receiver finds at a byte. -/
inductive Arrival where
  | none
  /-- A good frame with its body. -/
  | good (body : List Byte)
  /-- A frame dropped for its length or its CRC. -/
  | dropped
  deriving DecidableEq, Repr

/-- A receiver takes one byte (R209's table). -/
def Phase.take (p : Phase) (b : Byte) : Phase × Arrival :=
  match p with
  | .hunt => if b = startByte then (.length, .none) else (.hunt, .none)
  | .length =>
    if 1 ≤ b.toNat ∧ b.toNat ≤ 240 then (.inBody b [] b.toNat, .none) else (.hunt, .dropped)
  | .inBody len taken left =>
    if left ≤ 1 then (.inCrc len (b :: taken).reverse none, .none) else (.inBody len (b :: taken) (left - 1), .none)
  | .inCrc len held none => (.inCrc len held (some b), .none)
  | .inCrc len held (some low) =>
    if crc (len :: held) = b ++ low then (.hunt, .good held) else (.hunt, .dropped)

/-- A receiver takes bytes one after the other; the arrivals other than `none` are given in order. -/
def Phase.takeAll : Phase → List Byte → Phase × List Arrival
  | p, [] => (p, [])
  | p, b :: bs =>
    let (p', a) := p.take b
    let (q, as) := p'.takeAll bs
    (q, if a = .none then as else a :: as)

end Sys2Proof
end

