-- ==== Sys2Proof/Machine/State.lean ====
section
/-! DEFINITION. The state of the part, block by block (Device Overview), the reasons a step can stop, and the state right
after reset. -/

namespace Sys2Proof.Machine

/-- The spec names no behaviour that stops the part: a request or report it does not perform is answered with a status
code, which is an effect (R1, R212). So no meaning ends in a fault, and there is none. -/
inductive Fault where
  deriving DecidableEq, Repr

/-- Why a step has no meaning. -/
inductive Refusal where
  /-- A command without a meaning yet, raised by exec's arm for it alone; safe, since nothing is claimed of it. -/
  | notModelled (mnemonic : String)
  deriving DecidableEq, Repr

/-! ## Frames -/

/-- The status codes of a reply or answer (R212). -/
inductive Status where
  | ok | form | none | exists | full | state | frozen | inUse | occupied | geometry | lot | kerf | blade | missing
  | busy | stale | order | notReady | demand
  deriving DecidableEq, Repr

/-- A field of a body, in one of the widths of R211. -/
inductive Field where
  | u8 (n : Nat)
  | u16 (n : Nat)
  | u32 (n : Nat)
  | s16 (i : Int)
  deriving DecidableEq, Repr

/-- A frame the part sends: its kind byte, its status byte where it answers something, and its fields (R211, R212). -/
structure Frame where
  kind : Byte
  status : Option Status
  fields : List Field
  deriving DecidableEq, Repr

/-- The twelve notices (R218). -/
inductive Notice where
  | sawFault | sawHeld | sawLink | planDone | remnantMade | stockFull | auditEnded | bladeAdvisory | bladeExhausted
  | channelFault | waterStop | overQuote
  deriving DecidableEq, Repr

/-! ## STK -/

/-- A defined entry of the material table (R2). -/
structure Material where
  code : Nat
  hardness : Nat
  feed : Nat
  deriving DecidableEq, Repr

/-- Where a slab comes from (R6). -/
inductive SlabKind where
  | full | remnant
  deriving DecidableEq, Repr

/-- The life of a slab (R8). -/
inductive SlabState where
  | available | reserved | onSaw | consumed | scrapped
  deriving DecidableEq, Repr

/-- A lot number and sequence (R7). -/
structure Lot where
  number : Nat
  seq : Nat
  deriving DecidableEq, Repr

/-- A rack position (R27). -/
structure Place where
  rack : Nat
  position : Nat
  deriving DecidableEq, Repr

/-- A slab record (R6). -/
structure Slab where
  number : Nat
  kind : SlabKind
  material : Nat
  thickness : Nat
  lot : Option Lot
  length : Nat
  width : Nat
  flaws : List Flaw
  basis : Nat
  /-- Absent means on the floor. -/
  place : Option Place
  state : SlabState
  plan : Option Nat
  parent : Option Nat
  missing : Bool
  /-- The audit mark UNVERIFIED. -/
  mark : Bool
  deriving DecidableEq, Repr

/-- A filled position of the rack map (R27). -/
structure RackEntry where
  place : Place
  slab : Nat
  deriving DecidableEq, Repr

/-- Whether an audit runs (R31). -/
inductive AuditState where
  | idle | running
  deriving DecidableEq, Repr

/-- The audit record (R31). -/
structure Audit where
  state : AuditState
  spans : List Span
  marked : Nat
  verified : Nat
  deriving DecidableEq, Repr

/-- The state STK owns. -/
structure Stock where
  /-- The slab records by ascending number (the order is not visible, R6; log 24). -/
  slabs : List Slab
  /-- The defined material entries by ascending code; an unlisted code is undefined with hardness 0 and feed 0 (R2). -/
  materials : List Material
  /-- The filled rack positions, by ascending rack and position (R27). -/
  rackMap : List RackEntry
  audit : Audit
  /-- The remnant number counter (R17). -/
  counter : Nat
  deriving DecidableEq, Repr

/-! ## PLN -/

/-- The direction of a cut (R47). -/
inductive PassKind where
  | rip | cross
  deriving DecidableEq, Repr

/-- The progress of a pass (R47). -/
inductive PassState where
  | pending | staged | active | done
  deriving DecidableEq, Repr

/-- A pass record (R47). -/
structure Pass where
  index : Nat
  kind : PassKind
  strip : Nat
  coordinate : Nat
  length : Nat
  state : PassState
  reached : Nat
  deriving DecidableEq, Repr

/-- The remnant of a derived part (R46, R79 to R81). -/
structure RemnantPart where
  length : Nat
  width : Nat
  flaws : List Flaw
  basis : Nat
  deriving DecidableEq, Repr

/-- The derived part of a plan (R46). -/
structure Derived where
  passes : List Pass
  cutLength : Nat
  yield : Nat
  remnant : Option RemnantPart
  stoneCharge : Nat
  basisAtCheck : Nat
  deriving DecidableEq, Repr

/-- The life of a plan (R44). -/
inductive PlanState where
  | draft | checked | released | cutting | done | cancelled | abandoned
  deriving DecidableEq, Repr

/-- A plan record (R44). -/
structure Plan where
  number : Nat
  job : Nat
  slab : Nat
  kerf : Nat
  strips : List Strip
  state : PlanState
  saw : Option Saw
  derived : Option Derived
  /-- The finished indication of each strip; strips finished is the number set. -/
  finished : List Bool
  piecesFinished : Nat
  remnantGiven : Option Nat
  deriving DecidableEq, Repr

/-- The state PLN owns. -/
structure PlanStore where
  /-- The plan records by ascending number. -/
  plans : List Plan
  deriving DecidableEq, Repr

/-! ## SDP -/

/-- Whether the saw's controller is taken to be present (R85). -/
inductive LinkState where
  | down | up
  deriving DecidableEq, Repr

/-- Where a saw stands in its work (R85). -/
inductive SawState where
  | offline | idle | loading | primed | waiting | cutting | holding | held | faulted
  deriving DecidableEq, Repr

/-- An outstanding pass (R98). -/
structure Outstanding where
  tag : Nat
  index : Nat
  deriving DecidableEq, Repr

/-- What stopped a saw (R113). -/
inductive ContextKind where
  | hold | fault | link | power
  deriving DecidableEq, Repr

/-- The cause of a context (R113). -/
inductive Cause where
  | overload | stall | operatorStop | safety | holdTimeout | linkLost | powerLoss
  deriving DecidableEq, Repr

/-- The pass part of a context (R113). -/
structure PassPart where
  plan : Nat
  index : Nat
  tag : Option Nat
  position : Nat
  remaining : Nat
  deriving DecidableEq, Repr

/-- The record of interrupted work (R113). -/
structure Context where
  kind : ContextKind
  cause : Option Cause
  part : Option PassPart
  time : Nat
  faults : Nat
  deriving DecidableEq, Repr

/-- The segment meters of a saw (R85, R106). -/
structure Meters where
  isOpen : Bool
  startAt : Nat
  time : Nat
  /-- The accumulator S. -/
  flow : Nat
  remainder : Nat
  deriving DecidableEq, Repr

/-- A saw record (R85, R114). -/
structure SawRec where
  link : LinkState
  state : SawState
  demand : Nat
  rate : Nat
  maxFeed : Nat
  blade : Option Nat
  queue : List Nat
  pendingLoad : Option Nat
  outstanding : List Outstanding
  nextTag : Nat
  context : Option Context
  meters : Meters
  heartbeat : Nat
  interlock : Bool
  passTime : Nat
  /-- The remaining ds of the hold timer, absent while it is stopped. -/
  holdTimer : Option Nat
  deriving DecidableEq, Repr

/-- The state SDP owns: the saw records and the saw link controllers. -/
structure Dispatcher where
  saws : Four SawRec
  /-- The frames queued for sending on each saw link, oldest first (R89, R224). -/
  queued : Four (List Frame)
  /-- The receiver of each saw link (R209). -/
  receiver : Four Phase
  deriving DecidableEq, Repr

/-! ## BLD -/

/-- Where a blade is (R132). -/
inductive BladeState where
  | spare | fitted | retired
  deriving DecidableEq, Repr

/-- The health of a blade, derived (R133). -/
inductive Health where
  | good | advisory | exhausted
  deriving DecidableEq, Repr

/-- A blade record (R132). -/
structure Blade where
  number : Nat
  kerf : Nat
  price : Nat
  life : Nat
  wear : Nat
  wearRemainder : Nat
  costRemainder : Nat
  overloads : Nat
  state : BladeState
  saw : Option Saw
  advisoryNoticed : Bool
  exhaustedNoticed : Bool
  deriving DecidableEq, Repr

/-- The state BLD owns. -/
structure BladeTable where
  /-- The blade records by ascending number. -/
  blades : List Blade
  deriving DecidableEq, Repr

/-! ## PMN -/

/-- The condition of a channel (R147). -/
inductive ChannelState where
  | off | good | rangeLow | rangeHigh | fieldOff | calibrating
  deriving DecidableEq, Repr

/-- The outcome of the last calibration (R147). -/
inductive CalResult where
  | none | done | bad
  deriving DecidableEq, Repr

/-- The grace timer of a channel (R147, R153). -/
inductive Grace where
  | stopped
  /-- Running, with the remaining time in ds. -/
  | running (ds : Nat)
  | expired
  deriving DecidableEq, Repr

/-- A channel record (R147). -/
structure Channel where
  range : Nat
  filter : Nat
  low : Int
  high : Int
  offset : Int
  gain : Int
  result : CalResult
  lowPoint : Option Int
  highPoint : Option Int
  raw : Option Int
  /-- The corrected readings, oldest first. -/
  history : List Int
  value : Option Int
  lastGood : Option Int
  state : ChannelState
  grace : Grace
  deriving DecidableEq, Repr

/-- The form of the reading a channel offers (R154). -/
inductive Form where
  | live | held | absent | lost
  deriving DecidableEq, Repr

/-- A reading offered: its form, and its value where there is one (R154). -/
structure Reading where
  form : Form
  value : Option Int
  deriving DecidableEq, Repr

/-- The state PMN owns. -/
structure Monitor where
  channels : Seven Channel
  /-- The field-supply indication. -/
  fieldSupply : Bool
  deriving DecidableEq, Repr

/-! ## WAU -/

/-- The plant settings (R167). -/
structure Settings where
  rating : Nat
  hold : Nat
  restart : Nat
  reduce : Nat
  turbidity : Nat
  sump : Nat
  waterRate : Nat
  grace : Nat
  deriving DecidableEq, Repr

/-- The level state (R169). -/
inductive LevelState where
  | undecided | normal | low
  deriving DecidableEq, Repr

/-- The kinds of line entry (R176). -/
inductive EntryKind where
  | started | held
  deriving DecidableEq, Repr

/-- An entry of the waiting line (R176). -/
structure LineEntry where
  saw : Saw
  kind : EntryKind
  deriving DecidableEq, Repr

/-- The state WAU owns. -/
structure Admission where
  settings : Settings
  level : LevelState
  /-- The readings of channels 0, 1 and 2 last used at an evaluation (R185, R186). -/
  used0 : Reading
  used1 : Reading
  used2 : Reading
  lf : Nat
  tf : Nat
  sf : Nat
  capacity : Nat
  allotment : Four (Option Nat)
  /-- The admission order, earliest first (R175). -/
  order : List Saw
  /-- The waiting line from its head (R176). -/
  line : List LineEntry
  /-- The four permit outputs (R184). -/
  permit : Four Bool
  deriving DecidableEq, Repr

/-! ## JCU -/

/-- The life of a job (R188). -/
inductive JobState where
  | opened | active | closed
  deriving DecidableEq, Repr

/-- A job record (R187). -/
structure Job where
  number : Nat
  state : JobState
  lot : Option Nat
  quote : Nat
  stone : Nat
  sawTime : Nat
  water : Nat
  blade : Nat
  sawRemainder : Nat
  waterRemainder : Nat
  planned : Nat
  cut : Nat
  plans : List Nat
  waterEstimated : Bool
  overQuote : Bool
  deriving DecidableEq, Repr

/-- The state JCU owns. -/
structure JobUnit where
  /-- The job records by ascending number. -/
  jobs : List Job
  deriving DecidableEq, Repr

/-! ## OLC and RSV -/

/-- The request slot (R213). -/
inductive Slot where
  | ready | serving
  deriving DecidableEq, Repr

/-- The state OLC owns. -/
structure Office where
  slot : Slot
  /-- The reply being sent, until its last byte is out. -/
  reply : Option Frame
  /-- The kinds owed a BUSY answer, in order. -/
  owed : List Byte
  /-- The pending set, notice n at bit n (R218). -/
  pending : BitVec 16
  /-- The enable set (R218). -/
  enable : BitVec 16
  /-- The master enable (R218). -/
  master : Bool
  /-- ATTN is asserted, driven low (R219). -/
  attn : Bool
  receiver : Phase
  deriving DecidableEq, Repr

/-- The kind of a start (R223). -/
inductive StartKind where
  | cold | warm
  deriving DecidableEq, Repr

/-- The state RSV owns, with the supply and reset inputs. -/
structure Retention where
  /-- The retention mark is present. -/
  mark : Bool
  /-- The backup failure latch is set. -/
  latch : Bool
  startKind : StartKind
  /-- Main power is present. -/
  mainPower : Bool
  /-- The RESET input is asserted. -/
  resetAsserted : Bool
  /-- The backup supply as last seen lies within its retention range. -/
  backup : Bool
  deriving DecidableEq, Repr

/-! ## The part -/

/-- The state of the part, with the queue of the commands that wait. -/
structure State where
  stk : Stock
  pln : PlanStore
  sdp : Dispatcher
  bld : BladeTable
  pmn : Monitor
  wau : Admission
  jcu : JobUnit
  olc : Office
  rsv : Retention
  /-- The commands waiting, first in, first out. -/
  pending : List Instr
  deriving DecidableEq, Repr

/-- A segment closed with nothing in its meters (R111). -/
def Meters.reset : Meters := ⟨false, 0, 0, 0, 0⟩

/-- A saw record after a cold start; the interlock follows the input (R111, R131). -/
def SawRec.reset (interlock : Bool) : SawRec where
  link := .down
  state := .offline
  demand := 5
  rate := 0
  maxFeed := 100
  blade := none
  queue := []
  pendingLoad := none
  outstanding := []
  nextTag := 0
  context := none
  meters := .reset
  heartbeat := 0
  interlock := interlock
  passTime := 0
  holdTimer := none

/-- A channel record after a cold start (R165). -/
def Channel.reset : Channel where
  range := 0
  filter := 0
  low := 0
  high := 9999
  offset := 0
  gain := 10000
  result := .none
  lowPoint := none
  highPoint := none
  raw := none
  history := []
  value := none
  lastGood := none
  state := .off
  grace := .stopped

/-- The plant settings after a cold start (R167). -/
def Settings.reset : Settings := ⟨0, 150, 300, 450, 80, 900, 0, 30⟩

/-- A reading LOST with no value (R186). -/
def Reading.lost : Reading := ⟨.lost, none⟩

/-- The admission state after either start, with the settings given (R186). -/
def Admission.reset (settings : Settings) : Admission where
  settings := settings
  level := .undecided
  used0 := .lost
  used1 := .lost
  used2 := .lost
  lf := 0
  tf := 0
  sf := 0
  capacity := 0
  allotment := .all none
  order := []
  line := []
  permit := .all false

/-- The audit record while IDLE (R31). -/
def Audit.reset : Audit := ⟨.idle, [], 0, 0⟩

/-- The office link after either start (R225). -/
def Office.reset : Office := ⟨.ready, none, [], 0#16, 0#16, false, false, .hunt⟩

/-- The part right after reset: a cold start (R25, R43, R66, R111, R131, R145, R165, R186, R208, R225) with main power
present and RESET released (log 4), every input that the spec gives no value for inactive (DESIGN CHOICE, logs 1, 2, 3), and
no command waiting. -/
def State.reset : State where
  stk := ⟨[], [], [], .reset, Config.firstRemnant⟩
  pln := ⟨[]⟩
  sdp := ⟨.all (.reset false), .all [], .all .hunt⟩
  bld := ⟨[]⟩
  pmn := ⟨.all .reset, false⟩
  wau := .reset .reset
  jcu := ⟨[]⟩
  olc := .reset
  rsv := ⟨true, false, .cold, true, false, false⟩
  pending := []

end Sys2Proof.Machine
end

