-- ==== Sys2Proof/Machine/Operands.lean ====
section
/-! DEFINITION. The arithmetic of the manual (R1), tables of records by number, the codes of enumerated fields (R212), and the
bytes of a frame (R209 to R211). -/

namespace Sys2Proof.Machine

/-! ## Arithmetic -/

/-- Clamped to a range: the nearest end when it lies outside (R1). -/
def clamp (lo hi n : Nat) : Nat := if n < lo then lo else if hi < n then hi else n

/-- An integer clamped to a range (R1). -/
def clampInt (lo hi i : Int) : Int := if i < lo then lo else if hi < i then hi else i

/-- A number lies in a range, both ends included. -/
def within (lo hi n : Nat) : Bool := decide (lo ≤ n) && decide (n ≤ hi)

/-- An integer lies in a range, both ends included. -/
def withinInt (lo hi i : Int) : Bool := decide (lo ≤ i) && decide (i ≤ hi)

/-- A sum that saturates at a limit (R1). -/
def satAdd (limit a b : Nat) : Nat := min limit (a + b)

/-- The quotient a / b rounded to the nearest whole number, a half going to the larger (R1); b is above 0. -/
def roundDiv (a b : Int) : Int := (2 * a + b) / (2 * b)

/-! ## Tables of records by number -/

/-- The record with a number. -/
def findBy {α : Type} (key : α → Nat) (n : Nat) (xs : List α) : Option α := xs.find? fun x => key x == n

/-- The table with a record added, in ascending order of the numbers. -/
def insertBy {α : Type} (key : α → Nat) (r : α) : List α → List α
  | [] => [r]
  | x :: xs => if key r < key x then r :: x :: xs else x :: insertBy key r xs

/-- The table with the record of a number changed. -/
def updateBy {α : Type} (key : α → Nat) (n : Nat) (f : α → α) (xs : List α) : List α :=
  xs.map fun x => if key x = n then f x else x

/-- The table without the record of a number. -/
def removeBy {α : Type} (key : α → Nat) (n : Nat) (xs : List α) : List α := xs.filter fun x => key x != n

/-- A record put into a list ranked by a first and a second key, ascending (R16). -/
def rankInsert {α : Type} (k1 k2 : α → Nat) (r : α) : List α → List α
  | [] => [r]
  | x :: xs => if k1 r < k1 x ∨ (k1 r = k1 x ∧ k2 r ≤ k2 x) then r :: x :: xs else x :: rankInsert k1 k2 r xs

/-- A list ranked by a first and a second key, ascending (R16). -/
def rankBy {α : Type} (k1 k2 : α → Nat) (xs : List α) : List α := xs.foldr (rankInsert k1 k2) []

/-- The order of rack positions in the rack map. -/
def Place.key (p : Place) : Nat := p.rack * 256 + p.position

/-! ## Codes of enumerated fields (R212, R215, R216, R222) -/

def Status.code : Status → Nat
  | .ok => 0
  | .form => 1
  | .none => 2
  | .exists => 3
  | .full => 4
  | .state => 5
  | .frozen => 6
  | .inUse => 7
  | .occupied => 8
  | .geometry => 9
  | .lot => 10
  | .kerf => 11
  | .blade => 12
  | .missing => 13
  | .busy => 14
  | .stale => 15
  | .order => 16
  | .notReady => 17
  | .demand => 18

def boolCode (b : Bool) : Nat := if b then 1 else 0

def SlabKind.code : SlabKind → Nat
  | .full => 0
  | .remnant => 1

def SlabState.code : SlabState → Nat
  | .available => 0
  | .reserved => 1
  | .onSaw => 2
  | .consumed => 3
  | .scrapped => 4

def AuditState.code : AuditState → Nat
  | .idle => 0
  | .running => 1

def PassKind.code : PassKind → Nat
  | .rip => 0
  | .cross => 1

def PassState.code : PassState → Nat
  | .pending => 0
  | .staged => 1
  | .active => 2
  | .done => 3

def PlanState.code : PlanState → Nat
  | .draft => 0
  | .checked => 1
  | .released => 2
  | .cutting => 3
  | .done => 4
  | .cancelled => 5
  | .abandoned => 6

def LinkState.code : LinkState → Nat
  | .down => 0
  | .up => 1

def SawState.code : SawState → Nat
  | .offline => 0
  | .idle => 1
  | .loading => 2
  | .primed => 3
  | .waiting => 4
  | .cutting => 5
  | .holding => 6
  | .held => 7
  | .faulted => 8

def ContextKind.code : ContextKind → Nat
  | .hold => 1
  | .fault => 2
  | .link => 3
  | .power => 4

def Cause.code : Cause → Nat
  | .overload => 1
  | .stall => 2
  | .operatorStop => 3
  | .safety => 4
  | .holdTimeout => 5
  | .linkLost => 6
  | .powerLoss => 7

/-- The cause a FAULT message gives, as a context records it. -/
def causeOf : SawCause → Cause
  | .overload => .overload
  | .stall => .stall
  | .operatorStop => .operatorStop
  | .safety => .safety

def BladeState.code : BladeState → Nat
  | .spare => 0
  | .fitted => 1
  | .retired => 2

def Health.code : Health → Nat
  | .good => 0
  | .advisory => 1
  | .exhausted => 2

def ChannelState.code : ChannelState → Nat
  | .off => 0
  | .good => 1
  | .rangeLow => 2
  | .rangeHigh => 3
  | .fieldOff => 4
  | .calibrating => 5

def CalResult.code : CalResult → Nat
  | .none => 0
  | .done => 1
  | .bad => 2

def Grace.code : Grace → Nat
  | .stopped => 0
  | .running _ => 1
  | .expired => 2

/-- The remaining time of a grace timer, 0 when it does not run (R157). -/
def Grace.remaining : Grace → Nat
  | .running ds => ds
  | .stopped => 0
  | .expired => 0

def Form.code : Form → Nat
  | .live => 0
  | .held => 1
  | .absent => 2
  | .lost => 3

def LevelState.code : LevelState → Nat
  | .undecided => 0
  | .normal => 1
  | .low => 2

def EntryKind.code : EntryKind → Nat
  | .started => 0
  | .held => 1

def JobState.code : JobState → Nat
  | .opened => 0
  | .active => 1
  | .closed => 2

def StartKind.code : StartKind → Nat
  | .cold => 0
  | .warm => 1

/-! ## Fields and frames -/

/-- A one-byte flag (R212). -/
def flag (b : Bool) : Field := .u8 (boolCode b)

/-- A counted list of fields (R211). -/
def counted {α : Type} (item : α → List Field) (xs : List α) : List Field := .u8 xs.length :: xs.flatMap item

/-- An optional signed number with its present indication (R211). -/
def optional : Option Int → List Field
  | some i => [flag true, .s16 i]
  | none => [flag false, .s16 0]

/-- A flaw's four fields (R215). -/
def flawFields (f : Flaw) : List Field := [.u16 f.x0, .u16 f.x1, .u16 f.y0, .u16 f.y1]

/-- The bytes of a field (R211). -/
def Field.bytes : Field → List Byte
  | .u8 n => bytesU8 n
  | .u16 n => bytesU16 n
  | .u32 n => bytesU32 n
  | .s16 i => bytesS16 i

/-- The body of a frame the part sends: kind, status where it is an answer, fields (R211, R212). -/
def Frame.body (f : Frame) : List Byte :=
  f.kind :: ((match f.status with
    | some st => bytesU8 st.code
    | none => []) ++ f.fields.flatMap Field.bytes)

/-- The bytes of a frame on the line (R209). -/
def Frame.line (f : Frame) : List Byte := frameBytes f.body

end Sys2Proof.Machine
end

