-- ==== Sys2Proof/Machine/Flags.lean ====
section
/-! DEFINITION. The derived indications: notices and ATTN (R218, R219), blade health (R133), the over-quote flag (R205),
the total of a job (R187), the reading a channel offers (R154). -/

namespace Sys2Proof.Machine

/-- The number of a notice in the frame (R218). -/
def Notice.number : Notice → Nat
  | .sawFault => 0
  | .sawHeld => 1
  | .sawLink => 2
  | .planDone => 3
  | .remnantMade => 4
  | .stockFull => 5
  | .auditEnded => 6
  | .bladeAdvisory => 7
  | .bladeExhausted => 8
  | .channelFault => 9
  | .waterStop => 10
  | .overQuote => 11

/-- The bit of a notice in a set (R218). -/
def Notice.bit (n : Notice) : BitVec 16 := BitVec.twoPow 16 n.number

/-- ATTN's condition: the master enable is on and some notice is both pending and enabled (R219). -/
def Office.calls (o : Office) : Bool := o.master && (o.pending &&& o.enable != 0#16)

/-- The health of a blade (R133). -/
def Blade.health (b : Blade) : Health :=
  if b.life * 1000 ≤ b.wear ∨ Config.overloadLimit ≤ b.overloads then .exhausted
  else if b.life * 900 ≤ b.wear then .advisory
  else .good

/-- The total of a job: the sum of its four components (R187). -/
def Job.total (j : Job) : Nat := j.stone + j.sawTime + j.water + j.blade

/-- The job's total passes its quote, where it has one (R205). -/
def Job.passesQuote (j : Job) : Bool := decide (0 < j.quote) && decide (j.quote < j.total)

/-- The sum A of the allotments (R174). -/
def Admission.granted (a : Admission) : Nat :=
  a.allotment.one.getD 0 + a.allotment.two.getD 0 + a.allotment.three.getD 0 + a.allotment.four.getD 0

/-- The reading a channel offers its consumer (R154). The last line but one stands for a combination that no run reaches: a
channel neither GOOD nor OFF with its grace timer STOPPED and a last good value (DESIGN CHOICE, log 18). -/
def Channel.offers (c : Channel) : Reading :=
  match c.state, c.grace, c.lastGood with
  | .off, _, _ => .lost
  | .good, _, _ => ⟨.live, c.value⟩
  | _, .expired, _ => .lost
  | _, .running _, some v => ⟨.held, some v⟩
  | _, .stopped, some _ => .lost
  | _, _, none => ⟨.absent, none⟩

/-- The number of pieces of a plan (R45). -/
def pieceCount (ss : List Strip) : Nat := (ss.map fun s => s.pieces.length).sum

/-- Strips finished: the number of finished indications set (R44). -/
def Plan.stripsFinished (p : Plan) : Nat := (p.finished.filter id).length

/-- The pass records of a plan; none without a derived part (R60). -/
def Plan.passes (p : Plan) : List Pass :=
  match p.derived with
  | some d => d.passes
  | none => []

/-- The ACTIVE pass of a plan (R48: at most one). -/
def Plan.activePass? (p : Plan) : Option Pass := p.passes.find? fun q => q.state == .active

/-- The lowest-numbered PENDING pass of a plan (R100). -/
def Plan.pendingPass? (p : Plan) : Option Pass := p.passes.find? fun q => q.state == .pending

end Sys2Proof.Machine
end

