-- ==== Sys2Proof/Machine/Ops.lean ====
section
/-! DEFINITION. The named operations over the state: records by number, notices, frames to the links, and what is common to
every host request (R212, R213) and to every saw message (R89). -/

namespace Sys2Proof.Machine

/-- The outcome of a command. -/
abbrev Out := Host.Outcome State Fault Refusal

/-! ## The supplies -/

/-- The part runs: main power is present and RESET is released (R224; what comes otherwise, log 10). -/
def State.running (s : State) : Bool := s.rsv.mainPower && !s.rsv.resetAsserted

/-! ## Notices -/

/-- ATTN follows the notice state at once (R219); it is released while the part does not run (R224). -/
def State.settleAttn (s : State) : State := { s with olc := { s.olc with attn := s.running && s.olc.calls } }

/-- A block raises a notice: it is set in the pending set whatever the enables hold, and ATTN is settled (R218, R219). -/
def State.raise (s : State) (n : Notice) : State :=
  State.settleAttn { s with olc := { s.olc with pending := s.olc.pending ||| n.bit } }

/-- A notice raised where a condition holds. -/
def State.raiseIf (s : State) (c : Bool) (n : Notice) : State := if c then s.raise n else s

/-! ## Records by number -/

def State.slab? (s : State) (n : Nat) : Option Slab := findBy Slab.number n s.stk.slabs
def State.plan? (s : State) (n : Nat) : Option Plan := findBy Plan.number n s.pln.plans
def State.job? (s : State) (n : Nat) : Option Job := findBy Job.number n s.jcu.jobs
def State.blade? (s : State) (n : Nat) : Option Blade := findBy Blade.number n s.bld.blades
def State.material? (s : State) (c : Nat) : Option Material := findBy Material.code c s.stk.materials

def State.withSlabs (s : State) (f : List Slab → List Slab) : State :=
  { s with stk := { s.stk with slabs := f s.stk.slabs } }
def State.withPlans (s : State) (f : List Plan → List Plan) : State := { s with pln := ⟨f s.pln.plans⟩ }
def State.withJobs (s : State) (f : List Job → List Job) : State := { s with jcu := ⟨f s.jcu.jobs⟩ }
def State.withBlades (s : State) (f : List Blade → List Blade) : State := { s with bld := ⟨f s.bld.blades⟩ }
def State.withMaterials (s : State) (f : List Material → List Material) : State :=
  { s with stk := { s.stk with materials := f s.stk.materials } }

def State.updateSlab (s : State) (n : Nat) (f : Slab → Slab) : State := s.withSlabs (updateBy Slab.number n f)
def State.updatePlan (s : State) (n : Nat) (f : Plan → Plan) : State := s.withPlans (updateBy Plan.number n f)
def State.updateJob (s : State) (n : Nat) (f : Job → Job) : State := s.withJobs (updateBy Job.number n f)
def State.updateBlade (s : State) (n : Nat) (f : Blade → Blade) : State := s.withBlades (updateBy Blade.number n f)

/-- The hardness of a material; 0 for an undefined entry (R2). -/
def State.hardness (s : State) (code : Nat) : Nat := ((s.material? code).map Material.hardness).getD 0
/-- The standard feed of a material; 0 for an undefined entry (R2). -/
def State.feed (s : State) (code : Nat) : Nat := ((s.material? code).map Material.feed).getD 0

/-! ## Saws -/

def State.saw (s : State) (w : Saw) : SawRec := s.sdp.saws.get w
def State.updateSaw (s : State) (w : Saw) (f : SawRec → SawRec) : State :=
  { s with sdp := { s.sdp with saws := s.sdp.saws.set w (f (s.sdp.saws.get w)) } }
def State.setSawState (s : State) (w : Saw) (x : SawState) : State := s.updateSaw w fun r => { r with state := x }

/-- The head plan of a saw's queue (R49). -/
def State.headPlan? (s : State) (w : Saw) : Option Plan :=
  match (s.saw w).queue with
  | n :: _ => s.plan? n
  | [] => none

/-- The ACTIVE pass of a saw's head plan, with the plan. -/
def State.activePass? (s : State) (w : Saw) : Option (Plan × Pass) :=
  match s.headPlan? w with
  | some p => p.activePass?.map fun q => (p, q)
  | none => none

/-- The reached value of the head plan's ACTIVE pass; 0 where there is none (log 19). -/
def State.reached (s : State) (w : Saw) : Nat :=
  match s.activePass? w with
  | some (_, q) => q.reached
  | none => 0

/-- The tag the ACTIVE pass holds, where it holds one (R113). -/
def State.activeTag? (s : State) (w : Saw) : Option Nat :=
  match s.activePass? w with
  | some (_, q) => ((s.saw w).outstanding.find? fun o => o.index == q.index).map Outstanding.tag
  | none => none

/-- A frame joins the frames queued for sending on a saw link, in the order the rules produce them (R89). -/
def State.send (s : State) (w : Saw) (f : Frame) : State :=
  { s with sdp := { s.sdp with queued := s.sdp.queued.set w (s.sdp.queued.get w ++ [f]) } }

/-! ## Channels -/

def State.channel (s : State) (c : Chan) : Channel := s.pmn.channels.get c
def State.setChannelRec (s : State) (c : Chan) (r : Channel) : State :=
  { s with pmn := { s.pmn with channels := s.pmn.channels.set c r } }

/-- The flow channel of a saw (R146). -/
def flowChannel : Saw → Chan
  | .saw1 => .c3
  | .saw2 => .c4
  | .saw3 => .c5
  | .saw4 => .c6

/-! ## Host requests -/

/-- What a block answers a request with: the status code, and the fields of the reply. -/
structure Answer where
  status : Status
  fields : List Field
  deriving DecidableEq, Repr

/-- A request performed, with the fields its reply carries. -/
def performed (fields : List Field) (s : State) : Answer × State := (⟨.ok, fields⟩, s)

/-- A request refused: the state is as it was (R1). -/
def refused (st : Status) (s : State) : Answer × State := (⟨st, []⟩, s)

/-- The receiver of a link in the phase given (R209). -/
def State.setReceiver (s : State) (l : Link) (p : Phase) : State :=
  match l with
  | .office => { s with olc := { s.olc with receiver := p } }
  | .saw w => { s with sdp := { s.sdp with receiver := s.sdp.receiver.set w p } }

/-- The reply of a request is built and its sending begins; the slot is SERVING until its last byte is sent (R213). -/
def State.sendReply (s : State) (kind : Byte) (a : Answer) : State :=
  { s with olc := { s.olc with slot := .serving, reply := some ⟨Kind.answer kind, some a.status, a.fields⟩ } }

/-- A good request frame taken while the slot is SERVING: its kind is appended to the owed list, and a BUSY answer is owed;
with 4 owed already, the frame is dropped (R213). -/
def State.oweBusy (s : State) (kind : Byte) : State :=
  if s.olc.owed.length < Config.maxOwed then { s with olc := { s.olc with owed := s.olc.owed ++ [kind] } } else s

/-- The BUSY answer owed for a request kind (R213). -/
def busyFrame (kind : Byte) : Frame := ⟨Kind.answer kind, some .busy, []⟩

/-- A good request frame is handled by the slot's state (R213): READY, the owner performs the request whole or refuses it, the
slot becomes SERVING and the reply is built; SERVING, a BUSY answer is owed. A part that does not run takes no frame
(R224). -/
def hostRequest (kind : Byte) (perform : State → Answer × State) (s : State) : Out :=
  if s.running then
    match s.olc.slot with
    | .serving => .next (s.oweBusy kind)
    | .ready =>
      let r := perform s
      .next (r.2.sendReply kind r.1)
  else .next s

/-! ## Saw messages -/

/-- The answer to a saw's message (R89). -/
def answerFrame (kind : Byte) (st : Status) : Frame := ⟨Kind.answer kind, some st, []⟩

/-- A good frame from a saw resets its heartbeat age, whatever it holds (R89). -/
def State.sawFrame (s : State) (w : Saw) : State := s.updateSaw w fun r => { r with heartbeat := 0 }

/-- A good message other than HELLO: refused with STATE while the link is DOWN; else checked, and answered with the refusal
or with ACK before its handling (R89). A part that does not run takes no frame (R224). -/
def sawMessage (w : Saw) (kind : Byte) (check : State → Option Status) (handle : State → State) (s : State) : Out :=
  if s.running then
    let s := s.sawFrame w
    match (s.saw w).link with
    | .down => .next (s.send w (answerFrame kind .state))
    | .up =>
      match check s with
      | some st => .next (s.send w (answerFrame kind st))
      | none => .next (handle (s.send w (answerFrame kind .ok)))
  else .next s

/-- An event inside the part, which happens only while the part runs (R224). -/
def event (handle : State → State) (s : State) : Out :=
  if s.running then .next (handle s) else .next s

end Sys2Proof.Machine
end

