-- ==== Sys2Proof/Machine/Blades.lean ====
section
/-! DEFINITION. BLD: wear, blade charge, overloads and health, and the blade requests (spec/07_blades.md). -/

namespace Sys2Proof.Machine

/-! ## Health, wear and charge -/

/-- The health test: the notices the record has not yet had are raised, each once in its life (R133). -/
def State.testHealth (s : State) (n : Nat) : State :=
  match s.blade? n with
  | none => s
  | some b =>
    let advisory := decide (b.life * 900 ≤ b.wear) && !b.advisoryNoticed
    let exhausted := b.health == .exhausted && !b.exhaustedNoticed
    let s := s.updateBlade n fun b =>
      { b with advisoryNoticed := b.advisoryNoticed || advisory, exhaustedNoticed := b.exhaustedNoticed || exhausted }
    (s.raiseIf advisory .bladeAdvisory).raiseIf exhausted .bladeExhausted

/-- The wear increase of a progress p on material of hardness h: the whole part of (p × h + wear remainder) / 100
(R140). -/
def Blade.wearIncrease (p h : Nat) (b : Blade) : Nat := (p * h + b.wearRemainder) / 100

/-- Price × wear increase plus the cost remainder (R141). -/
def Blade.costSum (p h : Nat) (b : Blade) : Nat := b.price * b.wearIncrease p h + b.costRemainder

/-- The blade charge of a segment in cents (R141). -/
def Blade.chargeFor (p h : Nat) (b : Blade) : Nat := b.costSum p h / (b.life * 1000)

/-- Wear and both remainders after an accrual (R140, R141). -/
def Blade.accrue (p h : Nat) (b : Blade) : Blade :=
  { b with wear := satAdd Config.maxWear b.wear (b.wearIncrease p h)
           wearRemainder := (p * h + b.wearRemainder) % 100
           costRemainder := b.costSum p h % (b.life * 1000) }

/-- Wear accrues on a blade and its health is tested; the charge is handed back (R140, R141). -/
def State.accrueWear (s : State) (n p h : Nat) : Nat × State :=
  match s.blade? n with
  | none => (0, s)
  | some b => (b.chargeFor p h, (s.updateBlade n (Blade.accrue p h)).testHealth n)

/-- An OVERLOAD taken in the stone adds 1 to the fitted blade's overload count, saturating; health is then tested (R143). -/
def State.countOverload (s : State) (n : Nat) : State :=
  (s.updateBlade n fun b => { b with overloads := satAdd Config.maxFaults b.overloads 1 }).testHealth n

/-! ## Requests (R134 to R139) -/

def addBlade (number kerf price life : Nat) (s : State) : Answer × State :=
  if number = 0 ∨ !within 2 6 kerf ∨ 5000000 < price ∨ !within 500 20000 life then refused .form s
  else if (s.blade? number).isSome then refused .exists s
  else if Config.maxBlades ≤ s.bld.blades.length then refused .full s
  else performed [] (s.withBlades (insertBy Blade.number
    { number := number, kerf := kerf, price := price, life := life, wear := 0, wearRemainder := 0, costRemainder := 0,
      overloads := 0, state := .spare, saw := none, advisoryNoticed := false, exhaustedNoticed := false }))

/-- ADD BLADE (R134). -/
def execAddBlade (number kerf price life : Nat) (s : State) : Out :=
  hostRequest Kind.addBlade (addBlade number kerf price life) s

def amendBlade (number price life : Nat) (s : State) : Answer × State :=
  match s.blade? number with
  | none => refused .none s
  | some b =>
    if b.state ≠ .spare then refused .state s
    else if 5000000 < price ∨ !within 500 20000 life then refused .form s
    else performed [] ((s.updateBlade number fun b => { b with price := price, life := life, costRemainder := 0 }).testHealth
      number)

/-- AMEND BLADE (R135). -/
def execAmendBlade (number price life : Nat) (s : State) : Out :=
  hostRequest Kind.amendBlade (amendBlade number price life) s

/-- The saw may have its blade changed: it is OFFLINE, IDLE or FAULTED (R136, R137). -/
def SawState.stopped : SawState → Bool
  | .offline => true
  | .idle => true
  | .faulted => true
  | .loading => false
  | .primed => false
  | .waiting => false
  | .cutting => false
  | .holding => false
  | .held => false

/-- The blade becomes SPARE and its saw field is cleared (R136, R137). -/
def State.spareBlade (s : State) (n : Nat) : State := s.updateBlade n fun b => { b with state := .spare, saw := none }

/-- A plan in the saw's queue has a kerf smaller than the blade's (R136). -/
def State.queueTooNarrow (s : State) (w : Saw) (kerf : Nat) : Bool :=
  (s.saw w).queue.any fun n => (s.plan? n).elim false fun p => decide (p.kerf < kerf)

def fitBlade (number saw : Nat) (s : State) : Answer × State :=
  match Saw.ofNat? saw with
  | none => refused .form s
  | some w =>
    if number = 0 then refused .form s
    else match s.blade? number with
    | none => refused .none s
    | some b =>
      if !(s.saw w).state.stopped then refused .state s
      else if b.state ≠ .spare then refused .state s
      else if s.queueTooNarrow w b.kerf then refused .kerf s
      else
        let s := (s.saw w).blade.elim s s.spareBlade
        let s := s.updateBlade number fun b => { b with state := .fitted, saw := some w }
        performed [] (s.updateSaw w fun r => { r with blade := some number })

/-- FIT BLADE (R136). -/
def execFitBlade (number saw : Nat) (s : State) : Out := hostRequest Kind.fitBlade (fitBlade number saw) s

def removeBlade (saw : Nat) (s : State) : Answer × State :=
  match Saw.ofNat? saw with
  | none => refused .form s
  | some w =>
    if !(s.saw w).state.stopped then refused .state s
    else match (s.saw w).blade with
    | none => refused .none s
    | some n => performed [.u16 n] ((s.spareBlade n).updateSaw w fun r => { r with blade := none })

/-- REMOVE BLADE (R137). -/
def execRemoveBlade (saw : Nat) (s : State) : Out := hostRequest Kind.removeBlade (removeBlade saw) s

def retireBlade (number : Nat) (s : State) : Answer × State :=
  match s.blade? number with
  | none => refused .none s
  | some b =>
    match b.state with
    | .fitted => refused .state s
    | .spare => performed [] (s.updateBlade number fun b => { b with state := .retired })
    | .retired => performed [] (s.withBlades (removeBy Blade.number number))

/-- RETIRE BLADE (R138). -/
def execRetireBlade (number : Nat) (s : State) : Out := hostRequest Kind.retireBlade (retireBlade number) s

/-- The blade record as READ BLADE sends it, with its health (R132, R139). -/
def Blade.fields (b : Blade) : List Field :=
  [.u16 b.number, .u8 b.kerf, .u32 b.price, .u16 b.life, .u32 b.wear, .u8 b.wearRemainder, .u32 b.costRemainder,
    .u8 b.overloads, .u8 b.state.code, .u8 (b.saw.elim 0 Saw.toNat), flag b.advisoryNoticed, flag b.exhaustedNoticed,
    .u8 b.health.code]

def readBlade (number : Nat) (s : State) : Answer × State :=
  match s.blade? number with
  | none => refused .none s
  | some b => performed b.fields s

/-- READ BLADE (R139). -/
def execReadBlade (number : Nat) (s : State) : Out := hostRequest Kind.readBlade (readBlade number) s

end Sys2Proof.Machine
end

