-- ==== Sys2Proof/Machine/Channels.lean ====
section
/-! DEFINITION. PMN: channel configuration, sampling, grace, the field supply and calibration (spec/08_plant_sensing.md). -/

namespace Sys2Proof.Machine

/-! ## Sampling (R148, R150 to R152) -/

/-- The window of corrected readings of a range code (R148). Code 0 has none and is not sampled. -/
def window : Nat → Int × Int
  | 1 => (-400, 10400)
  | 2 => (0, 10400)
  | 3 => (0, 10200)
  | 4 => (-200, 10200)
  | _ => (0, 0)

/-- The corrected reading of a raw reading (R150). -/
def Channel.corrected (raw : Int) (c : Channel) : Int := roundDiv ((raw - c.offset) * c.gain) 10000

/-- The state a corrected reading gives (R150). -/
def judge (range : Nat) (r : Int) : ChannelState :=
  if r < (window range).1 then .rangeLow else if (window range).2 < r then .rangeHigh else .good

/-- A reading joins the history at its newest end; beyond 16 the oldest is removed (R151). -/
def pushHistory (h : List Int) (r : Int) : List Int := (h ++ [r]).drop (h.length + 1 - Config.maxHistory)

/-- How many samples a filter code averages (R151). -/
def filterCount : Nat → Nat
  | 0 => 1
  | 1 => 4
  | _ => 16

/-- The mean of the newest readings of the history, rounded (R151). -/
def filtered (filter : Nat) (h : List Int) : Int :=
  let newest := h.drop (h.length - filterCount filter)
  roundDiv newest.sum newest.length

/-- The engineering value of a filtered reading (R152). -/
def Channel.scale (c : Channel) (f : Int) : Int := c.low + roundDiv ((c.high - c.low) * f) 10000

/-- One sample of a channel: corrected, judged, averaged and scaled; a GOOD sample stops the grace timer (R150 to R153). -/
def Channel.sample (raw : Int) (c : Channel) : Channel :=
  let r := c.corrected raw
  let state := judge c.range r
  let kept := if state = .good ∧ c.state ≠ .good then [] else c.history
  let history := pushHistory kept (clampInt (window c.range).1 (window c.range).2 r)
  let e := c.scale (filtered c.filter history)
  { c with raw := some raw, history := history, value := some e, state := state,
           lastGood := if state = .good then some e else c.lastGood,
           grace := if state = .good then .stopped else c.grace }

/-! ## Grace (R153) -/

/-- The channel stands in a state that grace covers: neither GOOD nor OFF. -/
def Channel.failed (c : Channel) : Bool := c.state != .good && c.state != .off

/-- A channel record takes its place; the grace timer starts when the channel stands neither GOOD nor OFF with its timer
STOPPED, and CHANNEL_FAULT is raised (R153). -/
def State.putChannel (s : State) (c : Chan) (r : Channel) : State :=
  if r.failed ∧ r.grace = .stopped then
    (s.setChannelRec c { r with grace := .running (s.wau.settings.grace * 10) }).raise .channelFault
  else s.setChannelRec c r

/-- The same change made to each channel of a list, in order. -/
def State.eachChannel (s : State) (cs : List Chan) (f : Chan → Channel → Channel) : State :=
  cs.foldl (fun s c => s.putChannel c (f c (s.channel c))) s

/-- The 100 ms sample: a channel of code 0 or without field supply takes none, a CALIBRATING channel takes the raw reading
only (R150, R155, R158). -/
def channelSample (c : Chan) (raw : Int) (s : State) : State :=
  let r := s.channel c
  if r.range = 0 ∨ !s.pmn.fieldSupply then s
  else if r.state = .calibrating then s.setChannelRec c { r with raw := some raw }
  else s.putChannel c (r.sample raw)

/-- CHANNEL_SAMPLE (R150 to R153). -/
def execChannelSample (c : Chan) (raw : Int) (s : State) : Out := event (channelSample c raw) s

/-- A running grace timer reaches 0: EXPIRED, and CHANNEL_FAULT again (R153). -/
def graceExpiry (c : Chan) (s : State) : State :=
  match (s.channel c).grace with
  | .running _ => (s.setChannelRec c { s.channel c with grace := .expired }).raise .channelFault
  | .stopped => s
  | .expired => s

/-- GRACE_EXPIRY (R153). -/
def execGraceExpiry (c : Chan) (s : State) : Out := event (graceExpiry c) s

/-! ## Configuring (R149) -/

/-- The record as SET CHANNEL leaves it before the new condition is taken. -/
def Channel.configure (range filter : Nat) (low high : Int) (c : Channel) : Channel :=
  { c with range := range, filter := filter, low := low, high := high, history := [], value := none, lastGood := none,
           raw := none, lowPoint := none, highPoint := none, grace := .stopped, state := .off }

/-- The new condition of a configured channel: OFF, FIELD_OFF, or a sample taken at once (R149, R166). -/
def Channel.condition (fieldSupply : Bool) (raw : Int) (c : Channel) : Channel :=
  if c.range = 0 then { c with state := .off }
  else if fieldSupply then c.sample raw
  else { c with state := .fieldOff }

def setChannel (channel range filter : Nat) (low high raw : Int) (s : State) : Answer × State :=
  match Chan.ofNat? channel with
  | none => refused .form s
  | some c =>
    if 4 < range ∨ !withinInt (-9999) 9999 low ∨ !withinInt (-9999) 9999 high ∨ high ≤ low then refused .form s
    else if (s.channel c).state = .calibrating then refused .state s
    else
      let filter := clamp 0 2 filter
      performed [.u8 range, .u8 filter, .s16 low, .s16 high]
        (s.putChannel c (((s.channel c).configure range filter low high).condition s.pmn.fieldSupply raw))

/-- SET CHANNEL (R149). -/
def execSetChannel (channel range filter : Nat) (low high raw : Int) (s : State) : Out :=
  hostRequest Kind.setChannel (setChannel channel range filter low high raw) s

/-- The channel record as READ CHANNEL sends it (R147, R157). -/
def Channel.fields (c : Channel) : List Field :=
  [.u8 c.range, .u8 c.filter, .s16 c.low, .s16 c.high, .s16 c.offset, .u16 c.gain.toNat, .u8 c.result.code]
    ++ optional c.lowPoint ++ optional c.highPoint ++ optional c.raw ++ counted (fun v => [.s16 v]) c.history
    ++ optional c.value ++ optional c.lastGood ++ [.u8 c.state.code, .u8 c.grace.code, .u16 c.grace.remaining]

/-- The form of a reading and its value, 0 when there is none (R157, R185). -/
def Reading.fields (r : Reading) : List Field := [.u8 r.form.code, .s16 (r.value.getD 0)]

def readChannel (channel : Nat) (s : State) : Answer × State :=
  match Chan.ofNat? channel with
  | none => refused .form s
  | some c => performed ((s.channel c).fields ++ (s.channel c).offers.fields ++ [flag s.pmn.fieldSupply]) s

/-- READ CHANNEL (R157). -/
def execReadChannel (channel : Nat) (s : State) : Out := hostRequest Kind.readChannel (readChannel channel) s

/-! ## The field supply (R155, R156) -/

/-- A calibration ended without a re-sample: result NONE, points cleared, coefficients kept (R155, R162). -/
def Channel.dropCalibration (c : Channel) : Channel :=
  if c.state = .calibrating then { c with result := .none, lowPoint := none, highPoint := none } else c

/-- A configured channel at the loss of the field supply (R155). -/
def Channel.fieldOff (c : Channel) : Channel :=
  if c.range = 0 then c
  else { c.dropCalibration with history := [], value := none, raw := none, state := .fieldOff }

/-- The field-supply sense input drops; an indication already absent stays as it is (R155, log 9). -/
def fieldSupplyLoss (s : State) : State :=
  if s.pmn.fieldSupply then
    State.eachChannel { s with pmn := { s.pmn with fieldSupply := false } } Chan.all fun _ c => c.fieldOff
  else s

/-- FIELD_SUPPLY_LOSS (R155). -/
def execFieldSupplyLoss (s : State) : Out := event fieldSupplyLoss s

/-- The field-supply sense input returns, and every configured channel is sampled at once (R156). -/
def fieldSupplyReturn (raw : Seven Int) (s : State) : State :=
  if s.pmn.fieldSupply then s
  else
    State.eachChannel { s with pmn := { s.pmn with fieldSupply := true } } Chan.all fun c r =>
      if r.range = 0 then r else r.sample (raw.get c)

/-- FIELD_SUPPLY_RETURN (R156). -/
def execFieldSupplyReturn (raw : Seven Int) (s : State) : Out := event (fieldSupplyReturn raw) s

/-! ## Calibration (R158 to R162) -/

/-- A channel set is refused with FORM when it is empty or names a channel above 6 (R158); a count above 7 is a bad body
(R211, log 12). -/
def setForm (set : List Nat) : Bool := !set.isEmpty && decide (set.length ≤ 7) && set.all fun n => decide (n ≤ 6)

/-- The channels a set names, in channel order. -/
def channelsOf (set : List Nat) : List Chan := Chan.all.filter fun c => set.contains c.toNat

/-- CAL BEGIN is open to the channel: it is neither OFF, FIELD_OFF nor CALIBRATING (R158). -/
def ChannelState.calibratable : ChannelState → Bool
  | .good => true
  | .rangeLow => true
  | .rangeHigh => true
  | .off => false
  | .fieldOff => false
  | .calibrating => false

def Channel.beginCalibration (c : Channel) : Channel :=
  { c with state := .calibrating, lowPoint := none, highPoint := none }

def calBegin (set : List Nat) (s : State) : Answer × State :=
  if !setForm set then refused .form s
  else if !(channelsOf set).all fun c => (s.channel c).state.calibratable then refused .state s
  else performed [] (s.eachChannel (channelsOf set) fun _ c => c.beginCalibration)

/-- CAL BEGIN (R158). -/
def execCalBegin (set : List Nat) (s : State) : Out := hostRequest Kind.calBegin (calBegin set) s

/-- Every channel of the set is CALIBRATING. -/
def State.allCalibrating (s : State) (set : List Nat) : Bool :=
  (channelsOf set).all fun c => (s.channel c).state == .calibrating

/-- The raw reading is captured as the low point (0) or the high point (1) (R159). -/
def Channel.capture (point : Nat) (c : Channel) : Channel :=
  if point = 0 then { c with lowPoint := c.raw } else { c with highPoint := c.raw }

def calPoint (set : List Nat) (point : Nat) (s : State) : Answer × State :=
  if !setForm set ∨ 1 < point then refused .form s
  else if !s.allCalibrating set then refused .state s
  else performed (counted (fun c => [.s16 ((s.channel c).raw.getD 0)]) (channelsOf set))
    (s.eachChannel (channelsOf set) fun _ c => c.capture point)

/-- CAL POINT (R159). -/
def execCalPoint (set : List Nat) (point : Nat) (s : State) : Out := hostRequest Kind.calPoint (calPoint set point) s

/-- The gain of two captured points (R160). -/
def candidateGain (low high : Int) : Int := roundDiv 100000000 (high - low)

/-- The coefficients and the result of a calibration's end (R160); mode 1 is DEFAULTS. -/
def Channel.conclude (mode : Nat) (c : Channel) : Channel :=
  if mode = 1 then { c with offset := 0, gain := 10000, result := .done }
  else match c.lowPoint, c.highPoint with
  | some low, some high =>
    if low < high ∧ withinInt 9000 11000 (candidateGain low high) ∧ withinInt (-500) 500 low then
      { c with offset := low, gain := candidateGain low high, result := .done }
    else { c with result := .bad }
  | some low, none =>
    if withinInt (-500) 500 low then { c with offset := low, result := .done } else { c with result := .bad }
  | none, _ => { c with result := .bad }

/-- A channel returns to normal sampling from its raw reading as it stands (R161). -/
def Channel.resample (c : Channel) : Channel :=
  let c := { c with lowPoint := none, highPoint := none, history := [] }
  c.raw.elim c c.sample

def calEnd (set : List Nat) (mode : Nat) (s : State) : Answer × State :=
  if !setForm set ∨ 1 < mode then refused .form s
  else if !s.allCalibrating set then refused .state s
  else
    let s := s.eachChannel (channelsOf set) fun _ c => (c.conclude mode).resample
    performed (counted (fun c => [.u8 (s.channel c).result.code, .s16 (s.channel c).offset,
      .u16 (s.channel c).gain.toNat]) (channelsOf set)) s

/-- CAL END (R160, R161). -/
def execCalEnd (set : List Nat) (mode : Nat) (s : State) : Out := hostRequest Kind.calEnd (calEnd set mode) s

def calAbort (set : List Nat) (s : State) : Answer × State :=
  if !setForm set then refused .form s
  else if !s.allCalibrating set then refused .state s
  else performed [] (s.eachChannel (channelsOf set) fun _ c => Channel.resample { c with result := .none })

/-- CAL ABORT (R162). -/
def execCalAbort (set : List Nat) (s : State) : Out := hostRequest Kind.calAbort (calAbort set) s

/-! ## Channels at a warm start (R166) -/

/-- The working state of a channel cleared, its calibration ended (R166). -/
def Channel.clearWork (c : Channel) : Channel :=
  { c.dropCalibration with lowPoint := none, highPoint := none, history := [], raw := none, value := none,
                           lastGood := none, grace := .stopped, state := .off }

/-- Every channel after a warm start, with the field supply and the readings as they stand (R166). -/
def State.warmChannels (s : State) (fieldSupply : Bool) (raw : Seven Int) : State :=
  State.eachChannel { s with pmn := { s.pmn with fieldSupply := fieldSupply } } Chan.all fun c r =>
    r.clearWork.condition fieldSupply (raw.get c)

end Sys2Proof.Machine
end

