-- ==== Sys2Proof/Machine/Jobs.lean ====
section
/-! DEFINITION. JCU: charges, flags and counts, and the job requests (spec/10_jobs_and_cost_accrual.md). -/

namespace Sys2Proof.Machine

/-! ## Charges (R198 to R205) -/

/-- A component raised by an amount, saturating (R199). -/
def addCents (component amount : Nat) : Nat := satAdd Config.maxCents component amount

/-- A charge turns an OPEN job ACTIVE (R188, R198). -/
def Job.activate (j : Job) : Job := { j with state := match j.state with | .opened => .active | x => x }

/-- A charge handled whole: the component and its remainder, the state, then the over-quote flag, with OVER_QUOTE raised
when the flag goes from clear to set (R198, R205). -/
def State.charge (s : State) (job : Nat) (apply : Job → Job) : State :=
  match s.job? job with
  | none => s
  | some j =>
    let j := (apply j).activate
    let exceeds := j.passesQuote && !j.overQuote
    (s.updateJob job fun _ => { j with overQuote := j.overQuote || exceeds }).raiseIf exceeds .overQuote

/-- The stone charge (R203). -/
def Job.chargeStone (amount : Nat) (j : Job) : Job := { j with stone := addCents j.stone amount }

/-- The blade charge (R202). -/
def Job.chargeBlade (amount : Nat) (j : Job) : Job := { j with blade := addCents j.blade amount }

/-- The saw-time charge for a segment: rate × time with the saw remainder, over 36,000 (R200). -/
def Job.chargeSawTime (rate time : Nat) (j : Job) : Job :=
  let u := rate * time + j.sawRemainder
  { j with sawTime := addCents j.sawTime (u / Config.sawDivisor), sawRemainder := u % Config.sawDivisor }

/-- The water charge for a segment: water rate × volume with the water remainder, over 10,000 (R201). -/
def Job.chargeWater (rate volume : Nat) (j : Job) : Job :=
  let v := rate * volume + j.waterRemainder
  { j with water := addCents j.water (v / Config.waterDivisor), waterRemainder := v % Config.waterDivisor }

/-! ## Piece counts (R206, R207) -/

/-- An addition to pieces planned, saturating (R206). -/
def Job.addPlanned (n : Nat) (j : Job) : Job := { j with planned := satAdd Config.maxCount j.planned n }

/-- A reduction of pieces planned; a count standing at 65,535 is not lowered (R206). -/
def Job.reducePlanned (n : Nat) (j : Job) : Job :=
  { j with planned := if Config.maxCount ≤ j.planned then j.planned else j.planned - n }

/-- An addition to pieces cut, saturating (R207). -/
def Job.addCut (n : Nat) (j : Job) : Job := { j with cut := satAdd Config.maxCount j.cut n }

/-! ## Requests (R191 to R197) -/

def openJob (number lotNumber quote : Nat) (s : State) : Answer × State :=
  if number = 0 ∨ Config.maxCents < quote then refused .form s
  else if (s.job? number).isSome then refused .exists s
  else if Config.maxJobs ≤ s.jcu.jobs.length then refused .full s
  else performed [] (s.withJobs (insertBy Job.number
    { number := number, state := .opened, lot := if lotNumber = 0 then none else some lotNumber, quote := quote, stone := 0,
      sawTime := 0, water := 0, blade := 0, sawRemainder := 0, waterRemainder := 0, planned := 0, cut := 0, plans := [],
      waterEstimated := false, overQuote := false }))

/-- OPEN JOB (R191). -/
def execOpenJob (number lotNumber quote : Nat) (s : State) : Out :=
  hostRequest Kind.openJob (openJob number lotNumber quote) s

def amendJob (number quote lotNumber : Nat) (s : State) : Answer × State :=
  match s.job? number with
  | none => refused .none s
  | some j =>
    if Config.maxCents < quote then refused .form s
    else if j.state = .closed then refused .frozen s
    else if lotNumber ≠ j.lot.getD 0 ∧ j.plans ≠ [] then refused .inUse s
    else
      let j' := { j with quote := quote, lot := if lotNumber = 0 then none else some lotNumber }
      let exceeds := j'.passesQuote
      performed [.u32 j.total, flag exceeds]
        ((s.updateJob number fun _ => { j' with overQuote := exceeds }).raiseIf (exceeds && !j.overQuote) .overQuote)

/-- AMEND JOB (R192). -/
def execAmendJob (number quote lotNumber : Nat) (s : State) : Out :=
  hostRequest Kind.amendJob (amendJob number quote lotNumber) s

/-- The job record as READ JOB sends it, with the total (R187, R193). -/
def Job.fields (j : Job) : List Field :=
  [.u16 j.number, .u8 j.state.code, .u16 (j.lot.getD 0), .u32 j.quote, .u32 j.stone, .u32 j.sawTime, .u32 j.water,
    .u32 j.blade, .u16 j.sawRemainder, .u16 j.waterRemainder, .u16 j.planned, .u16 j.cut]
    ++ counted (fun n => [.u16 n]) j.plans ++ [flag j.waterEstimated, flag j.overQuote, .u32 j.total]

def readJob (number : Nat) (s : State) : Answer × State :=
  match s.job? number with
  | none => refused .none s
  | some j => performed j.fields s

/-- READ JOB (R193). -/
def execReadJob (number : Nat) (s : State) : Out := hostRequest Kind.readJob (readJob number) s

/-- A listed plan is live: CHECKED, RELEASED or CUTTING (R194). -/
def PlanState.live : PlanState → Bool
  | .checked => true
  | .released => true
  | .cutting => true
  | .draft => false
  | .done => false
  | .cancelled => false
  | .abandoned => false

/-- A DRAFT plan the closing job lists is cancelled (R58). -/
def Plan.cancelDraft (listed : List Nat) (p : Plan) : Plan :=
  if listed.contains p.number && p.state == .draft then { p with state := .cancelled } else p

def closeJob (number : Nat) (s : State) : Answer × State :=
  match s.job? number with
  | none => refused .none s
  | some j =>
    if j.state = .closed then refused .frozen s
    else if s.pln.plans.any fun p => j.plans.contains p.number && p.state.live then refused .state s
    else performed [.u32 j.stone, .u32 j.sawTime, .u32 j.water, .u32 j.blade, .u32 j.total]
      ((s.withPlans (List.map (Plan.cancelDraft j.plans))).updateJob number fun j => { j with state := .closed })

/-- CLOSE JOB (R194). -/
def execCloseJob (number : Nat) (s : State) : Out := hostRequest Kind.closeJob (closeJob number) s

def retireJob (number : Nat) (s : State) : Answer × State :=
  match s.job? number with
  | none => refused .none s
  | some j =>
    if j.state ≠ .closed then refused .state s
    else if j.plans ≠ [] then refused .inUse s
    else performed [] (s.withJobs (removeBy Job.number number))

/-- RETIRE JOB (R197). -/
def execRetireJob (number : Nat) (s : State) : Out := hostRequest Kind.retireJob (retireJob number) s

end Sys2Proof.Machine
end

