-- ==== Sys2Proof/Machine/Layout.lean ====
section
/-! DEFINITION. PLN: the layout computation made at CHECK PLAN, a function of the slab record and the plan record alone
(spec/04_layout_arithmetic.md). -/

namespace Sys2Proof.Machine

/-- What the layout computation reads (R67). -/
structure LayoutInput where
  length : Nat
  width : Nat
  flaws : List Flaw
  basis : Nat
  kerf : Nat
  strips : List Strip
  deriving DecidableEq, Repr

/-- The failures of the geometry checks (R71). -/
inductive FailureKind where
  | width | length | flaw | empty
  deriving DecidableEq, Repr

/-- The code of a failure in the reply (R212). -/
def FailureKind.code : FailureKind → Nat
  | .width => 1
  | .length => 2
  | .flaw => 3
  | .empty => 4

/-- The detail of a failed computation (R72). -/
structure Failure where
  kind : FailureKind
  strip : Nat
  piece : Nat
  flaw : Nat
  excess : Nat
  deriving DecidableEq, Repr

/-- The five fields of the detail (R72, R212). -/
def Failure.fields (f : Failure) : List Field := [.u8 f.kind.code, .u8 f.strip, .u8 f.piece, .u8 f.flaw, .u16 f.excess]

/-- A piece and a flaw share area (R70). -/
def sharesArea (a0 a1 b0 b1 : Nat) (f : Flaw) : Bool :=
  decide (a0 < f.x1) && decide (f.x0 < a1) && decide (b0 < f.y1) && decide (f.y0 < b1)

/-- The number of the first flaw a piece overlaps, counting from `n`; 0 when it overlaps none (R70, R71). -/
def firstFlaw (a0 a1 b0 b1 : Nat) : Nat → List Flaw → Nat
  | _, [] => 0
  | n, f :: fs => if sharesArea a0 a1 b0 b1 f then n else firstFlaw a0 a1 b0 b1 (n + 1) fs

/-- The checks of the pieces of strip `s` at near edge `y`, from piece `j` starting at `x` (R69, R71). -/
def checkPieces (i : LayoutInput) (s y w : Nat) : Nat → Nat → List Piece → Option Failure
  | _, _, [] => none
  | j, x, p :: ps =>
    if i.length < x + p.length then some ⟨.length, s, j, 0, x + p.length - i.length⟩
    else
      match firstFlaw x (x + p.length) y (y + w) 1 i.flaws with
      | 0 => checkPieces i s y w (j + 1) (x + p.length + i.kerf) ps
      | f => some ⟨.flaw, s, j, f, 0⟩

/-- The checks strip by strip, from strip `s` at near edge `y` (R68, R71). -/
def checkStrips (i : LayoutInput) : Nat → Nat → List Strip → Option Failure
  | _, _, [] => none
  | s, y, t :: ts =>
    if i.width < y + t.width then some ⟨.width, s, 0, 0, y + t.width - i.width⟩
    else
      match checkPieces i s y t.width 1 0 t.pieces with
      | some f => some f
      | none => checkStrips i (s + 1) (y + t.width + i.kerf) ts

/-- The rip passes, from strip `s` at near edge `y` (R74). -/
def ripPasses (i : LayoutInput) : Nat → Nat → List Strip → List Pass
  | _, _, [] => []
  | s, y, t :: ts =>
    (if y + t.width < i.width then [⟨0, .rip, s, y + t.width, i.length, .pending, 0⟩] else [])
      ++ ripPasses i (s + 1) (y + t.width + i.kerf) ts

/-- The cross passes of strip `s` of width `w`, from a piece starting at `x` (R75). -/
def crossPieces (i : LayoutInput) (s w : Nat) : Nat → List Piece → List Pass
  | _, [] => []
  | x, p :: ps =>
    (if x + p.length < i.length then [⟨0, .cross, s, x + p.length, w, .pending, 0⟩] else [])
      ++ crossPieces i s w (x + p.length + i.kerf) ps

/-- The cross passes, strip by strip from strip `s` (R75, R76). -/
def crossPasses (i : LayoutInput) : Nat → List Strip → List Pass
  | _, [] => []
  | s, t :: ts => crossPieces i s t.width 0 t.pieces ++ crossPasses i (s + 1) ts

/-- The passes indexed upward from `n` (R76). -/
def numberPasses : Nat → List Pass → List Pass
  | _, [] => []
  | n, q :: qs => { q with index := n } :: numberPasses (n + 1) qs

/-- The pass list: every rip pass in strip order, then every cross pass (R76). -/
def passList (i : LayoutInput) : List Pass := numberPasses 1 (ripPasses i 1 0 i.strips ++ crossPasses i 1 i.strips)

/-- The far edge of the last strip, the first standing at near edge `y` (R68). -/
def lastFarEdge (kerf : Nat) : Nat → List Strip → Nat
  | y, [] => y
  | y, [t] => y + t.width
  | y, t :: ts => lastFarEdge kerf (y + t.width + kerf) ts

/-- The total piece area (R78). -/
def pieceArea (ss : List Strip) : Nat := (ss.map fun t => (t.pieces.map fun p => p.length * t.width).sum).sum

/-- A flaw kept, clipped to the remnant band from `y` and moved into the remnant's frame (R80). -/
def clipFlaw (y : Nat) (f : Flaw) : Flaw := ⟨f.x0, f.x1, max f.y0 y - y, f.y1 - y⟩

/-- The remnant's basis: B × A_r / A_s rounded to the nearest cent, a half going to the remnant (R81). -/
def remnantBasis (basis remnantArea slabArea : Nat) : Nat := (2 * basis * remnantArea + slabArea) / (2 * slabArea)

/-- The remnant: derived when the last strip has a rip pass and the tail, a signed quantity, is at least 200 mm
(R79 to R81). -/
def layoutRemnant (i : LayoutInput) : Option RemnantPart :=
  let far := lastFarEdge i.kerf 0 i.strips
  let tail : Int := i.width - (far + i.kerf : Nat)
  if far < i.width ∧ (Config.minTail : Int) ≤ tail then
    let y := far + i.kerf
    some { length := i.length, width := tail.toNat, flaws := (i.flaws.filter fun f => decide (y < f.y1)).map (clipFlaw y),
           basis := remnantBasis i.basis (i.length * tail.toNat) (i.length * i.width) }
  else none

/-- The derived part of a layout that passes every check (R77 to R82). -/
def layoutDerived (i : LayoutInput) : Derived :=
  let remnant := layoutRemnant i
  { passes := passList i
    cutLength := ((passList i).map Pass.length).sum
    yield := pieceArea i.strips * 1000 / (i.length * i.width)
    remnant := remnant
    stoneCharge := i.basis - remnant.elim 0 RemnantPart.basis
    basisAtCheck := i.basis }

/-- The layout computation: the first failure in the checks' order, or the derived part (R67, R71, R82). -/
def layout (i : LayoutInput) : Except Failure Derived :=
  match checkStrips i 1 0 i.strips with
  | some f => .error f
  | none => if (passList i).isEmpty then .error ⟨.empty, 0, 0, 0, 0⟩ else .ok (layoutDerived i)

end Sys2Proof.Machine
end

