-- ==== Sys2Proof/Machine/Stock.lean ====
section
/-! DEFINITION. STK: materials, slab records, searching, remnant numbers and the actions performed for PLN
(spec/01_slab_stock.md). -/

namespace Sys2Proof.Machine

/-! ## The rack map and places (R27) -/

def RackEntry.key (e : RackEntry) : Nat := e.place.key

def State.withRackMap (s : State) (f : List RackEntry → List RackEntry) : State :=
  { s with stk := { s.stk with rackMap := f s.stk.rackMap } }

/-- The slab a rack position names. -/
def State.rackAt? (s : State) (p : Place) : Option Nat := (s.stk.rackMap.find? fun e => e.place == p).map RackEntry.slab

/-- The position becomes empty. -/
def State.clearRack (s : State) (p : Place) : State := s.withRackMap (List.filter fun e => e.place != p)

/-- The position names the slab. -/
def State.fillRack (s : State) (p : Place) (n : Nat) : State :=
  (s.clearRack p).withRackMap (insertBy RackEntry.key ⟨p, n⟩)

/-- A change of place empties the old position and fills the new one as part of the same action (R27). -/
def State.setPlace (s : State) (n : Nat) (target : Option Place) : State :=
  match s.slab? n with
  | none => s
  | some r =>
    let s := r.place.elim s s.clearRack
    let s := target.elim s fun p => s.fillRack p n
    s.updateSlab n fun r => { r with place := target }

/-! ## The audit mark (R30, R36, R37) -/

def State.withAudit (s : State) (f : Audit → Audit) : State := { s with stk := { s.stk with audit := f s.stk.audit } }

/-- The mark of a slab is removed and the marked count falls by 1; a slab without a mark keeps the counts. -/
def State.unmark (s : State) (n : Nat) (verified : Nat) : State :=
  match s.slab? n with
  | some r =>
    if r.mark then
      (s.updateSlab n fun r => { r with mark := false }).withAudit fun a =>
        { a with marked := a.marked - 1, verified := a.verified + verified }
    else s
  | none => s

/-- A slab that leaves the racks loses its mark without being verified (R37). -/
def State.leaveAudit (s : State) (n : Nat) : State := s.unmark n 0

/-- A sighting removes the mark and counts as verified (R30, R36). -/
def State.sighted (s : State) (n : Nat) : State := s.unmark n 1

/-! ## Materials (R2 to R5) -/

def defineMaterial (code hardness feed : Nat) (s : State) : Answer × State :=
  if 31 < code ∨ !within 100 250 hardness ∨ !within 100 3000 feed then refused .form s
  else performed [] (s.withMaterials fun ms => insertBy Material.code ⟨code, hardness, feed⟩ (removeBy Material.code code ms))

/-- DEFINE MATERIAL (R3). -/
def execDefineMaterial (code hardness feed : Nat) (s : State) : Out :=
  hostRequest Kind.defineMaterial (defineMaterial code hardness feed) s

def dropMaterial (code : Nat) (s : State) : Answer × State :=
  if 31 < code then refused .form s
  else if (s.material? code).isNone then refused .none s
  else if s.stk.slabs.any fun r => r.material == code then refused .inUse s
  else performed [] (s.withMaterials (removeBy Material.code code))

/-- DROP MATERIAL (R4). -/
def execDropMaterial (code : Nat) (s : State) : Out := hostRequest Kind.dropMaterial (dropMaterial code) s

def readMaterial (code : Nat) (s : State) : Answer × State :=
  if 31 < code then refused .form s
  else performed [flag (s.material? code).isSome, .u16 (s.hardness code), .u16 (s.feed code)] s

/-- READ MATERIAL (R5). -/
def execReadMaterial (code : Nat) (s : State) : Out := hostRequest Kind.readMaterial (readMaterial code) s

/-! ## Slab requests (R9 to R13) -/

/-- A flaw lies in the slab: x0 < x1 ≤ L and y0 < y1 ≤ W (R6, R7). -/
def Flaw.inSlab (length width : Nat) (f : Flaw) : Bool :=
  decide (f.x0 < f.x1) && decide (f.x1 ≤ length) && decide (f.y0 < f.y1) && decide (f.y1 ≤ width)

/-- A lot's two fields: both 0, or a number with a sequence of 1 to 99 (R7, R9). -/
def lotForm (number seq : Nat) : Bool := if number = 0 then decide (seq = 0) else within 1 99 seq

/-- The lot of two fields, absent when they are 0 (R7). -/
def lotOf (number seq : Nat) : Option Lot := if number = 0 then none else some ⟨number, seq⟩

/-- The amendable fields lie in the ranges R9 gives. -/
def amendableForm (material thickness lotNumber lotSeq length width basis : Nat) (flaws : List Flaw) : Bool :=
  decide (material ≤ 31) && within 10 50 thickness && decide (flaws.length ≤ 4) && flaws.all (Flaw.inSlab length width)
    && decide (basis ≤ 5000000) && lotForm lotNumber lotSeq

def createSlab (number material thickness lotNumber lotSeq length width basis : Nat) (flaws : List Flaw) (s : State) :
    Answer × State :=
  if !within 1 49999 number ∨ !within 300 3600 length ∨ !within 200 2100 width
      ∨ !amendableForm material thickness lotNumber lotSeq length width basis flaws then refused .form s
  else if (s.material? material).isNone then refused .none s
  else if (s.slab? number).isSome then refused .exists s
  else if Config.maxSlabs ≤ s.stk.slabs.length then refused .full s
  else performed [] (s.withSlabs (insertBy Slab.number
    { number := number, kind := .full, material := material, thickness := thickness, lot := lotOf lotNumber lotSeq,
      length := length, width := width, flaws := flaws, basis := basis, place := none, state := .available, plan := none,
      parent := none, missing := false, mark := false }))

/-- CREATE SLAB (R9). -/
def execCreateSlab (number material thickness lotNumber lotSeq length width basis : Nat) (flaws : List Flaw) (s : State) :
    Out :=
  hostRequest Kind.createSlab (createSlab number material thickness lotNumber lotSeq length width basis flaws) s

/-- A flaw count beyond 4 is a bad body, answered FORM before the rule's own checks (R211, log 12). -/
def amendSlab (number material thickness lotNumber lotSeq basis : Nat) (flaws : List Flaw) (s : State) : Answer × State :=
  if 4 < flaws.length then refused .form s
  else match s.slab? number with
  | none => refused .none s
  | some r =>
    if r.state ≠ .available then refused .state s
    else if !amendableForm material thickness lotNumber lotSeq r.length r.width basis flaws then refused .form s
    else if (s.material? material).isNone then refused .none s
    else performed [] (s.updateSlab number fun r =>
      { r with material := material, thickness := thickness, lot := lotOf lotNumber lotSeq, flaws := flaws, basis := basis })

/-- AMEND SLAB (R10). -/
def execAmendSlab (number material thickness lotNumber lotSeq basis : Nat) (flaws : List Flaw) (s : State) : Out :=
  hostRequest Kind.amendSlab (amendSlab number material thickness lotNumber lotSeq basis flaws) s

def scrapSlab (number : Nat) (s : State) : Answer × State :=
  match s.slab? number with
  | none => refused .none s
  | some r =>
    if r.state ≠ .available then refused .state s
    else performed [] (((s.setPlace number none).leaveAudit number).updateSlab number fun r =>
      { r with state := .scrapped, missing := false })

/-- SCRAP SLAB (R11). -/
def execScrapSlab (number : Nat) (s : State) : Out := hostRequest Kind.scrapSlab (scrapSlab number) s

def retireSlab (number : Nat) (s : State) : Answer × State :=
  match s.slab? number with
  | none => refused .none s
  | some r =>
    if r.state = .consumed ∨ r.state = .scrapped then performed [] (s.withSlabs (removeBy Slab.number number))
    else refused .state s

/-- RETIRE SLAB (R12). -/
def execRetireSlab (number : Nat) (s : State) : Out := hostRequest Kind.retireSlab (retireSlab number) s

/-- The slab record as READ SLAB sends it (R215). -/
def Slab.fields (r : Slab) : List Field :=
  [.u16 r.number, .u8 r.kind.code, .u8 r.material, .u16 r.thickness, .u16 (r.lot.elim 0 Lot.number),
    .u8 (r.lot.elim 0 Lot.seq), .u16 r.length, .u16 r.width, .u32 r.basis, .u8 (r.place.elim 0 Place.rack),
    .u8 (r.place.elim 0 Place.position), .u8 r.state.code, .u16 (r.plan.getD 0), .u16 (r.parent.getD 0), flag r.missing,
    flag r.mark] ++ counted flawFields r.flaws

def readSlab (number : Nat) (s : State) : Answer × State :=
  match s.slab? number with
  | none => refused .none s
  | some r => performed r.fields s

/-- READ SLAB (R13). -/
def execReadSlab (number : Nat) (s : State) : Out := hostRequest Kind.readSlab (readSlab number) s

/-! ## Finding stone (R14 to R16) -/

/-- A slab record matches the criteria (R15). -/
def Slab.matches (material thickness minLength minWidth lotNumber : Nat) (r : Slab) : Bool :=
  r.state == .available && !r.missing && r.material == material && (thickness == 0 || r.thickness == thickness)
    && decide (minLength ≤ r.length) && decide (minWidth ≤ r.width)
    && (lotNumber == 0 || r.lot.elim false fun l => l.number == lotNumber)

/-- The matches in rank: by usable area, or with a lot by lot sequence, then by slab number (R16). -/
def rankedMatches (material thickness minLength minWidth lotNumber : Nat) (slabs : List Slab) : List Slab :=
  let found := slabs.filter (Slab.matches material thickness minLength minWidth lotNumber)
  if lotNumber = 0 then rankBy (fun r => r.length * r.width) Slab.number found
  else rankBy (fun r => r.lot.elim 0 Lot.seq) Slab.number found

def findSlabs (material thickness minLength minWidth lotNumber : Nat) (s : State) : Answer × State :=
  if 31 < material ∨ !(thickness == 0 || within 10 50 thickness) ∨ 3600 < minLength ∨ 2100 < minWidth then refused .form s
  else
    let found := rankedMatches material thickness minLength minWidth lotNumber s.stk.slabs
    performed (.u16 found.length :: counted (fun r => [.u16 r.number]) (found.take Config.maxFound)) s

/-- FIND SLABS (R14, R16). -/
def execFindSlabs (material thickness minLength minWidth lotNumber : Nat) (s : State) : Out :=
  hostRequest Kind.findSlabs (findSlabs material thickness minLength minWidth lotNumber) s

/-! ## Remnant numbers (R17) -/

/-- The number after a remnant number, wrapping from 65,535 to 50,000 (R17). -/
def nextRemnant (n : Nat) : Nat := if Config.lastRemnant ≤ n then Config.firstRemnant else n + 1

/-- The first number at or after a start that no record carries, looking at `k` numbers (R17). -/
def freeRemnant (slabs : List Slab) : Nat → Nat → Nat
  | 0, n => n
  | k + 1, n => if (findBy Slab.number n slabs).isSome then freeRemnant slabs k (nextRemnant n) else n

/-! ## Actions performed for PLN (R18 to R24) -/

/-- Reserve (R18). -/
def State.reserve (s : State) (n plan : Nat) : State :=
  s.updateSlab n fun r => { r with state := .reserved, plan := some plan }

/-- Unreserve (R19). -/
def State.unreserve (s : State) (n : Nat) : State := s.updateSlab n fun r => { r with state := .available, plan := none }

/-- Put on saw (R20): a slab already ON_SAW is left as it stands. -/
def State.putOnSaw (s : State) (n : Nat) : State :=
  match s.slab? n with
  | some r =>
    if r.state = .onSaw then s
    else ((s.setPlace n none).leaveAudit n).updateSlab n fun r => { r with state := .onSaw, missing := false }
  | none => s

/-- Consume (R21). -/
def State.consume (s : State) (n : Nat) : State := s.updateSlab n fun r => { r with state := .consumed, plan := none }

/-- Scrap on abandon (R22). -/
def State.scrapOnAbandon (s : State) (n : Nat) : State :=
  s.updateSlab n fun r => { r with state := .scrapped, plan := none }

/-- The record of a remnant cut from a parent (R23). -/
def remnantRecord (number : Nat) (parent : Slab) (part : RemnantPart) : Slab where
  number := number
  kind := .remnant
  material := parent.material
  thickness := parent.thickness
  lot := parent.lot
  length := part.length
  width := part.width
  flaws := part.flaws
  basis := part.basis
  place := none
  state := .available
  plan := none
  parent := some parent.number
  missing := false
  mark := false

/-- Create remnant: the number taken, or none when the table has no room (R23, R24). -/
def State.createRemnant (s : State) (parent : Nat) (part : RemnantPart) : Option Nat × State :=
  match s.slab? parent with
  | none => (none, s)
  | some r =>
    if Config.maxSlabs ≤ s.stk.slabs.length then (none, s)
    else
      let n := freeRemnant s.stk.slabs (s.stk.slabs.length + 1) s.stk.counter
      let s := s.withSlabs (insertBy Slab.number (remnantRecord n r part))
      (some n, { s with stk := { s.stk with counter := nextRemnant n } })

end Sys2Proof.Machine
end

