-- ==== Sys2Proof/Machine/Water.lean ====
section
/-! DEFINITION. What SDP and WAU do together for a saw: pass events, staging, segments, contexts, admission, release, holds,
removal and revocation (spec/05, 06 and 09). A saw's state, its allotment and its permit change whatever the plan records
hold; a rule that reads a record which is not there has no effect for it (log 19). -/

namespace Sys2Proof.Machine

/-! ## Pass events (R48) -/

/-- A pass of a plan changed, by its index. -/
def Plan.updatePass (i : Nat) (f : Pass → Pass) (p : Plan) : Plan :=
  { p with derived := p.derived.map fun d => { d with passes := updateBy Pass.index i f d.passes } }

/-- An event of one pass reported to PLN. -/
def State.updatePass (s : State) (plan index : Nat) (f : Pass → Pass) : State :=
  s.updatePlan plan (Plan.updatePass index f)

/-- A position moves reached to the larger of the two, clamped to the length (R48). -/
def Pass.reach (position : Nat) (q : Pass) : Pass := { q with reached := max q.reached (min position q.length) }

/-- A position reported for the ACTIVE pass of the saw's head plan (R48, R105). -/
def State.reportReached (s : State) (w : Saw) (position : Nat) : State :=
  match s.activePass? w with
  | some (p, q) => s.updatePass p.number q.index (Pass.reach position)
  | none => s

/-- A pass returned goes from STAGED to PENDING (R48). -/
def Pass.giveBack (q : Pass) : Pass := { q with state := match q.state with | .staged => .pending | x => x }

/-- Every STAGED pass of the plan returns to PENDING (R59, R66). -/
def Plan.giveBackAll (p : Plan) : Plan :=
  { p with derived := p.derived.map fun d => { d with passes := d.passes.map Pass.giveBack } }

/-- The passes of a plan with the indices given that are STAGED return to PENDING. -/
def Plan.giveBackThese (held : List Nat) (p : Plan) : Plan :=
  { p with derived := p.derived.map fun d =>
      { d with passes := d.passes.map fun q => if held.contains q.index then q.giveBack else q } }

/-- The outstanding set is emptied; its passes that are not ACTIVE are reported as returned (R91, R122). -/
def State.dropWindow (s : State) (w : Saw) : State :=
  let held := (s.saw w).outstanding.map Outstanding.index
  let s := match s.headPlan? w with
    | some p => s.updatePlan p.number (Plan.giveBackThese held)
    | none => s
  s.updateSaw w fun r => { r with outstanding := [] }

/-! ## Tags and staging (R99, R100) -/

/-- The first tag at or after a start that is not in use, looking at `k` tags (R99). -/
def freeTag (used : List Nat) : Nat → Nat → Nat
  | 0, t => t
  | k + 1, t => if used.contains t then freeTag used k ((t + 1) % 8) else t

/-- The tag the saw would be given now (R99). -/
def SawRec.tagToGive (r : SawRec) : Nat := freeTag (r.outstanding.map Outstanding.tag) 8 r.nextTag

/-- The feed of an ORDER or RESUME: the smaller of the material's standard feed and the saw's max feed (R100). -/
def State.orderFeed (s : State) (w : Saw) (p : Plan) : Nat :=
  min ((s.slab? p.slab).elim 0 fun r => s.feed r.material) (s.saw w).maxFeed

/-- The fields ORDER and RESUME share (R217). -/
def orderFields (tag : Nat) (p : Plan) (q : Pass) (feed : Nat) : List Field :=
  [.u8 tag, .u16 p.number, .u8 q.index, .u8 q.kind.code, .u16 q.coordinate, .u16 q.length, .u16 feed]

/-- The lowest PENDING pass of the head plan is staged: a tag, the set, the ORDER, STAGED (R100). -/
def State.stagePass (s : State) (w : Saw) : State :=
  match s.headPlan? w with
  | none => s
  | some p =>
    match p.pendingPass? with
    | none => s
    | some q =>
      let t := (s.saw w).tagToGive
      let frame : Frame := ⟨Kind.order, none, orderFields t p q (s.orderFeed w p)⟩
      let s := s.updateSaw w fun r => { r with outstanding := r.outstanding ++ [⟨t, q.index⟩], nextTag := (t + 1) % 8 }
      (s.send w frame).updatePass p.number q.index fun q => { q with state := .staged }

/-- A pass is staged when the window has room and a PENDING pass remains (R94, R129). -/
def State.refill (s : State) (w : Saw) : State := if (s.saw w).outstanding.length < 2 then s.stagePass w else s

/-! ## Segments (R106, R107) -/

/-- A segment opens at the pass's reached; the meter remainder is kept (R106). -/
def State.openSegment (s : State) (w : Saw) : State :=
  let start := s.reached w
  s.updateSaw w fun r => { r with meters := ⟨true, start, 0, 0, r.meters.remainder⟩ }

/-- The length of the ACTIVE pass of the head plan; 0 where there is none. -/
def State.activeLength (s : State) (w : Saw) : Nat := (s.activePass? w).elim 0 fun x => x.2.length

/-- The hardness of the material of the head plan's slab (R107, R140). -/
def State.headHardness (s : State) (w : Saw) : Nat :=
  match s.headPlan? w with
  | some p => (s.slab? p.slab).elim 0 fun r => s.hardness r.material
  | none => 0

/-- A charge to the job of the head plan. -/
def State.chargeHead (s : State) (w : Saw) (apply : Job → Job) : State :=
  match s.headPlan? w with
  | some p => s.charge p.job apply
  | none => s

/-- The progress of the open segment for an end position: the position is clamped to the pass length and taken as the start
position when below it (R107). -/
def State.progress (s : State) (w : Saw) (position : Nat) : Nat :=
  min position (s.activeLength w) - (s.saw w).meters.startAt

/-- Step 1 of R107: wear on the fitted blade, and the blade charge. -/
def State.chargeWear (s : State) (w : Saw) (p : Nat) : State :=
  match (s.saw w).blade with
  | some b =>
    let r := s.accrueWear b p (s.headHardness w)
    r.2.chargeHead w (Job.chargeBlade r.1)
  | none => s

/-- The volume of a segment in dL (R164). -/
def Meters.volume (m : Meters) : Nat := (m.flow + m.remainder) / Config.meterDivisor

/-- Step 2 of R107: the remainder is updated and S is cleared (R164). -/
def Meters.settle (m : Meters) : Meters :=
  { m with flow := 0, remainder := (m.flow + m.remainder) % Config.meterDivisor }

/-- The segment is closed with an end position and charged, in the order of R107; its time is added to pass time first
(R114). -/
def State.closeSegment (s : State) (w : Saw) (position : Nat) : State :=
  let m := (s.saw w).meters
  let rate := (s.saw w).rate
  let s := s.chargeWear w (s.progress w position)
  let s := s.updateSaw w fun r => { r with meters := r.meters.settle }
  let s := s.chargeHead w (Job.chargeSawTime rate m.time)
  let s := s.chargeHead w (Job.chargeWater s.wau.settings.waterRate m.volume)
  s.updateSaw w fun r =>
    { r with passTime := satAdd Config.maxTime r.passTime m.time
             meters := { r.meters with isOpen := false, time := 0, startAt := 0 } }

/-! ## Contexts (R113) -/

/-- The pass part a context takes now: the head plan's ACTIVE pass at its reached. -/
def State.passPart? (s : State) (w : Saw) : Option PassPart :=
  (s.activePass? w).map fun x => ⟨x.1.number, x.2.index, s.activeTag? w, x.2.reached, x.2.length - x.2.reached⟩

/-- A context is written. -/
def State.writeContext (s : State) (w : Saw) (kind : ContextKind) (cause : Option Cause) (faults : Nat) : State :=
  let part := s.passPart? w
  s.updateSaw w fun r => { r with context := some ⟨kind, cause, part, r.passTime, faults⟩ }

/-! ## Water: entries, order, line and permits (R174 to R184) -/

def State.withWau (s : State) (f : Admission → Admission) : State := { s with wau := f s.wau }

/-- The saw's demand fits: it is at most capacity − A (R177). -/
def State.fits (s : State) (w : Saw) : Bool := decide ((s.saw w).demand + s.wau.granted ≤ s.wau.capacity)

/-- A list of saws without one of them. -/
def dropSaw (w : Saw) (ws : List Saw) : List Saw := ws.filter fun v => v != w

/-- The admission's own records: the entry, the order, the permit (R177, R175). -/
def Admission.admitSaw (w : Saw) (demand : Nat) (a : Admission) : Admission :=
  { a with allotment := a.allotment.set w (some demand), order := dropSaw w a.order ++ [w], permit := a.permit.set w true }

/-- A release without its admission pass (R180). -/
def Admission.release (w : Saw) (a : Admission) : Admission :=
  { a with allotment := a.allotment.set w none, order := dropSaw w a.order, permit := a.permit.set w false }

/-- A hold ended without a stop or with the pass complete: the permit goes off and the saw leaves the order (R182). -/
def Admission.endHold (w : Saw) (a : Admission) : Admission :=
  { a with order := dropSaw w a.order, permit := a.permit.set w false }

/-- A revocation: the entry is removed, the order and the permit stay (R181). -/
def Admission.revoke (w : Saw) (a : Admission) : Admission := { a with allotment := a.allotment.set w none }

/-- A saw put at the tail of the line as a STARTED entry (R179). -/
def Admission.enqueue (w : Saw) (a : Admission) : Admission := { a with line := a.line ++ [⟨w, .started⟩] }

/-- A saw stands later than another in the admission order. -/
def laterIn (order : List Saw) (w v : Saw) : Bool := decide (order.idxOf w < order.idxOf v)

/-- A HELD entry stands before the first entry that is STARTED, or HELD for a saw later in the order (R182). -/
def placeHeld (order : List Saw) (w : Saw) : List LineEntry → List LineEntry
  | [] => [⟨w, .held⟩]
  | e :: es =>
    if e.kind == .started || laterIn order w e.saw then ⟨w, .held⟩ :: e :: es else e :: placeHeld order w es

/-- A completed hold's records (R182). -/
def Admission.holdComplete (w : Saw) (a : Admission) : Admission :=
  { a with permit := a.permit.set w false, line := placeHeld a.order w a.line }

/-- The saw stands in the line. -/
def Admission.inLine (w : Saw) (a : Admission) : Bool := a.line.any fun e => e.saw == w

/-- A removal's records: the entry leaves the line, and from a HELD entry the saw leaves the order too (R183). -/
def Admission.remove (w : Saw) (a : Admission) : Admission :=
  { a with line := a.line.filter fun e => e.saw != w
           order := if a.line.any fun e => e.saw == w && e.kind == .held then dropSaw w a.order else a.order }

/-! ## Entering CUTTING (R103, R104, R129) -/

/-- WAU admits the saw at its demand (R177). -/
def State.admitSaw (s : State) (w : Saw) : State :=
  let demand := (s.saw w).demand
  s.withWau (Admission.admitSaw w demand)

/-- GO for the oldest outstanding pass: the pass becomes ACTIVE, pass time is 0, a segment opens, CUTTING (R103, R114). -/
def State.grantGo (s : State) (w : Saw) : State :=
  let s := match (s.saw w).outstanding, s.headPlan? w with
    | o :: _, some p => (s.send w ⟨Kind.go, none, [.u8 o.tag]⟩).updatePass p.number o.index fun q => { q with state := .active }
    | _, _ => s
  let s := s.updateSaw w fun r => { r with passTime := 0 }
  (s.openSegment w).setSawState w .cutting

/-- Step 1 of R129: the ACTIVE pass has a tag; given afresh, it stands first in the set. -/
def State.tagActive (s : State) (w : Saw) (q : Pass) : Nat × State :=
  match (s.saw w).outstanding.find? fun o => o.index == q.index with
  | some o => (o.tag, s)
  | none =>
    let t := (s.saw w).tagToGive
    (t, s.updateSaw w fun r => { r with outstanding := ⟨t, q.index⟩ :: r.outstanding, nextTag := (t + 1) % 8 })

/-- RESUME is sent for an ACTIVE pass (steps 1 to 3 of R129). -/
def State.sendResume (s : State) (w : Saw) (p : Plan) (q : Pass) : State :=
  let r := s.tagActive w q
  r.2.send w ⟨Kind.resume, none, orderFields r.1 p q (s.orderFeed w p) ++ [.u16 q.reached, .u16 (q.length - q.reached)]⟩

/-- The saw resumes its ACTIVE pass, in the order of R129. -/
def State.resumeCut (s : State) (w : Saw) : State :=
  let s := match s.activePass? w with
    | some (p, q) => s.sendResume w p q
    | none => s
  let s := (s.openSegment w).refill w
  (s.updateSaw w fun r => { r with context := none }).setSawState w .cutting

/-- A saw admitted from the line resumes where its head plan has an ACTIVE pass, and is given GO otherwise (R177). -/
def State.enterCut (s : State) (w : Saw) : State := if (s.activePass? w).isSome then s.resumeCut w else s.grantGo w

/-- HOLD is sent, the hold timer starts, HOLDING (R116). -/
def State.orderHold (s : State) (w : Saw) : State :=
  (s.send w ⟨Kind.hold, none, [.u8 ((s.activeTag? w).getD 0)]⟩).updateSaw w fun r =>
    { r with state := .holding, holdTimer := some Config.holdTime }

/-! ## Faults in a cut, and the admission pass -/

/-- The permit and the order settled at a stop: a release with its admission pass from CUTTING, the end of a hold from
HOLDING (R120 step 4, R122 step 2). -/
def State.leaveWater (pass : State → State) (s : State) (w : Saw) : State :=
  match (s.saw w).state with
  | .cutting => pass (s.withWau (Admission.release w))
  | .holding => s.withWau (Admission.endHold w)
  | _ => s

/-- An OVERLOAD in the stone counts against the fitted blade (R120 step 5, R143). -/
def State.faultBlade (s : State) (w : Saw) (cause : Cause) : State :=
  match cause, (s.saw w).blade with
  | .overload, some b => s.countOverload b
  | _, _ => s

/-- A fault of a CUTTING or HOLDING saw, in the order of R120, with the position used. -/
def State.faultInCut (pass : State → State) (s : State) (w : Saw) (position : Nat) (cause : Cause) : State :=
  let s := s.updateSaw w fun r => { r with holdTimer := none }
  let s := s.reportReached w position
  let s := s.closeSegment w position
  let s := s.leaveWater pass w
  let s := s.faultBlade w cause
  let s := s.writeContext w .fault (some cause) 1
  (s.setSawState w .faulted).raise .sawFault

/-- A saw that enters CUTTING with its interlock input not asserted is handled as at a drop, once its admission has been
handled whole (R121, log 31). -/
def State.settleInterlock (pass : State → State) (s : State) (w : Saw) : State :=
  if (s.saw w).interlock then s else s.faultInCut pass w (s.reached w) .safety

/-- An admission pass over at most `n` entries: the head is admitted while it fits (R178). A fault on entry runs the pass of
its own release inside it (R121, R180). -/
def admissionPass : Nat → State → State
  | 0, s => s
  | n + 1, s =>
    match s.wau.line with
    | [] => s
    | e :: es =>
      if s.fits e.saw then
        let s := s.withWau fun a => { a with line := es }
        let s := (s.admitSaw e.saw).enterCut e.saw
        admissionPass n (s.settleInterlock (admissionPass n) e.saw)
      else s

/-- An admission pass over the line as it stands (R178). -/
def State.runPass (s : State) : State := admissionPass s.wau.line.length s

/-- A removal from the line, followed by an admission pass; nothing for a saw that is not in it (R183). -/
def State.removeFromLine (s : State) (w : Saw) : State :=
  if s.wau.inLine w then (s.withWau (Admission.remove w)).runPass else s

/-! ## Revocation and capacity (R169 to R173, R181) -/

/-- Allotments are revoked along a list of saws until A is no longer above the capacity (R181). -/
def revokeDown (capacity : Nat) : List Saw → State → State
  | [], s => s
  | w :: ws, s =>
    if s.wau.granted ≤ capacity then s
    else if (s.wau.allotment.get w).isSome then revokeDown capacity ws ((s.withWau (Admission.revoke w)).orderHold w)
    else revokeDown capacity ws s

/-- The value of a reading LIVE or HELD. -/
def Reading.seen (r : Reading) : Option Int :=
  match r.form with
  | .live => r.value
  | .held => r.value
  | .absent => none
  | .lost => none

/-- The level state moved by a level reading (R169). -/
def LevelState.move (x : LevelState) (p : Settings) (r : Reading) : LevelState :=
  match r.seen with
  | none => x
  | some v =>
    match x with
    | .low => if (p.restart : Int) ≤ v then .normal else .low
    | .undecided => if (p.hold : Int) ≤ v then .normal else .low
    | .normal => if (p.hold : Int) ≤ v then .normal else .low

/-- The level factor lf (R170). -/
def levelFactor (p : Settings) (x : LevelState) (r : Reading) : Nat :=
  match r.seen, x with
  | some v, .normal => if (p.reduce : Int) ≤ v then 100 else 50
  | _, _ => 0

/-- The turbidity factor tf (R171). -/
def turbidityFactor (p : Settings) (r : Reading) : Nat :=
  match r.seen with
  | some v => if v ≤ p.turbidity then 100 else if v ≤ 2 * p.turbidity then 50 else 0
  | none => 0

/-- The sump factor sf (R172). -/
def sumpFactor (p : Settings) (r : Reading) : Nat :=
  match r.seen with
  | some v => if v < p.sump then 100 else 0
  | none => 0

/-- Steps 1 to 3 of an evaluation: the readings taken, the level state and the factors (R173). -/
def Admission.observe (r0 r1 r2 : Reading) (a : Admission) : Admission :=
  let level := a.level.move a.settings r0
  { a with level := level, used0 := r0, used1 := r1, used2 := r2, lf := levelFactor a.settings level r0,
           tf := turbidityFactor a.settings r2, sf := sumpFactor a.settings r1 }

/-- The capacity the settings and factors give (R173 step 4). -/
def Admission.derived (a : Admission) : Nat := a.settings.rating * a.lf * a.tf * a.sf / 1000000

/-- A capacity evaluation, in the order of R173. -/
def State.evaluate (s : State) : State :=
  let before := s.wau.capacity
  let s := s.withWau (Admission.observe (s.channel .c0).offers (s.channel .c1).offers (s.channel .c2).offers)
  let capacity := s.wau.derived
  let s := revokeDown capacity s.wau.order.reverse s
  let s := s.withWau fun a => { a with capacity := capacity }
  let s := if before < capacity then s.runPass else s
  s.raiseIf (capacity == 0 && before != 0) .waterStop

/-- An event of the plant: the 100 ms evaluation (R173). -/
def execCapacityEvaluation (s : State) : Out := event State.evaluate s

/-! ## Loading (R92, R93, R95, R97) -/

/-- LOAD for a plan and its slab as the record stands (R92). -/
def loadFrame (p : Plan) (r : Slab) : Frame where
  kind := Kind.load
  status := none
  fields := [.u16 p.number, .u16 r.number, .u8 (r.place.elim 0 Place.rack), .u8 (r.place.elim 0 Place.position),
    .u8 r.material, .u16 r.thickness, .u16 r.length, .u16 r.width]

/-- A head plan that R93 loads: RELEASED, or CUTTING with none of its passes ACTIVE. -/
def Plan.loadable (p : Plan) : Bool := p.state == .released || p.state == .cutting && p.activePass?.isNone

/-- A saw UP and IDLE whose queue has a loadable head receives LOAD and goes to LOADING (R93). -/
def State.loadHead (s : State) (w : Saw) : State :=
  if (s.saw w).link = .up ∧ (s.saw w).state = .idle then
    match s.headPlan? w with
    | none => s
    | some p =>
      if p.loadable then
        match s.slab? p.slab with
        | none => s
        | some r =>
          (s.send w (loadFrame p r)).updateSaw w fun x => { x with pendingLoad := some p.number, state := .loading }
      else s
  else s

/-- The saw goes to IDLE and is loaded with its next head (R97). -/
def State.goOn (s : State) (w : Saw) : State := (s.setSawState w .idle).loadHead w

/-- UNLOAD is sent while the link is UP; the pending load for the plan is cleared (R95). -/
def State.unload (s : State) (w : Saw) (n : Nat) : State :=
  match (s.saw w).link with
  | .up => (s.send w ⟨Kind.unload, none, [.u16 n]⟩).updateSaw w fun r =>
    { r with pendingLoad := if r.pendingLoad = some n then none else r.pendingLoad }
  | .down => s

/-- The plan leaves the saw's queue, the others keeping their order, and its saw field is cleared (R49). -/
def State.leaveQueue (s : State) (w : Saw) (n : Nat) : State :=
  (s.updateSaw w fun r => { r with queue := r.queue.filter fun m => m != n }).updatePlan n fun p => { p with saw := none }

end Sys2Proof.Machine
end

