-- ==== Sys2Proof/Machine/Plans.lean ====
section
/-! DEFINITION. PLN: plan records, the check, release, cancel and abandon, strips finished and the completion chain
(spec/03_cut_plans.md). -/

namespace Sys2Proof.Machine

/-! ## Creating and reworking (R50 to R53) -/

/-- A count of strips or pieces beyond its list's limit makes the body itself bad (R211, log 12). -/
def layoutTooLong (strips : List Strip) : Bool :=
  decide (8 < strips.length) || strips.any fun t => decide (6 < t.pieces.length)

/-- A piece within its ranges (R45). -/
def Piece.form (p : Piece) : Bool := within 1 999 p.mark && within 50 3600 p.length

/-- A strip within its ranges (R45). -/
def Strip.form (t : Strip) : Bool :=
  within 20 2100 t.width && within 1 6 t.pieces.length && t.pieces.all Piece.form

/-- The kerf and the layout pass the FORM checks of R50. -/
def layoutForm (kerf : Nat) (strips : List Strip) : Bool :=
  within 2 6 kerf && within 1 8 strips.length && strips.all Strip.form && decide (pieceCount strips ≤ Config.maxPieces)

/-- The lot binding is met: the job carries none, or the slab's lot number equals it (R51, R190). A plan's job is always on
record; were it not, no binding would be carried (log 19). -/
def lotMet (j : Option Job) (r : Slab) : Bool :=
  match j.bind Job.lot with
  | none => true
  | some n => r.lot.elim false fun l => l.number == n

/-- A plan record as created (R50). -/
def newPlan (number job slab kerf : Nat) (strips : List Strip) : Plan where
  number := number
  job := job
  slab := slab
  kerf := kerf
  strips := strips
  state := .draft
  saw := none
  derived := none
  finished := strips.map fun _ => false
  piecesFinished := 0
  remnantGiven := none

def createPlan (number job slab kerf : Nat) (strips : List Strip) (s : State) : Answer × State :=
  if number = 0 ∨ job = 0 ∨ slab = 0 ∨ !layoutForm kerf strips then refused .form s
  else match s.job? job, s.slab? slab with
  | some j, some r =>
    if j.state = .closed then refused .frozen s
    else if !lotMet (some j) r then refused .lot s
    else if Config.maxPlans ≤ s.pln.plans.length ∨ Config.maxJobPlans ≤ j.plans.length then refused .full s
    else if (s.plan? number).isSome then refused .exists s
    else performed [] ((s.withPlans (insertBy Plan.number (newPlan number job slab kerf strips))).updateJob job fun j =>
      { j with plans := j.plans ++ [number] })
  | _, _ => refused .none s

/-- CREATE PLAN (R50, R51). -/
def execCreatePlan (number job slab kerf : Nat) (strips : List Strip) (s : State) : Out :=
  hostRequest Kind.createPlan (createPlan number job slab kerf strips) s

/-- The plan in DRAFT with the kerf and the layout given and no derived part (R52, R53). -/
def Plan.revise (kerf : Nat) (strips : List Strip) (p : Plan) : Plan :=
  { p with kerf := kerf, strips := strips, state := .draft, derived := none, finished := strips.map fun _ => false }

/-- The slab and the job as a check found them: the slab unreserved, pieces planned reduced (R53, R57). -/
def State.undoCheck (s : State) (p : Plan) : State :=
  (s.unreserve p.slab).updateJob p.job (Job.reducePlanned (pieceCount p.strips))

def revisePlan (number kerf : Nat) (strips : List Strip) (s : State) : Answer × State :=
  if layoutTooLong strips then refused .form s
  else match s.plan? number with
  | none => refused .none s
  | some p =>
    match p.state with
    | .draft =>
      if !layoutForm kerf strips then refused .form s
      else performed [] (s.updatePlan number (Plan.revise kerf strips))
    | .checked =>
      if !layoutForm kerf strips then refused .form s
      else performed [] ((s.undoCheck p).updatePlan number (Plan.revise kerf strips))
    | _ => refused .state s

/-- REVISE PLAN (R52, R53). -/
def execRevisePlan (number kerf : Nat) (strips : List Strip) (s : State) : Out :=
  hostRequest Kind.revisePlan (revisePlan number kerf strips) s

/-! ## The check (R54, R55) -/

/-- What the layout computation reads from the slab and the plan (R67). -/
def layoutInput (r : Slab) (p : Plan) : LayoutInput := ⟨r.length, r.width, r.flaws, r.basis, p.kerf, p.strips⟩

/-- The check performed: the derived part, the reservation, pieces planned, CHECKED (R55). -/
def State.performCheck (s : State) (p : Plan) (d : Derived) : State :=
  let s := s.updatePlan p.number fun p => { p with derived := some d, state := .checked }
  (s.reserve p.slab p.number).updateJob p.job (Job.addPlanned (pieceCount p.strips))

/-- The fields of the reply to a check that passes (R55). -/
def Derived.checkFields (d : Derived) : List Field :=
  [.u8 d.passes.length, .u32 d.cutLength, .u16 d.yield, flag d.remnant.isSome, .u16 (d.remnant.elim 0 RemnantPart.length),
    .u16 (d.remnant.elim 0 RemnantPart.width), .u32 d.stoneCharge]

def checkPlan (number : Nat) (s : State) : Answer × State :=
  match s.plan? number with
  | none => refused .none s
  | some p =>
    if p.state ≠ .draft then refused .state s
    else match s.slab? p.slab with
    | none => refused .none s
    | some r =>
      if r.state ≠ .available then refused .state s
      else if r.missing then refused .missing s
      else if !lotMet (s.job? p.job) r then refused .lot s
      else match layout (layoutInput r p) with
      | .error f => (⟨.geometry, f.fields⟩, s)
      | .ok d => performed d.checkFields (s.performCheck p d)

/-- CHECK PLAN (R54, R55, R67). -/
def execCheckPlan (number : Nat) (s : State) : Out := hostRequest Kind.checkPlan (checkPlan number) s

/-! ## Release (R56) -/

def releasePlan (number saw : Nat) (s : State) : Answer × State :=
  match Saw.ofNat? saw with
  | none => refused .form s
  | some w =>
    match s.plan? number with
    | none => refused .none s
    | some p =>
      if p.state ≠ .checked then refused .state s
      else if Config.maxQueue ≤ (s.saw w).queue.length then refused .full s
      else match (s.saw w).blade.bind s.blade? with
      | none => refused .blade s
      | some b =>
        if b.health = .exhausted then refused .blade s
        else if p.kerf < b.kerf then refused .kerf s
        else if (s.slab? p.slab).elim false Slab.missing then refused .missing s
        else
          let s := s.updatePlan number fun p => { p with state := .released, saw := some w }
          let s := s.updateSaw w fun r => { r with queue := r.queue ++ [number] }
          performed [] (s.loadHead w)

/-- RELEASE PLAN (R56, R93). -/
def execReleasePlan (number saw : Nat) (s : State) : Out := hostRequest Kind.releasePlan (releasePlan number saw) s

/-! ## Cancel and abandon (R57, R59, R96, R130) -/

/-- The saw's side of a cancellation from RELEASED: with the plan's LOAD pending, UNLOAD goes out while the link is UP, the
pending load is cleared, and a LOADING saw goes on to its next head (R57, R96). -/
def State.cancelLoad (s : State) (w : Saw) (n : Nat) : State :=
  if (s.saw w).pendingLoad = some n then
    let s := (s.unload w n).updateSaw w fun r => { r with pendingLoad := none }
    if (s.saw w).state = .loading then s.goOn w else s
  else s

def cancelPlan (number : Nat) (s : State) : Answer × State :=
  match s.plan? number with
  | none => refused .none s
  | some p =>
    let cancelled (s : State) : State := s.updatePlan number fun p => { p with state := .cancelled }
    match p.state with
    | .draft => performed [] (cancelled s)
    | .checked => performed [] (cancelled (s.undoCheck p))
    | .released =>
      let s := cancelled (s.undoCheck p)
      performed [] (p.saw.elim s fun w => (s.leaveQueue w number).cancelLoad w number)
    | _ => refused .state s

/-- CANCEL PLAN (R57, R96, R97). -/
def execCancelPlan (number : Nat) (s : State) : Out := hostRequest Kind.cancelPlan (cancelPlan number) s

/-- The effects on the records: passes settled, the slab scrapped, the whole basis charged, pieces planned reduced (R59 steps
1 to 3). -/
def State.writeOff (s : State) (p : Plan) : State :=
  let s := (s.updatePlan p.number Plan.giveBackAll).scrapOnAbandon p.slab
  let s := s.charge p.job (Job.chargeStone (p.derived.elim 0 Derived.basisAtCheck))
  s.updateJob p.job (Job.reducePlanned (pieceCount p.strips - p.piecesFinished))

/-- SDP clears the saw (R130, R59 step 4). -/
def State.clearSaw (s : State) (w : Saw) (n : Nat) : State :=
  let s := s.removeFromLine w
  (s.updateSaw w fun r =>
    { r with context := none, outstanding := [], pendingLoad := none, passTime := 0 }).unload w n

/-- The saw goes on by its link: IDLE and its next head with the link UP, OFFLINE with it DOWN (R130). -/
def State.goOnByLink (s : State) (w : Saw) : State :=
  match (s.saw w).link with
  | .up => s.goOn w
  | .down => s.setSawState w .offline

def SawState.inCut : SawState → Bool
  | .cutting => true
  | .holding => true
  | _ => false

def abandonPlan (number : Nat) (s : State) : Answer × State :=
  match s.plan? number with
  | none => refused .none s
  | some p =>
    if p.state ≠ .cutting ∨ p.saw.elim false fun w => (s.saw w).state.inCut then refused .state s
    else
      let s := s.writeOff p
      let s := p.saw.elim s fun w => s.clearSaw w number
      let s := s.updatePlan number fun p => { p with state := .abandoned }
      performed [] (p.saw.elim s fun w => (s.leaveQueue w number).goOnByLink w)

/-- ABANDON PLAN (R59, R130). -/
def execAbandonPlan (number : Nat) (s : State) : Out := hostRequest Kind.abandonPlan (abandonPlan number) s

/-! ## Reading and retiring (R60, R61, R216) -/

/-- A layout's bytes as fields: the kerf, then the strips (R216). -/
def layoutFields (kerf : Nat) (strips : List Strip) : List Field :=
  .u8 kerf :: counted (fun t => .u16 t.width :: counted (fun p => [.u16 p.mark, .u16 p.length]) t.pieces) strips

/-- The finished indications, strip s at bit s − 1 (R216). -/
def finishedBits : List Bool → Nat
  | [] => 0
  | f :: fs => boolCode f + 2 * finishedBits fs

/-- The remnant's fields of a reply, 0 without one (R216). -/
def remnantFields (r : Option RemnantPart) : List Field :=
  [flag r.isSome, .u16 (r.elim 0 RemnantPart.length), .u16 (r.elim 0 RemnantPart.width), .u32 (r.elim 0 RemnantPart.basis)]

/-- The derived part without its pass list, 0 and absent where the plan has none (R60, R216). -/
def derivedFields (d : Option Derived) : List Field :=
  [flag d.isSome, .u8 (d.elim 0 fun d => d.passes.length), .u32 (d.elim 0 Derived.cutLength), .u16 (d.elim 0 Derived.yield)]
    ++ remnantFields (d.bind Derived.remnant)
    ++ [.u32 (d.elim 0 Derived.stoneCharge), .u32 (d.elim 0 Derived.basisAtCheck)]
    ++ counted flawFields ((d.bind Derived.remnant).elim [] RemnantPart.flaws)

/-- The plan record as READ PLAN sends it (R216). -/
def Plan.fields (p : Plan) : List Field :=
  [.u16 p.number, .u16 p.job, .u16 p.slab, .u8 p.state.code, .u8 (p.saw.elim 0 Saw.toNat), .u8 p.stripsFinished,
    .u8 (finishedBits p.finished), .u8 p.piecesFinished, .u16 (p.remnantGiven.getD 0)]
    ++ derivedFields p.derived ++ layoutFields p.kerf p.strips

def readPlan (number : Nat) (s : State) : Answer × State :=
  match s.plan? number with
  | none => refused .none s
  | some p => performed p.fields s

/-- READ PLAN (R60). -/
def execReadPlan (number : Nat) (s : State) : Out := hostRequest Kind.readPlan (readPlan number) s

/-- The 7 bytes of a pass (R216). -/
def Pass.fields (q : Pass) : List Field :=
  [.u8 ((q.strip - 1) + 8 * q.kind.code + 16 * q.state.code), .u16 q.coordinate, .u16 q.length, .u16 q.reached]

def readPassList (number : Nat) (s : State) : Answer × State :=
  match s.plan? number with
  | none => refused .none s
  | some p => performed (.u16 p.number :: counted Pass.fields p.passes) s

/-- READ PASS LIST (R60, R216). -/
def execReadPassList (number : Nat) (s : State) : Out := hostRequest Kind.readPassList (readPassList number) s

/-- A plan in this state has ended (R61). -/
def PlanState.ended : PlanState → Bool
  | .done => true
  | .cancelled => true
  | .abandoned => true
  | _ => false

def retirePlan (number : Nat) (s : State) : Answer × State :=
  match s.plan? number with
  | none => refused .none s
  | some p =>
    if p.state.ended then
      performed [] ((s.updateJob p.job fun j => { j with plans := j.plans.filter fun n => n != number }).withPlans
        (removeBy Plan.number number))
    else refused .state s

/-- RETIRE PLAN (R61). -/
def execRetirePlan (number : Nat) (s : State) : Out := hostRequest Kind.retirePlan (retirePlan number) s

/-! ## Loading, strips and completion (R62 to R65) -/

/-- LOADED reported to PLN: a RELEASED plan becomes CUTTING with its slab on the saw; a CUTTING plan stays as it was (R62). -/
def State.reportLoad (s : State) (n : Nat) : State :=
  match s.plan? n with
  | some p =>
    match p.state with
    | .released => (s.updatePlan n fun p => { p with state := .cutting }).putOnSaw p.slab
    | _ => s
  | none => s

/-- A strip is cut: every rip pass is DONE, and every cross pass of the strip is (R63). -/
def stripCut (passes : List Pass) (strip : Nat) : Bool :=
  passes.all fun q => q.state == .done || q.kind == .cross && q.strip != strip

/-- The finished indications after a DONE, with the pieces of the strips newly finished, from strip `n` (R63). -/
def settleStrips (passes : List Pass) : Nat → List Strip → List Bool → List Bool × Nat
  | n, t :: ts, f :: fs =>
    let r := settleStrips passes (n + 1) ts fs
    let now := !f && stripCut passes n
    ((f || now) :: r.1, (if now then t.pieces.length else 0) + r.2)
  | _, _, fs => (fs, 0)

/-- The strips a DONE completes are finished: indications, pieces finished and the job's pieces cut (R63). -/
def State.finishStrips (s : State) (n : Nat) : State :=
  match s.plan? n with
  | none => s
  | some p =>
    let r := settleStrips p.passes 1 p.strips p.finished
    let s := s.updatePlan n fun p => { p with finished := r.1, piecesFinished := p.piecesFinished + r.2 }
    s.updateJob p.job (Job.addCut r.2)

/-- DONE reported for a pass: DONE with reached its length, then the strips it completes (R48, R63). -/
def State.reportDone (s : State) (n index : Nat) : State :=
  (s.updatePass n index fun q => { q with state := .done, reached := q.length }).finishStrips n

/-- Steps 3 to 5 of the completion chain for a plan with a derived part (R64, R65). -/
def State.settleRemnant (s : State) (p : Plan) (d : Derived) : State :=
  match d.remnant with
  | none => (s.charge p.job (Job.chargeStone d.stoneCharge)).raise .planDone
  | some part =>
    let r := s.createRemnant p.slab part
    match r.1 with
    | some n =>
      let s := r.2.updatePlan p.number fun p => { p with remnantGiven := some n }
      ((s.charge p.job (Job.chargeStone d.stoneCharge)).raise .planDone).raise .remnantMade
    | none => ((r.2.charge p.job (Job.chargeStone d.basisAtCheck)).raise .planDone).raise .stockFull

/-- The completion chain, in the order of R64, and the saw's way on (R97, R110). -/
def State.complete (s : State) (w : Saw) (p : Plan) : State :=
  let s := s.updatePlan p.number fun p => { p with state := .done }
  let s := s.consume p.slab
  let s := p.derived.elim (s.raise .planDone) fun d => s.settleRemnant p d
  ((s.leaveQueue w p.number).unload w p.number).goOn w

end Sys2Proof.Machine
end

