-- ==== Sys2Proof/Machine/Saws.lean ====
section
/-! DEFINITION. SDP: saw requests, saw messages and the events of a saw (spec/05_saw_links_and_pass_dispatch.md and
spec/06_holds_faults_and_resumption.md). -/

namespace Sys2Proof.Machine

/-! ## Requests (R86, R87, R115, R127) -/

def configureSaw (saw demand rate : Nat) (s : State) : Answer × State :=
  match Saw.ofNat? saw with
  | none => refused .form s
  | some w =>
    let demand := clamp 5 120 demand
    let rate := clamp 0 100000 rate
    performed [.u16 demand, .u32 rate] (s.updateSaw w fun r => { r with demand := demand, rate := rate })

/-- CONFIGURE SAW (R86). -/
def execConfigureSaw (saw demand rate : Nat) (s : State) : Out :=
  hostRequest Kind.configureSaw (configureSaw saw demand rate) s

/-- The context's kind, cause and fault count, 0 where there is none (R87). -/
def contextBrief (c : Option Context) : List Field :=
  [.u8 (c.elim 0 fun c => c.kind.code), .u8 (c.elim 0 fun c => c.cause.elim 0 Cause.code), .u8 (c.elim 0 Context.faults)]

/-- The saw record as READ SAW sends it, without the allotment (R87; layout by R211, log 16). -/
def SawRec.fields (r : SawRec) : List Field :=
  [.u8 r.link.code, .u8 r.state.code, .u16 r.demand, .u32 r.rate, .u16 r.maxFeed, .u16 (r.blade.getD 0), flag r.interlock]
    ++ counted (fun n => [.u16 n]) r.queue ++ [.u16 (r.pendingLoad.getD 0)]
    ++ counted (fun o => [.u8 o.tag, .u8 o.index]) r.outstanding ++ [.u8 r.nextTag] ++ contextBrief r.context
    ++ [flag r.meters.isOpen, .u16 r.meters.startAt, .u16 r.meters.time, .u16 r.heartbeat]

def readSaw (saw : Nat) (s : State) : Answer × State :=
  match Saw.ofNat? saw with
  | none => refused .form s
  | some w => performed ((s.saw w).fields ++ [.u16 ((s.wau.allotment.get w).getD 0)]) s

/-- READ SAW (R87). -/
def execReadSaw (saw : Nat) (s : State) : Out := hostRequest Kind.readSaw (readSaw saw) s

/-- A pass part's fields, 0 where it is absent (R115). -/
def partFields (p : Option PassPart) : List Field :=
  [.u16 (p.elim 0 PassPart.plan), .u8 (p.elim 0 PassPart.index), flag (p.elim false fun p => p.tag.isSome),
    .u8 (p.elim 0 fun p => p.tag.getD 0), .u16 (p.elim 0 PassPart.position), .u16 (p.elim 0 PassPart.remaining)]

/-- A context's fields, where one is present (R113, R115; log 17). -/
def Context.fields (c : Context) : List Field :=
  [.u8 c.kind.code, .u8 (c.cause.elim 0 Cause.code)] ++ partFields c.part ++ [.u16 c.time, .u8 c.faults]

def readContext (saw : Nat) (s : State) : Answer × State :=
  match Saw.ofNat? saw with
  | none => refused .form s
  | some w =>
    let r := s.saw w
    performed (flag r.context.isSome :: r.context.elim [] Context.fields ++ [.u16 r.passTime, .u16 (r.holdTimer.getD 0)]) s

/-- READ CONTEXT (R115). -/
def execReadContext (saw : Nat) (s : State) : Out := hostRequest Kind.readContext (readContext saw) s

/-- The saw is resumed through the water: admitted at once when the line is empty and its demand fits, else WAITING at the
tail of the line (R128, R179). -/
def State.seekResume (s : State) (w : Saw) : State :=
  if s.wau.line.isEmpty && s.fits w then ((s.admitSaw w).resumeCut w).settleInterlock State.runPass w
  else (s.withWau (Admission.enqueue w)).setSawState w .waiting

/-- The saw without a pass part returns to the normal path: PRIMED with its window, or IDLE and its head loaded (R127). -/
def State.resumeNormal (s : State) (w : Saw) : State :=
  if (s.headPlan? w).elim false (fun p => p.state == .cutting) && !(s.saw w).outstanding.isEmpty then
    s.setSawState w .primed
  else s.goOn w

/-- The resumption of a context: it is discarded, then resumed with or without its pass part (R127). -/
def State.resumeSaw (s : State) (w : Saw) (c : Context) : State :=
  let s := s.updateSaw w fun r => { r with context := none }
  if c.part.isSome then s.seekResume w else s.resumeNormal w

def resumeSaw (saw : Nat) (s : State) : Answer × State :=
  match Saw.ofNat? saw with
  | none => refused .form s
  | some w =>
    let r := s.saw w
    match r.context with
    | none => refused .state s
    | some c =>
      if r.state ≠ .faulted ∨ r.link = .down then refused .state s
      else if !r.interlock then refused .notReady s
      else if c.part.isSome ∧ s.wau.settings.rating < r.demand then refused .demand s
      else
        let s := s.resumeSaw w c
        performed [.u8 (s.saw w).state.code] s

/-- RESUME SAW (R127 to R129). A FAULTED saw always holds a context; one without is answered STATE (log 19). -/
def execResumeSaw (saw : Nat) (s : State) : Out := hostRequest Kind.resumeSaw (resumeSaw saw) s

/-! ## Silence and HELLO (R90, R91, R122, R126) -/

/-- A saw outside a cut goes OFFLINE: its window is returned and its pending load cleared (R91). -/
def State.goOffline (s : State) (w : Saw) : State :=
  (s.dropWindow w).updateSaw w fun r => { r with pendingLoad := none, state := .offline }

/-- Steps 3 to 5 of link loss during a cut: the LINK context, the window, FAULTED (R122). -/
def State.linkContext (s : State) (w : Saw) : State :=
  ((s.writeContext w .link (some .linkLost) 1).dropWindow w).setSawState w .faulted

/-- Steps 1 and 2 of link loss for a CUTTING or HOLDING saw (R122). -/
def State.stopCut (s : State) (w : Saw) : State :=
  let s := s.updateSaw w fun r => { r with holdTimer := none }
  (s.closeSegment w (s.reached w)).leaveWater State.runPass w

/-- Link silence, by the saw's state (R91, R122). -/
def State.loseLink (s : State) (w : Saw) : State :=
  let s := (s.updateSaw w fun r => { r with link := .down }).raise .sawLink
  match (s.saw w).state with
  | .offline => s
  | .idle => s.goOffline w
  | .loading => s.goOffline w
  | .primed => s.goOffline w
  | .waiting => (s.removeFromLine w).goOffline w
  | .faulted => (s.dropWindow w).updateSaw w fun r => { r with pendingLoad := none }
  | .cutting => (s.stopCut w).linkContext w
  | .holding => (s.stopCut w).linkContext w
  | .held => (s.removeFromLine w).linkContext w

/-- The heartbeat age reaches 30 ds while the link is UP (R91). -/
def linkSilence (w : Saw) (s : State) : State :=
  match (s.saw w).link with
  | .up => (s.updateSaw w fun r => { r with heartbeat := max r.heartbeat Config.silenceAge }).loseLink w
  | .down => s

/-- LINK_SILENCE (R91, R122). -/
def execLinkSilence (w : Saw) (s : State) : Out := event (linkSilence w) s

/-- A saw brought from OFFLINE to IDLE: a head left with an ACTIVE pass makes a LINK context, any other is loaded (R90, R126). -/
def State.wake (s : State) (w : Saw) : State :=
  let s := s.setSawState w .idle
  if (s.headPlan? w).elim false fun p => p.state == .cutting && p.activePass?.isSome then
    (s.updateSaw w fun r =>
      { r with context := some ⟨.link, some .linkLost, (s.passPart? w).map fun p => { p with tag := none }, r.passTime, 1⟩
      }).setSawState w .faulted
  else s.loadHead w

/-- HELLO with the link DOWN brings it UP (R90). -/
def State.linkUp (s : State) (w : Saw) : State :=
  let s := (s.updateSaw w fun r => { r with link := .up }).raise .sawLink
  match (s.saw w).state with
  | .offline => s.wake w
  | _ => s

/-- HELLO: the answer, the max feed, link silence first when the link is UP, then the link comes UP (R89, R90). -/
def hello (w : Saw) (maxFeed : Nat) (s : State) : State :=
  let s := (s.sawFrame w).send w (answerFrame Kind.hello .ok)
  let s := s.updateSaw w fun r => { r with maxFeed := clamp 100 6000 maxFeed }
  let s := match (s.saw w).link with
    | .up => s.loseLink w
    | .down => s
  s.linkUp w

/-- HELLO (R89, R90, R126). -/
def execHello (w : Saw) (maxFeed : Nat) (s : State) : Out := event (hello w maxFeed) s

/-! ## LOADED, START and DONE (R94, R102, R103, R108 to R110, R119) -/

/-- The checks of LOADED (R94). -/
def checkLoaded (w : Saw) (plan : Nat) (s : State) : Option Status :=
  if (s.saw w).pendingLoad ≠ some plan then some .stale
  else if (s.saw w).state ≠ .loading then some .state
  else none

/-- LOADED taken: the load is reported, the window is filled, PRIMED (R94). -/
def loaded (w : Saw) (plan : Nat) (s : State) : State :=
  let s := (s.updateSaw w fun r => { r with pendingLoad := none }).reportLoad plan
  (((s.refill w).refill w)).setSawState w .primed

/-- LOADED (R94, R62). -/
def execLoaded (w : Saw) (plan : Nat) (s : State) : Out := sawMessage w Kind.loaded (checkLoaded w plan) (loaded w plan) s

/-- A tag is in the outstanding set. -/
def SawRec.holds (r : SawRec) (tag : Nat) : Bool := r.outstanding.any fun o => o.tag == tag

/-- The checks of START (R102). -/
def checkStart (w : Saw) (tag : Nat) (s : State) : Option Status :=
  let r := s.saw w
  if r.state ≠ .primed then some .state
  else if !r.holds tag then some .stale
  else if (r.outstanding.head?.map Outstanding.tag) ≠ some tag then some .order
  else if !r.interlock then some .notReady
  else if s.wau.settings.rating < r.demand then some .demand
  else none

/-- START taken: admitted at once, GO; else placed at the tail of the line, WAIT (R103, R179). -/
def start (w : Saw) (tag : Nat) (s : State) : State :=
  if s.wau.line.isEmpty && s.fits w then ((s.admitSaw w).grantGo w).settleInterlock State.runPass w
  else (((s.withWau (Admission.enqueue w)).send w ⟨Kind.wait, none, [.u8 tag]⟩)).setSawState w .waiting

/-- START (R102, R103). -/
def execStart (w : Saw) (tag : Nat) (s : State) : Out := sawMessage w Kind.start (checkStart w tag) (start w tag) s

/-- The checks of DONE (R108). -/
def checkDone (w : Saw) (tag : Nat) (s : State) : Option Status :=
  let r := s.saw w
  if !r.holds tag then some .stale
  else if s.activeTag? w ≠ some tag then some .order
  else if !r.state.inCut then some .state
  else none

/-- Steps 1 to 3 of a DONE: the segment, the pass, the water (R109, R119). -/
def State.finishPass (s : State) (w : Saw) (p : Plan) (q : Pass) : State :=
  let s := s.updateSaw w fun r => { r with holdTimer := none }
  let s := s.closeSegment w q.length
  let s := s.updateSaw w fun r =>
    { r with outstanding := r.outstanding.filter fun o => o.index != q.index, passTime := 0 }
  (s.reportDone p.number q.index).leaveWater State.runPass w

/-- DONE taken: the pass is finished; the plan's last pass runs the completion chain, any other refills the window and leaves
the saw PRIMED (R109, R110, R119). The chain runs after the release (log 22). -/
def done (w : Saw) (s : State) : State :=
  match s.activePass? w with
  | none => s
  | some (p, q) =>
    let s := s.finishPass w p q
    match s.plan? p.number with
    | none => s.setSawState w .primed
    | some p =>
      if p.passes.all fun q => q.state == .done then s.complete w p
      else (s.stagePass w).setSawState w .primed

/-- DONE (R108 to R110, R119). -/
def execDone (w : Saw) (tag : Nat) (s : State) : Out := sawMessage w Kind.done (checkDone w tag) (done w) s

/-! ## HELD, STATUS and the hold timer (R105, R117, R118) -/

/-- The check of HELD (R117). -/
def checkHeld (w : Saw) (tag : Nat) (s : State) : Option Status :=
  if (s.saw w).state ≠ .holding ∨ s.activeTag? w ≠ some tag then some .stale else none

/-- HELD taken, in the order of R117. -/
def held (w : Saw) (position : Nat) (s : State) : State :=
  let s := s.updateSaw w fun r => { r with holdTimer := none }
  let s := s.reportReached w position
  let s := s.closeSegment w position
  let s := s.writeContext w .hold none 0
  let s := (s.setSawState w .held).raise .sawHeld
  (s.withWau (Admission.holdComplete w)).runPass

/-- HELD (R117, R182). -/
def execHeld (w : Saw) (tag position : Nat) (s : State) : Out := sawMessage w Kind.held (checkHeld w tag) (held w position) s

/-- STATUS taken: the position moves reached of a CUTTING or HOLDING saw (R105). -/
def status (w : Saw) (position : Nat) (s : State) : State :=
  if (s.saw w).state.inCut then s.reportReached w position else s

/-- STATUS (R105). -/
def execStatus (w : Saw) (position : Nat) (s : State) : Out :=
  sawMessage w Kind.status (fun _ => none) (status w position) s

/-- The hold timer of a HOLDING saw expires, in the order of R118; in any other state nothing is left to end. -/
def holdTimerExpiry (w : Saw) (s : State) : State :=
  match (s.saw w).state with
  | .holding =>
    let s := s.updateSaw w fun r => { r with holdTimer := none }
    let s := s.withWau (Admission.endHold w)
    let s := s.closeSegment w (s.reached w)
    let s := s.writeContext w .fault (some .holdTimeout) 1
    (s.setSawState w .faulted).raise .sawFault
  | _ => s

/-- HOLD_TIMER_EXPIRY (R118). -/
def execHoldTimerExpiry (w : Saw) (s : State) : Out := event (holdTimerExpiry w) s

/-! ## Faults and the interlock (R101, R120 to R125) -/

/-- The position a FAULT in a cut is handled with: the one given when the tag is absent or names the ACTIVE pass, else the
pass's reached (R120). -/
def State.faultPosition (s : State) (w : Saw) (tag : Option Nat) (position : Nat) : Nat :=
  if tag.isNone ∨ tag = s.activeTag? w then position else s.reached w

/-- A fault of a saw outside a cut: the context, FAULTED, SAW_FAULT (R123). -/
def State.faultOutside (s : State) (w : Saw) (cause : Cause) : State :=
  ((s.writeContext w .fault (some cause) 1).setSawState w .faulted).raise .sawFault

/-- A HOLD context becomes a FAULT context, its pass part and time kept (R124). -/
def Context.fault (cause : Cause) (c : Context) : Context := { c with kind := .fault, cause := some cause, faults := 1 }

/-- A further fault on a FAULTED saw (R125). -/
def Context.faultAgain (cause : Cause) (c : Context) : Context :=
  { c with kind := .fault, cause := some cause, faults := satAdd Config.maxFaults c.faults 1 }

/-- FAULT taken, by the saw's state (R120, R123 to R125). -/
def fault (w : Saw) (tag : Option Nat) (position : Nat) (cause : Cause) (s : State) : State :=
  match (s.saw w).state with
  | .cutting => s.faultInCut State.runPass w (s.faultPosition w tag position) cause
  | .holding => s.faultInCut State.runPass w (s.faultPosition w tag position) cause
  | .idle => s.faultOutside w cause
  | .loading => s.faultOutside w cause
  | .primed => s.faultOutside w cause
  | .waiting => (s.removeFromLine w).faultOutside w cause
  | .held =>
    let s := (s.removeFromLine w).updateSaw w fun r => { r with context := r.context.map (Context.fault cause) }
    (s.setSawState w .faulted).raise .sawFault
  | .faulted => (s.updateSaw w fun r => { r with context := r.context.map (Context.faultAgain cause) }).raise .sawFault
  | .offline => s

/-- FAULT (R120, R123 to R125). -/
def execFault (w : Saw) (tag : Option Nat) (position : Nat) (cause : SawCause) (s : State) : Out :=
  sawMessage w Kind.fault (fun _ => none) (fault w tag position (causeOf cause)) s

/-- The interlock input drops: the field follows, and a CUTTING or HOLDING saw faults at its reached (R101, R121). The event
is the change of the input; a field already not asserted stays as it is (log 9). -/
def interlockDrop (w : Saw) (s : State) : State :=
  if (s.saw w).interlock then
    let s := s.updateSaw w fun r => { r with interlock := false }
    if (s.saw w).state.inCut then s.faultInCut State.runPass w (s.reached w) .safety else s
  else s

/-- INTERLOCK_DROP (R101, R121). -/
def execInterlockDrop (w : Saw) (s : State) : Out := event (interlockDrop w) s

/-- The interlock input is asserted again: the field follows (R101). -/
def interlockReturn (w : Saw) (s : State) : State := s.updateSaw w fun r => { r with interlock := true }

/-- INTERLOCK_RETURN (R101). -/
def execInterlockReturn (w : Saw) (s : State) : Out := event (interlockReturn w) s

/-! ## Frames of a bad form (R89) -/

/-- A good frame of no known kind or a bad form is answered FORM and resets the heartbeat age (R89), on a DOWN link too
(DEDUCED, log 13). -/
def sawMessageMalformed (w : Saw) (kind : Byte) (s : State) : State :=
  (s.sawFrame w).send w (answerFrame kind .form)

/-- SAW_MESSAGE_MALFORMED (R89). -/
def execSawMessageMalformed (w : Saw) (kind : Byte) (s : State) : Out := event (sawMessageMalformed w kind) s

end Sys2Proof.Machine
end

