-- ==== Sys2Proof/Machine/Starts.lean ====
section
/-! DEFINITION. RSV: cold and warm starts, and the supply events (R223, R224, and each chapter's values after a start). -/

namespace Sys2Proof.Machine

/-! ## The cold start (R25, R43, R66, R111, R131, R145, R165, R186, R208, R225) -/

/-- The part after a cold start, with the interlocks and the field supply as they stand. The commands waiting are outside the
part and wait on. -/
def State.coldStart (s : State) (interlock : Four Bool) (fieldSupply : Bool) : State where
  stk := ⟨[], [], [], .reset, Config.firstRemnant⟩
  pln := ⟨[]⟩
  sdp := ⟨interlock.map SawRec.reset, .all [], .all .hunt⟩
  bld := ⟨[]⟩
  pmn := ⟨.all .reset, fieldSupply⟩
  wau := .reset .reset
  jcu := ⟨[]⟩
  olc := .reset
  rsv := { s.rsv with mark := true, latch := false, startKind := .cold }
  pending := s.pending

/-! ## The warm start (R26, R43, R66, R112, R131, R145, R166, R186, R208, R225) -/

/-- The context of a saw after a warm start (R131): a HOLD context becomes POWER, any other is kept, and a saw without one
whose head plan has an ACTIVE pass receives one, with the tag it held where it was CUTTING or HOLDING. -/
def State.warmContext (s : State) (w : Saw) : Option Context :=
  let r := s.saw w
  match r.context with
  | some c =>
    match c.kind with
    | .hold => some { c with kind := .power, cause := some .powerLoss, faults := 1 }
    | _ => some c
  | none =>
    (s.passPart? w).map fun p =>
      ⟨.power, some .powerLoss, some (if r.state.inCut then p else { p with tag := none }), r.passTime, 1⟩

/-- A saw record after a warm start (R112, R131); the interlock follows its input. -/
def State.warmSaw (s : State) (interlock : Four Bool) (w : Saw) : SawRec :=
  let r := s.saw w
  let c := s.warmContext w
  { r with link := .down, state := if c.isSome then .faulted else .offline, pendingLoad := none, outstanding := [],
           context := c, meters := { Meters.reset with remainder := r.meters.remainder }, heartbeat := 0,
           interlock := interlock.get w, holdTimer := none }

/-- The saw records and links after a warm start. -/
def State.warmSaws (s : State) (interlock : Four Bool) : Dispatcher :=
  let f := s.warmSaw interlock
  ⟨⟨f .saw1, f .saw2, f .saw3, f .saw4⟩, .all [], .all .hunt⟩

/-- The stock after a warm start: an audit running is aborted without a reply (R26, R43). -/
def State.warmStock (s : State) : Stock :=
  match s.stk.audit.state with
  | .running => { s.stk with slabs := s.stk.slabs.map fun r => { r with mark := false }, audit := .reset }
  | .idle => s.stk

/-- The part after a warm start, with the inputs as they stand. OLC is cleared before the channels take their new condition, so
a notice they raise stands pending (R224). -/
def State.warmStart (s : State) (inputs : Inputs) : State :=
  let t : State :=
    { s with stk := s.warmStock, sdp := s.warmSaws inputs.interlock, wau := .reset s.wau.settings, olc := .reset,
             pln := ⟨s.pln.plans.map Plan.giveBackAll⟩, rsv := { s.rsv with latch := false, startKind := .warm } }
  t.warmChannels inputs.fieldSupply inputs.raw

/-! ## Starts and supplies (R223, R224) -/

/-- The kind of the next start: COLD when the mark is absent or the latch is set (R223). -/
def Retention.kind (r : Retention) : StartKind := if !r.mark || r.latch then .cold else .warm

/-- The supply or the RESET input as the cause names it (R224, log 20). Main power lost before the retention mark is written
for good leaves none: within a cold start (R223, log 29), or before the reply of WIPE STORE is sent (R226, log 32). -/
def Retention.lose (cause : LossCause) (unwritten : Bool) (r : Retention) : Retention :=
  match cause with
  | .mainPower => { r with mainPower := false, mark := r.mark && !unwritten }
  | .resetAsserted => { r with resetAsserted := true }

/-- The part goes silent: every permit goes off and ATTN is released (R224). -/
def State.goSilent (s : State) (cause : LossCause) (unwritten : Bool) : State :=
  { s with rsv := s.rsv.lose cause unwritten, wau := { s.wau with permit := .all false }, olc := { s.olc with attn := false } }

/-- A start of the kind RSV decides, made whole (R223, R224). -/
def State.start (s : State) (inputs : Inputs) : State :=
  let s := { s with rsv := { s.rsv with backup := inputs.backup } }
  match s.rsv.kind with
  | .cold => s.coldStart inputs.interlock inputs.fieldSupply
  | .warm => s.warmStart inputs

/-- A start, cut short by a new loss of main power where the inputs say so: a cold start has not written its mark then, so the
next start is COLD as well (R223). What else a start cut short has done is the model's choice (log 29). -/
def State.startOrCut (s : State) (inputs : Inputs) : State :=
  let t := s.start inputs
  if inputs.cut then t.goSilent .mainPower (t.rsv.startKind == .cold) else t

def powerReturn (inputs : Inputs) (s : State) : State :=
  State.startOrCut { s with rsv := { s.rsv with mainPower := true } } inputs

/-- POWER_RETURN: main power returns and a start is made (R224), or cut short by a new loss (R223). With RESET still asserted
the part stays silent after it, and the release makes another start (DEDUCED, log 21). -/
def execPowerReturn (inputs : Inputs) (s : State) : Out := .next (powerReturn inputs s)

def resetRelease (inputs : Inputs) (s : State) : State :=
  let s := { s with rsv := { s.rsv with resetAsserted := false } }
  if s.rsv.mainPower then s.startOrCut inputs else s

/-- RESET_RELEASE: a start is made when main power is present (R224), or cut short by a loss of it (R223). -/
def execResetRelease (inputs : Inputs) (s : State) : Out := .next (resetRelease inputs s)

/-- The reply OK of WIPE STORE has not yet been sent whole (R226). -/
def Office.wiping (o : Office) : Bool := decide (o.reply = some ⟨Kind.answer Kind.wipeStore, some .ok, []⟩)

def powerLoss (cause : LossCause) (s : State) : State := s.goSilent cause s.olc.wiping

/-- POWER_LOSS: every permit goes off and ATTN is released; no frame is taken or sent until a start (R224; the causes, log
20). -/
def execPowerLoss (cause : LossCause) (s : State) : Out := .next (powerLoss cause s)

def backupFailure (s : State) : State :=
  { s with rsv := { s.rsv with backup := false, latch := s.rsv.latch || !s.rsv.mainPower } }

/-- BACKUP_FAILURE: the latch is set while main power is off (R223; a supply already low at the loss, log 30). -/
def execBackupFailure (s : State) : Out := .next (backupFailure s)

end Sys2Proof.Machine
end

