-- ==== Sys2Proof/Machine/Office.lean ====
section
/-! DEFINITION. OLC: notices, the part's state, WIPE STORE, and the events of the office link
(spec/11_office_link_notices_and_start_up.md). -/

namespace Sys2Proof.Machine

/-! ## Notices (R220, R221) -/

def readNotices (s : State) : Answer × State :=
  performed [.u16 s.olc.pending.toNat, .u16 s.olc.enable.toNat, flag s.olc.master]
    (State.settleAttn { s with olc := { s.olc with pending := 0#16 } })

/-- READ NOTICES (R220). -/
def execReadNotices (s : State) : Out := hostRequest Kind.readNotices readNotices s

def setNotices (enable : BitVec 16) (master : Nat) (s : State) : Answer × State :=
  if enable &&& 0xF000#16 ≠ 0#16 ∨ 1 < master then refused .form s
  else performed [] (State.settleAttn { s with olc := { s.olc with enable := enable, master := master == 1 } })

/-- SET NOTICES (R221). -/
def execSetNotices (enable : BitVec 16) (master : Nat) (s : State) : Out :=
  hostRequest Kind.setNotices (setNotices enable master) s

/-! ## The whole part (R222, R226) -/

/-- The state as READ STATE sends it (R222). -/
def State.fields (s : State) : List Field :=
  [.u8 s.rsv.startKind.code, flag s.rsv.backup, .u16 s.stk.slabs.length, .u16 s.stk.materials.length,
    .u16 s.pln.plans.length, .u16 s.bld.blades.length, .u16 s.jcu.jobs.length]
    ++ Saw.all.flatMap (fun w => [.u8 (s.saw w).link.code, .u8 (s.saw w).state.code])
    ++ [.u16 s.wau.capacity, .u8 s.stk.audit.state.code]

/-- READ STATE sees the backup supply as it is at that moment (R222, R223). -/
def readState (backup : Bool) (s : State) : Answer × State :=
  let s := { s with rsv := { s.rsv with backup := backup } }
  performed s.fields s

/-- READ STATE (R222). -/
def execReadState (backup : Bool) (s : State) : Out := hostRequest Kind.readState (readState backup) s

/-- A saw holds an allotment or is HOLDING (R226). -/
def State.watered (s : State) : Bool :=
  Saw.all.any fun w => (s.wau.allotment.get w).isSome || (s.saw w).state == .holding

/-- The store is wiped: the mark is removed, a cold start is made within the request with the inputs as last seen, and the mark
is written again (R226, log 27). What a loss of main power does before the reply is sent stands in `powerLoss` (log 32). -/
def wipeStore (s : State) : Answer × State :=
  if s.watered then refused .state s
  else performed [] (s.coldStart (s.sdp.saws.map SawRec.interlock) s.pmn.fieldSupply)

/-- WIPE STORE (R226). -/
def execWipeStore (s : State) : Out := hostRequest Kind.wipeStore wipeStore s

/-! ## Frames that are no request, and the slot (R209, R212, R213) -/

def unknownRequest (s : State) : Answer × State := refused .form s

/-- UNKNOWN_REQUEST: answered FORM with its kind byte, top bit set (R211, R212). -/
def execUnknownRequest (kind : Byte) (s : State) : Out := hostRequest kind unknownRequest s

/-- A request frame taken while the slot is SERVING; none is while it is READY (R213, log 9). -/
def busyRequest (kind : Byte) (s : State) : State :=
  match s.olc.slot with
  | .serving => s.oweBusy kind
  | .ready => s

/-- BUSY_REQUEST (R213). -/
def execBusyRequest (kind : Byte) (s : State) : Out := event (busyRequest kind) s

/-- The last byte of the reply, else of the first owed answer, has gone out; the slot is READY when nothing remains (R213). -/
def Office.sent (o : Office) : Office :=
  let o := match o.reply with
    | some _ => { o with reply := none }
    | none => { o with owed := o.owed.tail }
  { o with slot := if o.owed.isEmpty then .ready else .serving }

/-- The end of a frame the part sends to the host; with the slot READY none is being sent (R213, log 9). -/
def replySent (s : State) : State :=
  match s.olc.slot with
  | .serving => { s with olc := s.olc.sent }
  | .ready => s

/-- REPLY_SENT (R213). -/
def execReplySent (s : State) : Out := event replySent s

/-- A dropped frame is not answered and changes nothing but the receiver, which is in HUNT (R209). -/
def badFrame (l : Link) (s : State) : State := s.setReceiver l .hunt

/-- BAD_FRAME (R209, R89). -/
def execBadFrame (l : Link) (s : State) : Out := event (badFrame l) s

/-- A gap drops the frame; the byte that ends it is examined in HUNT (R209). -/
def byteGapTimeout (l : Link) (b : Byte) (s : State) : State := s.setReceiver l (Phase.hunt.take b).1

/-- BYTE_GAP_TIMEOUT (R209). -/
def execByteGapTimeout (l : Link) (b : Byte) (s : State) : Out := event (byteGapTimeout l b) s

end Sys2Proof.Machine
end

