-- ==== Sys2Proof/Machine/Plant.lean ====
section
/-! DEFINITION. WAU's requests (spec/09_water_admission.md) and the metering of a segment (R163, R204). -/

namespace Sys2Proof.Machine

/-! ## Plant settings (R167, R168, R185) -/

/-- The settings a SET PLANT writes: each value clamped, the levels in the order of R168. -/
def clampSettings (p : Settings) : Settings :=
  let h := clamp 0 900 p.hold
  let r := clamp (h + 50) 1000 p.restart
  { rating := clamp 0 600 p.rating
    hold := h
    restart := r
    reduce := clamp r 1000 p.reduce
    turbidity := clamp 10 4000 p.turbidity
    sump := clamp 100 1000 p.sump
    waterRate := clamp 0 100000 p.waterRate
    grace := clamp 5 120 p.grace }

/-- The settings as fields, in the order of R167. -/
def Settings.fields (p : Settings) : List Field :=
  [.u16 p.rating, .u16 p.hold, .u16 p.restart, .u16 p.reduce, .u16 p.turbidity, .u16 p.sump, .u32 p.waterRate, .u16 p.grace]

def setPlant (p : Settings) (s : State) : Answer × State :=
  let p := clampSettings p
  performed p.fields (s.withWau fun a => { a with settings := p }).evaluate

/-- SET PLANT (R168). -/
def execSetPlant (rating hold restart reduce turbidity sump waterRate grace : Nat) (s : State) : Out :=
  hostRequest Kind.setPlant (setPlant ⟨rating, hold, restart, reduce, turbidity, sump, waterRate, grace⟩) s

/-- The plant as READ PLANT sends it (R185; the width of the three factors is a choice, log 26). -/
def Admission.fields (a : Admission) : List Field :=
  a.settings.fields ++ [.u8 a.level.code] ++ a.used0.fields ++ a.used1.fields ++ a.used2.fields
    ++ [.u16 a.lf, .u16 a.tf, .u16 a.sf, .u16 a.capacity, .u16 a.granted]
    ++ (Saw.all.map fun w => .u16 ((a.allotment.get w).getD 0))
    ++ counted (fun w => [.u8 w.toNat]) a.order
    ++ counted (fun e => [.u8 e.saw.toNat, .u8 e.kind.code]) a.line

def readPlant (s : State) : Answer × State := performed s.wau.fields s

/-- READ PLANT (R185). -/
def execReadPlant (s : State) : Out := hostRequest Kind.readPlant readPlant s

/-! ## Metering (R163, R204) -/

/-- The flow of an interval in 0.1 L/min: the value offered, or the demand; a negative value is taken as 0 (R163). -/
def State.intervalFlow (s : State) (w : Saw) : Nat :=
  match (s.channel (flowChannel w)).offers.seen with
  | some v => v.toNat
  | none => (s.saw w).demand * 10

/-- The interval's flow is the demand fallback (R163). -/
def State.estimated (s : State) (w : Saw) : Bool := (s.channel (flowChannel w)).offers.seen.isNone

/-- The meters after one interval (R106, R163). -/
def Meters.tick (f : Nat) (m : Meters) : Meters :=
  { m with flow := satAdd Config.maxS m.flow f, time := satAdd Config.maxTime m.time 1 }

/-- The water-estimated flag of the job of the head plan is set (R204). -/
def State.markEstimated (s : State) (w : Saw) : State :=
  match s.headPlan? w with
  | some p => s.updateJob p.job fun j => { j with waterEstimated := true }
  | none => s

/-- One metering interval of an open segment while the saw is CUTTING or HOLDING (R106, R163). -/
def meteringInterval (w : Saw) (s : State) : State :=
  let r := s.saw w
  if r.meters.isOpen ∧ (r.state = .cutting ∨ r.state = .holding) then
    let f := s.intervalFlow w
    let s' := s.updateSaw w fun r => { r with meters := r.meters.tick f }
    if s.estimated w then s'.markEstimated w else s'
  else s

/-- METERING_INTERVAL (R163, R204). -/
def execMeteringInterval (w : Saw) (s : State) : Out := event (meteringInterval w) s

end Sys2Proof.Machine
end

