-- ==== Sys2Proof/Machine/Racks.lean ====
section
/-! DEFINITION. STK: the rack map's requests and the stock audit (spec/02_racks_and_stock_audit.md). -/

namespace Sys2Proof.Machine

def readRack (rack : Nat) (s : State) : Answer × State :=
  if !within 1 32 rack then refused .form s
  else performed ((List.range 12).map fun i => .u16 ((s.rackAt? ⟨rack, i + 1⟩).getD 0)) s

/-- READ RACK (R28). -/
def execReadRack (rack : Nat) (s : State) : Out := hostRequest Kind.readRack (readRack rack) s

/-- A place's two fields: within the racks, and both 0 or neither (R29, R34). -/
def placeForm (rack position : Nat) : Bool :=
  decide (rack ≤ 32) && decide (position ≤ 12) && (decide (rack = 0) == decide (position = 0))

/-- The place of two fields; rack 0 with position 0 is the floor (R29). -/
def placeOf (rack position : Nat) : Option Place := if rack = 0 then none else some ⟨rack, position⟩

/-- The slab may be moved and verified: it is AVAILABLE or RESERVED (R29, R34). -/
def Slab.inStock (r : Slab) : Bool := r.state == .available || r.state == .reserved

/-- The slab's place becomes the target, its missing flag is cleared, and it is sighted where an audit marked it (R29, R30,
R34, R36). -/
def State.place (s : State) (n : Nat) (target : Option Place) : State :=
  ((s.setPlace n target).updateSlab n fun r => { r with missing := false }).sighted n

/-- The slab other than `n` that a target position names. -/
def State.other? (s : State) (n : Nat) (target : Option Place) : Option Nat :=
  match target with
  | some p => (s.rackAt? p).filter fun m => m != n
  | none => none

def moveSlab (number rack position : Nat) (s : State) : Answer × State :=
  if !placeForm rack position then refused .form s
  else match s.slab? number with
  | none => refused .none s
  | some r =>
    if !r.inStock then refused .state s
    else if (s.other? number (placeOf rack position)).isSome then refused .occupied s
    else performed [] (s.place number (placeOf rack position))

/-- MOVE SLAB (R29, R30). -/
def execMoveSlab (number rack position : Nat) (s : State) : Out :=
  hostRequest Kind.moveSlab (moveSlab number rack position) s

def verifySlab (number rack position : Nat) (s : State) : Answer × State :=
  if !placeForm rack position then refused .form s
  else match s.slab? number with
  | none => refused .none s
  | some r =>
    if !r.inStock then refused .state s
    else
      let displaced := s.other? number (placeOf rack position)
      let s := displaced.elim s fun m => s.setPlace m none
      performed [.u16 (displaced.getD 0)] (s.place number (placeOf rack position))

/-- VERIFY SLAB (R34 to R36). -/
def execVerifySlab (number rack position : Nat) (s : State) : Out :=
  hostRequest Kind.verifySlab (verifySlab number rack position) s

/-! ## The audit -/

/-- A span of racks in range (R31, R32). -/
def Span.form (p : Span) : Bool := within 1 32 p.first && within 1 32 p.last && decide (p.first ≤ p.last)

/-- A rack lies in a span (R31). -/
def Span.holds (p : Span) (rack : Nat) : Bool := decide (p.first ≤ rack) && decide (rack ≤ p.last)

/-- The slab is marked by an audit over the spans: in stock, with a place in one of them (R32). -/
def Slab.walked (spans : List Span) (r : Slab) : Bool :=
  r.inStock && r.place.elim false fun p => spans.any fun sp => Span.holds sp p.rack

/-- Every mark is removed, the spans are cleared, both counts are 0 and the audit is IDLE (R38, R39). -/
def State.closeAudit (s : State) : State :=
  (s.withSlabs fun rs => rs.map fun r => { r with mark := false }).withAudit fun _ => .reset

/-- The audit starts over the spans from the stock as it stands (R32). -/
def State.openAudit (s : State) (spans : List Span) : State :=
  (s.withSlabs fun rs => rs.map fun r => { r with mark := r.walked spans }).withAudit fun _ =>
    ⟨.running, spans, (s.stk.slabs.filter (Slab.walked spans)).length, 0⟩

def startAudit (spans : List Span) (s : State) : Answer × State :=
  if spans.length = 0 ∨ 3 < spans.length ∨ !spans.all Span.form then refused .form s
  else
    let s := match s.stk.audit.state with
      | .running => s.closeAudit
      | .idle => s
    let s := s.openAudit spans
    performed [.u16 s.stk.audit.marked] s

/-- START AUDIT (R32, R33). -/
def execStartAudit (spans : List Span) (s : State) : Out := hostRequest Kind.startAudit (startAudit spans) s

/-- A slab still marked is declared missing: the flag is set and the place cleared (R38). -/
def Slab.declareMissing (r : Slab) : Slab := if r.mark then { r with missing := true, place := none } else r

/-- The rack positions of the slabs still marked are emptied (R38). -/
def State.declareMissing (s : State) : State :=
  (s.withRackMap fun es => es.filter fun e => !(s.slab? e.slab).elim false Slab.mark).withSlabs
    (List.map Slab.declareMissing)

def endAudit (s : State) : Answer × State :=
  match s.stk.audit.state with
  | .idle => refused .state s
  | .running =>
    performed [.u16 s.stk.audit.marked, .u16 s.stk.audit.verified] (s.declareMissing.closeAudit.raise .auditEnded)

/-- END AUDIT (R38). -/
def execEndAudit (s : State) : Out := hostRequest Kind.endAudit endAudit s

def abortAudit (s : State) : Answer × State :=
  match s.stk.audit.state with
  | .idle => refused .state s
  | .running => performed [.u16 s.stk.audit.marked, .u16 s.stk.audit.verified] s.closeAudit

/-- ABORT AUDIT (R39). -/
def execAbortAudit (s : State) : Out := hostRequest Kind.abortAudit abortAudit s

def readAudit (s : State) : Answer × State :=
  let a := s.stk.audit
  performed (.u8 a.state.code :: counted (fun p => [.u8 p.first, .u8 p.last]) a.spans ++ [.u16 a.marked, .u16 a.verified]) s

/-- READ AUDIT (R40). -/
def execReadAudit (s : State) : Out := hostRequest Kind.readAudit readAudit s

end Sys2Proof.Machine
end

