-- ==== Sys2Proof/Machine/Time.lean ====
section
/-! DEFINITION. What reaches the part without a command: a byte on a link (R209), and a tick of 100 ms (log 5). Both only put
commands into the queue and move what runs by itself: receivers, timers, the transmitters of the saw links. -/

namespace Sys2Proof.Machine

/-! ## Bytes (R209) -/

/-- The receiver of a link. -/
def State.receiver (s : State) : Link → Phase
  | .office => s.olc.receiver
  | .saw w => s.sdp.receiver.get w

/-- A command joins the queue. -/
def State.enqueue (s : State) (i : Instr) : State := { s with pending := s.pending ++ [i] }

/-- A byte arrives on a link: the receiver takes it, and a good frame joins the queue as its command; a dropped frame leaves
nothing but the receiver in HUNT (R209). The inputs give the readings a request takes with it (log 8). A part that does not
run takes no byte (R224). -/
def State.lineByte (s : State) (inputs : Inputs) (l : Link) (b : Byte) : State :=
  if s.running then
    let r := (s.receiver l).take b
    let s := s.setReceiver l r.1
    match r.2 with
    | .none => s
    | .good body => s.enqueue (commandOf inputs l body)
    | .dropped => s
  else s

/-- Bytes arriving one after the other without a gap. -/
def State.lineBytes (s : State) (inputs : Inputs) (l : Link) : List Byte → State
  | [] => s
  | b :: bs => (s.lineByte inputs l b).lineBytes inputs l bs

/-! ## A tick of 100 ms (logs 5, 6, 7) -/

/-- The timers of a saw after 100 ms (R89, R114). -/
def SawRec.age (r : SawRec) : SawRec :=
  { r with heartbeat := satAdd Config.maxAge r.heartbeat 1, holdTimer := r.holdTimer.map fun n => n - 1 }

/-- A running grace timer after 100 ms (R153). -/
def Grace.age : Grace → Grace
  | .running n => .running (n - 1)
  | .stopped => .stopped
  | .expired => .expired

/-- The events of a saw that fall at a tick: metering, expiry, silence (R91, R106, R118). -/
def SawRec.due (w : Saw) (r : SawRec) : List Instr :=
  (if r.meters.isOpen && r.state.inCut then [.meteringInterval w] else [])
    ++ (if r.holdTimer == some 0 then [.holdTimerExpiry w] else [])
    ++ (if r.link == .up && decide (Config.silenceAge ≤ r.heartbeat) then [.linkSilence w] else [])

/-- The event of a channel that falls at a tick: the end of grace (R153). -/
def Channel.due (c : Chan) (r : Channel) : List Instr :=
  match r.grace with
  | .running 0 => [.graceExpiry c]
  | _ => []

/-- The timers moved, and the frames queued for the saws gone out (log 7). -/
def State.age (s : State) : State :=
  { s with sdp := { s.sdp with saws := s.sdp.saws.map SawRec.age, queued := .all [] }
           pmn := { s.pmn with channels := s.pmn.channels.map fun c => { c with grace := c.grace.age } } }

/-- The events that fall at a tick, in a fixed order: saw by saw, channel by channel, then the evaluation (log 6). -/
def State.due (s : State) : List Instr :=
  Saw.all.flatMap (fun w => (s.saw w).due w) ++ Chan.all.flatMap (fun c => (s.channel c).due c) ++ [.capacityEvaluation]

/-- One tick of 100 ms: the timers move and the events due join the queue; nothing moves while the part does not run (R224). -/
def State.tick (s : State) : State :=
  if s.running then
    let s := s.age
    { s with pending := s.pending ++ s.due }
  else s

end Sys2Proof.Machine
end

