-- ==== Sys2Proof/Machine/Dispatch.lean ====
section
/-! DEFINITION. One arm per command: each calls the command's meaning. -/

namespace Sys2Proof.Machine

def exec (i : Instr) (s : State) : Host.Outcome State Fault Refusal :=
  match i with
  | .defineMaterial code hardness feed => Sys2Proof.Machine.execDefineMaterial code hardness feed s
  | .dropMaterial code => Sys2Proof.Machine.execDropMaterial code s
  | .readMaterial code => Sys2Proof.Machine.execReadMaterial code s
  | .createSlab number material thickness lotNumber lotSeq length width basis flaws => Sys2Proof.Machine.execCreateSlab number material thickness lotNumber lotSeq length width basis flaws s
  | .amendSlab number material thickness lotNumber lotSeq basis flaws => Sys2Proof.Machine.execAmendSlab number material thickness lotNumber lotSeq basis flaws s
  | .scrapSlab number => Sys2Proof.Machine.execScrapSlab number s
  | .retireSlab number => Sys2Proof.Machine.execRetireSlab number s
  | .readSlab number => Sys2Proof.Machine.execReadSlab number s
  | .findSlabs material thickness minLength minWidth lotNumber => Sys2Proof.Machine.execFindSlabs material thickness minLength minWidth lotNumber s
  | .readRack rack => Sys2Proof.Machine.execReadRack rack s
  | .moveSlab number rack position => Sys2Proof.Machine.execMoveSlab number rack position s
  | .startAudit spans => Sys2Proof.Machine.execStartAudit spans s
  | .verifySlab number rack position => Sys2Proof.Machine.execVerifySlab number rack position s
  | .endAudit => Sys2Proof.Machine.execEndAudit s
  | .abortAudit => Sys2Proof.Machine.execAbortAudit s
  | .readAudit => Sys2Proof.Machine.execReadAudit s
  | .createPlan number job slab kerf strips => Sys2Proof.Machine.execCreatePlan number job slab kerf strips s
  | .revisePlan number kerf strips => Sys2Proof.Machine.execRevisePlan number kerf strips s
  | .checkPlan number => Sys2Proof.Machine.execCheckPlan number s
  | .releasePlan number saw => Sys2Proof.Machine.execReleasePlan number saw s
  | .cancelPlan number => Sys2Proof.Machine.execCancelPlan number s
  | .abandonPlan number => Sys2Proof.Machine.execAbandonPlan number s
  | .readPlan number => Sys2Proof.Machine.execReadPlan number s
  | .readPassList number => Sys2Proof.Machine.execReadPassList number s
  | .retirePlan number => Sys2Proof.Machine.execRetirePlan number s
  | .configureSaw saw demand rate => Sys2Proof.Machine.execConfigureSaw saw demand rate s
  | .readSaw saw => Sys2Proof.Machine.execReadSaw saw s
  | .readContext saw => Sys2Proof.Machine.execReadContext saw s
  | .resumeSaw saw => Sys2Proof.Machine.execResumeSaw saw s
  | .addBlade number kerf price life => Sys2Proof.Machine.execAddBlade number kerf price life s
  | .amendBlade number price life => Sys2Proof.Machine.execAmendBlade number price life s
  | .fitBlade number saw => Sys2Proof.Machine.execFitBlade number saw s
  | .removeBlade saw => Sys2Proof.Machine.execRemoveBlade saw s
  | .retireBlade number => Sys2Proof.Machine.execRetireBlade number s
  | .readBlade number => Sys2Proof.Machine.execReadBlade number s
  | .setChannel channel range filter low high raw => Sys2Proof.Machine.execSetChannel channel range filter low high raw s
  | .readChannel channel => Sys2Proof.Machine.execReadChannel channel s
  | .calBegin set => Sys2Proof.Machine.execCalBegin set s
  | .calPoint set point => Sys2Proof.Machine.execCalPoint set point s
  | .calEnd set mode => Sys2Proof.Machine.execCalEnd set mode s
  | .calAbort set => Sys2Proof.Machine.execCalAbort set s
  | .setPlant rating hold restart reduce turbidity sump waterRate grace => Sys2Proof.Machine.execSetPlant rating hold restart reduce turbidity sump waterRate grace s
  | .readPlant => Sys2Proof.Machine.execReadPlant s
  | .openJob number lotNumber quote => Sys2Proof.Machine.execOpenJob number lotNumber quote s
  | .amendJob number quote lotNumber => Sys2Proof.Machine.execAmendJob number quote lotNumber s
  | .readJob number => Sys2Proof.Machine.execReadJob number s
  | .closeJob number => Sys2Proof.Machine.execCloseJob number s
  | .retireJob number => Sys2Proof.Machine.execRetireJob number s
  | .readNotices => Sys2Proof.Machine.execReadNotices s
  | .setNotices enable master => Sys2Proof.Machine.execSetNotices enable master s
  | .readState backup => Sys2Proof.Machine.execReadState backup s
  | .wipeStore => Sys2Proof.Machine.execWipeStore s
  | .unknownRequest kind => Sys2Proof.Machine.execUnknownRequest kind s
  | .busyRequest kind => Sys2Proof.Machine.execBusyRequest kind s
  | .replySent => Sys2Proof.Machine.execReplySent s
  | .badFrame link => Sys2Proof.Machine.execBadFrame link s
  | .byteGapTimeout link byte => Sys2Proof.Machine.execByteGapTimeout link byte s
  | .hello w maxFeed => Sys2Proof.Machine.execHello w maxFeed s
  | .loaded w plan => Sys2Proof.Machine.execLoaded w plan s
  | .start w tag => Sys2Proof.Machine.execStart w tag s
  | .done w tag => Sys2Proof.Machine.execDone w tag s
  | .held w tag position => Sys2Proof.Machine.execHeld w tag position s
  | .fault w tag position cause => Sys2Proof.Machine.execFault w tag position cause s
  | .status w position => Sys2Proof.Machine.execStatus w position s
  | .sawMessageMalformed w kind => Sys2Proof.Machine.execSawMessageMalformed w kind s
  | .linkSilence w => Sys2Proof.Machine.execLinkSilence w s
  | .holdTimerExpiry w => Sys2Proof.Machine.execHoldTimerExpiry w s
  | .interlockDrop w => Sys2Proof.Machine.execInterlockDrop w s
  | .interlockReturn w => Sys2Proof.Machine.execInterlockReturn w s
  | .channelSample c raw => Sys2Proof.Machine.execChannelSample c raw s
  | .graceExpiry c => Sys2Proof.Machine.execGraceExpiry c s
  | .fieldSupplyLoss => Sys2Proof.Machine.execFieldSupplyLoss s
  | .fieldSupplyReturn raw => Sys2Proof.Machine.execFieldSupplyReturn raw s
  | .capacityEvaluation => Sys2Proof.Machine.execCapacityEvaluation s
  | .meteringInterval w => Sys2Proof.Machine.execMeteringInterval w s
  | .resetRelease inputs => Sys2Proof.Machine.execResetRelease inputs s
  | .powerReturn inputs => Sys2Proof.Machine.execPowerReturn inputs s
  | .powerLoss cause => Sys2Proof.Machine.execPowerLoss cause s
  | .backupFailure => Sys2Proof.Machine.execBackupFailure s

end Sys2Proof.Machine
end

