-- ==== Sys2Proof/Safety.lean ====
section
/-! DEFINITION. What claims about the part are stated with: the laws every step keeps, the conditions under which a request or
message is taken, and the states that answer them. -/

namespace Sys2Proof.Machine

/-! ## Laws of the whole state -/

/-- ATTN is asserted exactly while the part runs, the master enable is on and some notice is both pending and enabled (R219,
R224). -/
def AttnLaw (s : State) : Prop := s.olc.attn = (s.running && s.olc.calls)

/-- The water records and the saw states agree (R88, R174, R175, R176, R184), and the allotments never exceed the capacity, nor
the capacity the rating (R174). -/
structure WaterLaw (s : State) : Prop where
  /-- A saw holds an allotment exactly while it is CUTTING. -/
  allotted : ∀ w, (s.wau.allotment.get w).isSome = true ↔ (s.saw w).state = .cutting
  /-- A permit is on exactly while the part runs and the saw holds an allotment or is HOLDING. -/
  permit : ∀ w, s.wau.permit.get w = true ↔
    s.running = true ∧ ((s.wau.allotment.get w).isSome = true ∨ (s.saw w).state = .holding)
  /-- The admission order names the saws that are CUTTING, HOLDING or HELD. -/
  ordered : ∀ w, w ∈ s.wau.order ↔
    (s.saw w).state = .cutting ∨ (s.saw w).state = .holding ∨ (s.saw w).state = .held
  /-- A STARTED entry stands in the line exactly for a WAITING saw. -/
  started : ∀ w, ⟨w, .started⟩ ∈ s.wau.line ↔ (s.saw w).state = .waiting
  /-- A HELD entry stands in the line exactly for a HELD saw. -/
  held : ∀ w, ⟨w, .held⟩ ∈ s.wau.line ↔ (s.saw w).state = .held
  /-- No saw stands in the admission order twice. -/
  orderNodup : s.wau.order.Nodup
  /-- No saw stands in the line twice. -/
  lineNodup : (s.wau.line.map LineEntry.saw).Nodup
  /-- The sum of the allotments is at most the capacity. -/
  granted : s.wau.granted ≤ s.wau.capacity
  /-- The capacity is at most the rating. -/
  capacity : s.wau.capacity ≤ s.wau.settings.rating

/-- The saws' queues and the plans agree (R49, R85, R92): a plan on a queue is on record, RELEASED or CUTTING, and names that saw;
a RELEASED or CUTTING plan stands in the queue of the saw it names, a CUTTING one at its head; a pending load names the head; no
queue holds a plan twice, nor more than 4. -/
structure QueueLaw (s : State) : Prop where
  queued : ∀ w n, n ∈ (s.saw w).queue →
    ∃ p, s.plan? n = some p ∧ p.saw = some w ∧ (p.state = .released ∨ p.state = .cutting)
  placed : ∀ n p, s.plan? n = some p → p.state = .released ∨ p.state = .cutting →
    ∃ w, p.saw = some w ∧ n ∈ (s.saw w).queue
  cutting : ∀ n p w, s.plan? n = some p → p.state = .cutting → p.saw = some w → (s.saw w).queue.head? = some n
  load : ∀ w n, (s.saw w).pendingLoad = some n → (s.saw w).queue.head? = some n
  once : ∀ w, (s.saw w).queue.Nodup
  fits : ∀ w, (s.saw w).queue.length ≤ Config.maxQueue

/-- The saws, the plans and the slabs agree on the work in hand (R8, R88, R91, R113). -/
structure WorkLaw (s : State) : Prop where
  /-- A saw PRIMED, WAITING, CUTTING, HOLDING or HELD, or with a context that has a pass part, has a CUTTING head plan. -/
  working : ∀ w, (s.saw w).state = .primed ∨ (s.saw w).state = .waiting ∨ (s.saw w).state = .cutting ∨
      (s.saw w).state = .holding ∨ (s.saw w).state = .held ∨ ((s.saw w).context.bind Context.part).isSome = true →
    ∃ p, s.headPlan? w = some p ∧ p.state = .cutting
  /-- A context stands exactly for a HELD and for a FAULTED saw. -/
  context : ∀ w, (s.saw w).context.isSome = true ↔ (s.saw w).state = .held ∨ (s.saw w).state = .faulted
  /-- The pass of a HELD saw stays ACTIVE. -/
  held : ∀ w, (s.saw w).state = .held → (s.activePass? w).isSome = true
  /-- An OFFLINE saw's link is DOWN, and a saw whose link is DOWN is OFFLINE or FAULTED. -/
  link : ∀ w, ((s.saw w).state = .offline → (s.saw w).link = .down) ∧
    ((s.saw w).link = .down → (s.saw w).state = .offline ∨ (s.saw w).state = .faulted)
  /-- A plan that is not yet CUTTING has no ACTIVE pass. -/
  fresh : ∀ n p, s.plan? n = some p → p.state = .draft ∨ p.state = .checked ∨ p.state = .released →
    ∀ q ∈ p.passes, q.state ≠ .active
  /-- The slab of a CHECKED or RELEASED plan is RESERVED to it, and the slab of a CUTTING plan is ON_SAW, reserved to it. -/
  reserved : ∀ n p, s.plan? n = some p → p.state = .checked ∨ p.state = .released →
    ∃ r, s.slab? p.slab = some r ∧ r.state = .reserved ∧ r.plan = some n
  onSaw : ∀ n p, s.plan? n = some p → p.state = .cutting →
    ∃ r, s.slab? p.slab = some r ∧ r.state = .onSaw ∧ r.plan = some n
  /-- A slab RESERVED or ON_SAW has such a plan; any other slab names no reserving plan. -/
  holder : ∀ n r, s.slab? n = some r → r.state = .reserved ∨ r.state = .onSaw →
    ∃ m p, r.plan = some m ∧ s.plan? m = some p ∧ p.slab = n ∧
      (r.state = .reserved → p.state = .checked ∨ p.state = .released) ∧ (r.state = .onSaw → p.state = .cutting)
  free : ∀ n r, s.slab? n = some r → r.state ≠ .reserved → r.state ≠ .onSaw → r.plan = none

/-- A list of records whose numbers rise strictly: no two carry one number. -/
def Rising {α : Type} (key : α → Nat) : List α → Prop
  | [] => True
  | x :: xs => (∀ y ∈ xs, key x < key y) ∧ Rising key xs

/-- Every table holds at most its records, no two of one number (R2, R6, R44, R132, R187), and the remnant counter stands in its
range (R17). -/
structure TableLaw (s : State) : Prop where
  slabs : Rising Slab.number s.stk.slabs
  slabsFit : s.stk.slabs.length ≤ Config.maxSlabs
  materials : Rising Material.code s.stk.materials
  materialCodes : ∀ m ∈ s.stk.materials, m.code ≤ 31
  plans : Rising Plan.number s.pln.plans
  plansFit : s.pln.plans.length ≤ Config.maxPlans
  blades : Rising Blade.number s.bld.blades
  bladesFit : s.bld.blades.length ≤ Config.maxBlades
  jobs : Rising Job.number s.jcu.jobs
  jobsFit : s.jcu.jobs.length ≤ Config.maxJobs
  counter : Config.firstRemnant ≤ s.stk.counter ∧ s.stk.counter ≤ Config.lastRemnant

/-- The rack map, the place fields and the audit record agree (R8, R27, R31). -/
structure RackLaw (s : State) : Prop where
  /-- Each of the 384 positions holds one slab at most. -/
  positions : Rising RackEntry.key s.stk.rackMap
  inRacks : ∀ e ∈ s.stk.rackMap, (1 ≤ e.place.rack ∧ e.place.rack ≤ 32) ∧ (1 ≤ e.place.position ∧ e.place.position ≤ 12)
  /-- A position names a slab exactly when that slab is on record with the position as its place. -/
  agree : ∀ p n, s.rackAt? p = some n ↔ ∃ r, s.slab? n = some r ∧ r.place = some p
  /-- A slab ON_SAW, CONSUMED or SCRAPPED has no place, no mark and no missing flag. -/
  gone : ∀ n r, s.slab? n = some r → r.state = .onSaw ∨ r.state = .consumed ∨ r.state = .scrapped →
    r.place = none ∧ r.mark = false ∧ r.missing = false
  /-- The marked count is the number of slabs that carry the mark. -/
  marked : s.stk.audit.marked = (s.stk.slabs.filter Slab.mark).length
  /-- While the audit is IDLE it holds no span, both counts are 0 and no slab carries the mark. -/
  idle : s.stk.audit.state = .idle → s.stk.audit = ⟨.idle, [], 0, 0⟩ ∧ ∀ r ∈ s.stk.slabs, r.mark = false

/-- A job's figures stand in their ranges (R187, R199 to R201, R206, R207). -/
structure JobRange (j : Job) : Prop where
  stone : j.stone ≤ Config.maxCents
  sawTime : j.sawTime ≤ Config.maxCents
  water : j.water ≤ Config.maxCents
  blade : j.blade ≤ Config.maxCents
  quote : j.quote ≤ Config.maxCents
  sawRemainder : j.sawRemainder < Config.sawDivisor
  waterRemainder : j.waterRemainder < Config.waterDivisor
  planned : j.planned ≤ Config.maxCount
  cut : j.cut ≤ Config.maxCount

/-- A blade's figures stand in their ranges (R132, R140, R141, R143). -/
structure BladeRange (b : Blade) : Prop where
  life : within 500 20000 b.life = true
  price : b.price ≤ 5000000
  wear : b.wear ≤ Config.maxWear
  wearRemainder : b.wearRemainder < 100
  costRemainder : b.costRemainder < b.life * 1000
  overloads : b.overloads ≤ Config.maxFaults

/-- A saw's figures stand in their ranges (R85, R86, R114, R163, R164). -/
structure SawRange (r : SawRec) : Prop where
  demand : within 5 120 r.demand = true
  rate : r.rate ≤ 100000
  maxFeed : within 100 6000 r.maxFeed = true
  flow : r.meters.flow ≤ Config.maxS
  time : r.meters.time ≤ Config.maxTime
  remainder : r.meters.remainder < Config.meterDivisor
  passTime : r.passTime ≤ Config.maxTime
  heartbeat : r.heartbeat ≤ Config.maxAge
  holdTimer : ∀ n ∈ r.holdTimer, n ≤ Config.holdTime
  nextTag : r.nextTag ≤ 7
  faults : ∀ c ∈ r.context, c.faults ≤ Config.maxFaults

/-- The audit counts stand in their ranges: the marks still standing are counted, and no more slabs are marked and verified than
the table holds (R6, R31). -/
structure AuditRange (k : Stock) : Prop where
  slabs : k.slabs.length ≤ Config.maxSlabs
  marks : (k.slabs.filter Slab.mark).length ≤ k.audit.marked
  counts : k.audit.marked + k.audit.verified ≤ Config.maxSlabs

/-- Every carried remainder, component, meter and count of a job, a blade, a saw with its context, and the audit stands in the
range its record gives it. -/
structure RangeLaw (s : State) : Prop where
  jobs : ∀ j ∈ s.jcu.jobs, JobRange j
  blades : ∀ b ∈ s.bld.blades, BladeRange b
  saws : ∀ w, SawRange (s.saw w)
  audit : AuditRange s.stk

/-- The pieces of the strips of a plan that are not finished. -/
def Plan.unfinished (p : Plan) : Nat := ((p.strips.zip p.finished).map fun x => if x.2 then 0 else x.1.pieces.length).sum

/-- The pieces finished of a plan stand in their range (R44, R45, R63): with the pieces still to finish they are at most 24, and a
plan in DRAFT or CHECKED has none. -/
structure PieceLaw (s : State) : Prop where
  fit : ∀ n p, s.plan? n = some p → p.piecesFinished + p.unfinished ≤ 24
  none : ∀ n p, s.plan? n = some p → p.state = .draft ∨ p.state = .checked → p.piecesFinished = 0

/-! ## Requests and messages taken -/

/-- The part runs and the request slot is READY: the next good request frame is performed (R213, R224). -/
def State.ready (s : State) : Prop := s.running = true ∧ s.olc.slot = .ready

/-- The part runs and the saw's link is UP: the next good message of the saw is judged by its own rule (R89, R224). -/
def State.linked (s : State) (w : Saw) : Prop := s.running = true ∧ (s.saw w).link = .up

/-- The state once a request has been answered: the slot is SERVING and the reply is being sent (R213). -/
def State.answered (s : State) (kind : Byte) (st : Status) (fields : List Field) : State :=
  { s with olc := { s.olc with slot := .serving, reply := some ⟨Kind.answer kind, some st, fields⟩ } }

/-- A request is refused: it is answered with the status, and all else stays as it was (R1, R212). -/
def State.refuses (s : State) (i : Instr) (kind : Byte) (st : Status) : Prop :=
  exec i s = .next (s.answered kind st [])

/-- A request is answered OK with the fields, and all else stays as it was. -/
def State.reports (s : State) (i : Instr) (kind : Byte) (fields : List Field) : Prop :=
  exec i s = .next (s.answered kind .ok fields)

/-- The state once a saw's message has been answered: its heartbeat age is 0 and the answer is queued (R89). -/
def State.acked (s : State) (w : Saw) (kind : Byte) (st : Status) : State :=
  (s.sawFrame w).send w (answerFrame kind st)

/-- The state once a saw that stops in a cut has given its water up: from CUTTING a release with its admission pass, from
HOLDING the end of the hold (R119, R120, R122, R180, R182). -/
def State.waterGivenUp (s : State) (w : Saw) : State :=
  if (s.saw w).state = .cutting then
    State.runPass { s with wau := { s.wau with
      allotment := s.wau.allotment.set w none, order := s.wau.order.filter (fun v => v != w),
      permit := s.wau.permit.set w false } }
  else
    { s with wau := { s.wau with order := s.wau.order.filter (fun v => v != w), permit := s.wau.permit.set w false } }

/-! ## Forms and rankings of the rules -/

/-- A slab's amendable fields lie in the ranges of R9, the flaws within a length and a width. -/
def InSlabRanges (material thickness lotNumber lotSeq length width basis : Nat) (flaws : List Flaw) : Prop :=
  material ≤ 31 ∧ (10 ≤ thickness ∧ thickness ≤ 50) ∧ flaws.length ≤ 4 ∧
  (∀ f ∈ flaws, f.x0 < f.x1 ∧ f.x1 ≤ length ∧ f.y0 < f.y1 ∧ f.y1 ≤ width) ∧ basis ≤ 5000000 ∧
  (lotNumber = 0 → lotSeq = 0) ∧ (lotNumber ≠ 0 → 1 ≤ lotSeq ∧ lotSeq ≤ 99)

/-- One record stands before another in the ranking of FIND SLABS (R16). -/
def RankedBefore (lotNumber : Nat) (a b : Slab) : Prop :=
  let key (r : Slab) : Nat := if lotNumber = 0 then r.length * r.width else r.lot.elim 0 Lot.seq
  key a < key b ∨ (key a = key b ∧ a.number ≤ b.number)

/-- A rack and a position name a place or, both 0, the floor (R29 check 1). -/
def PlaceForm (rack position : Nat) : Prop :=
  rack ≤ 32 ∧ position ≤ 12 ∧ (rack = 0 ↔ position = 0)

/-- The layout FORM checks of R50 and R45: the kerf, the strips, the pieces and their number. -/
def LayoutForm (kerf : Nat) (strips : List Strip) : Prop :=
  (2 ≤ kerf ∧ kerf ≤ 6) ∧ (1 ≤ strips.length ∧ strips.length ≤ 8) ∧
  (∀ t ∈ strips, (20 ≤ t.width ∧ t.width ≤ 2100) ∧ (1 ≤ t.pieces.length ∧ t.pieces.length ≤ 6) ∧
    ∀ p ∈ t.pieces, (1 ≤ p.mark ∧ p.mark ≤ 999) ∧ (50 ≤ p.length ∧ p.length ≤ 3600)) ∧
  (strips.map fun t => t.pieces.length).sum ≤ 24

/-- The lot binding of a job is met by a slab (R51). -/
def LotMet (job : Option Job) (r : Slab) : Prop :=
  ∀ j l, job = some j → j.lot = some l → ∃ x, r.lot = some x ∧ x.number = l

/-- The near edge of the strip at place `s`, counting from 0: the widths and kerfs before it (R68). -/
def LayoutInput.nearEdge (i : LayoutInput) (s : Nat) : Nat := ((i.strips.take s).map fun t => t.width + i.kerf).sum

/-- The start of the piece at place `j` of a strip, counting from 0: the lengths and kerfs before it (R69). -/
def LayoutInput.pieceStart (i : LayoutInput) (t : Strip) (j : Nat) : Nat :=
  ((t.pieces.take j).map fun p => p.length + i.kerf).sum

/-- A flaw shares area with the piece at place `j` of the strip at place `s` (R70). -/
def LayoutInput.flawed (i : LayoutInput) (s : Nat) (t : Strip) (j : Nat) (p : Piece) (f : Flaw) : Prop :=
  i.pieceStart t j < f.x1 ∧ f.x0 < i.pieceStart t j + p.length ∧ i.nearEdge s < f.y1 ∧ f.y0 < i.nearEdge s + t.width

/-- A piece passes its length check and every flaw check (R71). -/
def LayoutInput.pieceClear (i : LayoutInput) (s : Nat) (t : Strip) (j : Nat) (p : Piece) : Prop :=
  i.pieceStart t j + p.length ≤ i.length ∧ ∀ f ∈ i.flaws, ¬ i.flawed s t j p f

/-- A strip passes its width check, and every piece of it passes (R71). -/
def LayoutInput.stripClear (i : LayoutInput) (s : Nat) (t : Strip) : Prop :=
  i.nearEdge s + t.width ≤ i.width ∧ ∀ j p, t.pieces[j]? = some p → i.pieceClear s t j p

/-- The rip pass of a strip, where it has one (R74). -/
def LayoutInput.rip? (i : LayoutInput) (s : Nat) (t : Strip) : Option Pass :=
  if i.nearEdge s + t.width < i.width then some ⟨0, .rip, s + 1, i.nearEdge s + t.width, i.length, .pending, 0⟩ else none

/-- The cross pass of a piece, where it has one (R75). -/
def LayoutInput.cross? (i : LayoutInput) (s : Nat) (t : Strip) (j : Nat) (p : Piece) : Option Pass :=
  if i.pieceStart t j + p.length < i.length then
    some ⟨0, .cross, s + 1, i.pieceStart t j + p.length, t.width, .pending, 0⟩
  else none

/-- Every rip pass in strip order, then every cross pass strip by strip in piece order, indexed upward from 1 (R76). -/
def LayoutInput.ordered (i : LayoutInput) : List Pass :=
  (((i.strips.zipIdx.filterMap fun x => i.rip? x.2 x.1)
      ++ i.strips.zipIdx.flatMap fun x => x.1.pieces.zipIdx.filterMap fun y => i.cross? x.2 x.1 y.2 y.1).zipIdx).map
    fun z => { z.1 with index := z.2 + 1 }

/-- The derived part the rules give a layout that passes (R77 to R82). -/
def LayoutInput.result (i : LayoutInput) : Derived :=
  let edge := i.nearEdge i.strips.length
  let area := i.length * i.width
  let basis := (2 * i.basis * (i.length * (i.width - edge)) + area) / (2 * area)
  let kept := edge + 200 ≤ i.width
  { passes := i.ordered
    cutLength := (i.ordered.map Pass.length).sum
    yield := (i.strips.map fun t => (t.pieces.map fun p => p.length * t.width).sum).sum * 1000 / area
    remnant := if kept then
        some ⟨i.length, i.width - edge,
          (i.flaws.filter fun f => decide (edge < f.y1)).map fun f => ⟨f.x0, f.x1, max f.y0 edge - edge, f.y1 - edge⟩,
          basis⟩
      else none
    stoneCharge := if kept then i.basis - basis else i.basis
    basisAtCheck := i.basis }

/-- A channel record as it takes its place: the grace timer starts, with the grace time given in ds, where the channel stands
neither GOOD nor OFF and its timer is STOPPED (R153). -/
def Channel.graced (ds : Nat) (c : Channel) : Channel :=
  if c.state ≠ .good ∧ c.state ≠ .off ∧ c.grace = .stopped then { c with grace := .running ds } else c

/-- The channel after one sample of a raw reading: corrected and judged against the window of its range code (R148, R150),
averaged (R151), scaled (R152). -/
def Channel.sampled (raw : Int) (c : Channel) : Channel :=
  let low : Int := if c.range = 1 then -400 else if c.range = 4 then -200 else 0
  let high : Int :=
    if c.range = 1 ∨ c.range = 2 then 10400 else if c.range = 3 ∨ c.range = 4 then 10200 else 0
  let r := (2 * ((raw - c.offset) * c.gain) + 10000) / 20000
  let state : ChannelState := if r < low then .rangeLow else if high < r then .rangeHigh else .good
  let before := if state = .good ∧ c.state ≠ .good then [] else c.history
  let joined := before ++ [max low (min high r)]
  let history := joined.drop (joined.length - 16)
  let newest := history.drop (history.length - (if c.filter = 0 then 1 else if c.filter = 1 then 4 else 16))
  let mean := (2 * newest.sum + newest.length) / (2 * newest.length)
  let e := c.low + (2 * ((c.high - c.low) * mean) + 10000) / 20000
  { c with raw := some raw, state := state, history := history, value := some e,
           lastGood := if state = .good then some e else c.lastGood,
           grace := if state = .good then .stopped else c.grace }

/-- The notices after channels have taken their places: CHANNEL_FAULT where some grace timer started (R153). -/
def State.faultedChannels (s : State) (started : Bool) : Office := if started then (s.raise .channelFault).olc else s.olc

/-- The blade after a list of accruals, each a progress and a hardness (R140, R141). -/
def Blade.accrued (b : Blade) : List (Nat × Nat) → Blade
  | [] => b
  | x :: xs => (b.accrue x.1 x.2).accrued xs

/-- The charges computed over a list of accruals (R141). -/
def Blade.charges (b : Blade) : List (Nat × Nat) → Nat
  | [] => 0
  | x :: xs => b.chargeFor x.1 x.2 + (b.accrue x.1 x.2).charges xs

/-- The wear increases over a list of accruals (R140). -/
def Blade.increases (b : Blade) : List (Nat × Nat) → Nat
  | [] => 0
  | x :: xs => b.wearIncrease x.1 x.2 + (b.accrue x.1 x.2).increases xs

end Sys2Proof.Machine

namespace Sys2Proof

/-- The link on which a command comes as a frame of its own kind (R212); none for the commands that are no such frames. -/
def Instr.link? : Instr → Option Link
  | .hello w _ => some (.saw w)
  | .loaded w _ => some (.saw w)
  | .start w _ => some (.saw w)
  | .done w _ => some (.saw w)
  | .held w _ _ => some (.saw w)
  | .fault w _ _ _ => some (.saw w)
  | .status w _ => some (.saw w)
  | i => if i.body = [] then none else some .office

/-- The readings a command carries are the inputs as they stand (log 8). -/
def Instr.sees (inputs : Inputs) : Instr → Prop
  | .setChannel channel _ _ _ _ raw => raw = (Chan.ofNat? channel).elim 0 inputs.raw.get
  | .readState backup => backup = inputs.backup
  | _ => True

end Sys2Proof
end

