-- ==== Sys2Proof/WellFormed.lean ====
section
/-! DEFINITION. Which commands can be sent: each number fits the width its field has in a frame (R211), each list is within
the limit its rule gives, a tag is 0 to 7 (R89), a raw reading lies where the front end keeps it (R147). -/

namespace Sys2Proof

/-- A one-byte field (R211). -/
def fits8 (n : Nat) : Bool := decide (n < 256)
/-- A two-byte field (R211). -/
def fits16 (n : Nat) : Bool := decide (n < 65536)
/-- A four-byte field (R211). -/
def fits32 (n : Nat) : Bool := decide (n < 4294967296)
/-- A signed two-byte field (R211). -/
def fitsS16 (i : Int) : Bool := decide (-32768 ≤ i) && decide (i < 32768)
/-- A tag (R89, R99). -/
def fitsTag (n : Nat) : Bool := decide (n ≤ 7)
/-- A raw reading of the front end (R147, R150). -/
def fitsRaw (i : Int) : Bool := decide (-1000 ≤ i) && decide (i ≤ 11000)

def Flaw.wf (f : Flaw) : Bool := fits16 f.x0 && fits16 f.x1 && fits16 f.y0 && fits16 f.y1
def Piece.wf (p : Piece) : Bool := fits16 p.mark && fits16 p.length
/-- A strip as a frame carries it: at most 6 pieces (R45, R216). -/
def Strip.wf (s : Strip) : Bool := fits16 s.width && decide (s.pieces.length ≤ 6) && s.pieces.all Piece.wf
def Span.wf (s : Span) : Bool := fits8 s.first && fits8 s.last
/-- At most 4 flaws (R6). -/
def wfFlaws (fs : List Flaw) : Bool := decide (fs.length ≤ 4) && fs.all Flaw.wf
/-- At most 8 strips (R45). -/
def wfStrips (ss : List Strip) : Bool := decide (ss.length ≤ 8) && ss.all Strip.wf
/-- A channel set names at most seven channels (R158). -/
def wfSet (s : List Nat) : Bool := decide (s.length ≤ 7) && s.all fits8
def Seven.allRaw (r : Seven Int) : Bool :=
  fitsRaw r.ch0 && fitsRaw r.ch1 && fitsRaw r.ch2 && fitsRaw r.ch3 && fitsRaw r.ch4 && fitsRaw r.ch5 && fitsRaw r.ch6

/-- The command can be sent to the part as it stands. -/
def Instr.wf : Instr → Bool
  | .defineMaterial code hardness feed => fits8 code && fits16 hardness && fits16 feed
  | .dropMaterial code => fits8 code
  | .readMaterial code => fits8 code
  | .createSlab number material thickness lotNumber lotSeq length width basis flaws =>
    fits16 number && fits8 material && fits16 thickness && fits16 lotNumber && fits8 lotSeq && fits16 length
      && fits16 width && fits32 basis && wfFlaws flaws
  | .amendSlab number material thickness lotNumber lotSeq basis flaws =>
    fits16 number && fits8 material && fits16 thickness && fits16 lotNumber && fits8 lotSeq && fits32 basis
      && wfFlaws flaws
  | .scrapSlab number => fits16 number
  | .retireSlab number => fits16 number
  | .readSlab number => fits16 number
  | .findSlabs material thickness minLength minWidth lotNumber =>
    fits8 material && fits16 thickness && fits16 minLength && fits16 minWidth && fits16 lotNumber
  | .readRack rack => fits8 rack
  | .moveSlab number rack position => fits16 number && fits8 rack && fits8 position
  | .startAudit spans => decide (spans.length ≤ 3) && spans.all Span.wf
  | .verifySlab number rack position => fits16 number && fits8 rack && fits8 position
  | .endAudit => true
  | .abortAudit => true
  | .readAudit => true
  | .createPlan number job slab kerf strips =>
    fits16 number && fits16 job && fits16 slab && fits8 kerf && wfStrips strips
  | .revisePlan number kerf strips => fits16 number && fits8 kerf && wfStrips strips
  | .checkPlan number => fits16 number
  | .releasePlan number saw => fits16 number && fits8 saw
  | .cancelPlan number => fits16 number
  | .abandonPlan number => fits16 number
  | .readPlan number => fits16 number
  | .readPassList number => fits16 number
  | .retirePlan number => fits16 number
  | .configureSaw saw demand rate => fits8 saw && fits16 demand && fits32 rate
  | .readSaw saw => fits8 saw
  | .readContext saw => fits8 saw
  | .resumeSaw saw => fits8 saw
  | .addBlade number kerf price life => fits16 number && fits8 kerf && fits32 price && fits16 life
  | .amendBlade number price life => fits16 number && fits32 price && fits16 life
  | .fitBlade number saw => fits16 number && fits8 saw
  | .removeBlade saw => fits8 saw
  | .retireBlade number => fits16 number
  | .readBlade number => fits16 number
  | .setChannel channel range filter low high raw =>
    fits8 channel && fits8 range && fits8 filter && fitsS16 low && fitsS16 high && fitsRaw raw
  | .readChannel channel => fits8 channel
  | .calBegin set => wfSet set
  | .calPoint set point => wfSet set && fits8 point
  | .calEnd set mode => wfSet set && fits8 mode
  | .calAbort set => wfSet set
  | .setPlant rating hold restart reduce turbidity sump waterRate grace =>
    fits16 rating && fits16 hold && fits16 restart && fits16 reduce && fits16 turbidity && fits16 sump
      && fits32 waterRate && fits16 grace
  | .readPlant => true
  | .openJob number lotNumber quote => fits16 number && fits16 lotNumber && fits32 quote
  | .amendJob number quote lotNumber => fits16 number && fits32 quote && fits16 lotNumber
  | .readJob number => fits16 number
  | .closeJob number => fits16 number
  | .retireJob number => fits16 number
  | .readNotices => true
  | .setNotices _ master => fits8 master
  | .readState _ => true
  | .wipeStore => true
  | .unknownRequest _ => true
  | .busyRequest _ => true
  | .replySent => true
  | .badFrame _ => true
  | .byteGapTimeout _ _ => true
  | .hello _ maxFeed => fits16 maxFeed
  | .loaded _ plan => fits16 plan
  | .start _ tag => fitsTag tag
  | .done _ tag => fitsTag tag
  | .held _ tag position => fitsTag tag && fits16 position
  | .fault _ tag position _ => (match tag with | none => true | some t => fitsTag t) && fits16 position
  | .status _ position => fits16 position
  | .sawMessageMalformed _ _ => true
  | .linkSilence _ => true
  | .holdTimerExpiry _ => true
  | .interlockDrop _ => true
  | .interlockReturn _ => true
  | .channelSample _ raw => fitsRaw raw
  | .graceExpiry _ => true
  | .fieldSupplyLoss => true
  | .fieldSupplyReturn raw => raw.allRaw
  | .capacityEvaluation => true
  | .meteringInterval _ => true
  | .resetRelease inputs => inputs.raw.allRaw
  | .powerReturn inputs => inputs.raw.allRaw
  | .powerLoss _ => true
  | .backupFailure => true

end Sys2Proof
end

