-- ==== Sys2Proof/Certificates/Slice0/Obligations.lean ====
section
/-! DEFINITION. The statements about the part, chapter by chapter of spec/. A request is stated over every state in which it is
taken (`State.ready`), a saw's message over every state in which the link is up (`State.linked`), an event over every state
in which the part runs. A frame is an equation: the next state is the old one but for the fields the equation lists. -/

open Sys2Proof Sys2Proof.Machine

/-! ## STK: materials and slabs (01_slab_stock.md) -/

/-- DEFINE MATERIAL replaces one entry; DROP MATERIAL (R4) and READ MATERIAL (R5) whole. -/
def Obligations.MaterialRequests : Prop :=
  ∀ (s : State) (code hardness feed : Nat), s.ready →
    (31 < code ∨ hardness < 100 ∨ 250 < hardness ∨ feed < 100 ∨ 3000 < feed →
      s.refuses (.defineMaterial code hardness feed) Kind.defineMaterial .form) ∧
    (code ≤ 31 → 100 ≤ hardness → hardness ≤ 250 → 100 ≤ feed → feed ≤ 3000 →
      ∃ t, exec (.defineMaterial code hardness feed) s = .next t ∧
        t.material? code = some ⟨code, hardness, feed⟩ ∧ (∀ c, c ≠ code → t.material? c = s.material? c) ∧
        t = { s.answered Kind.defineMaterial .ok [] with stk := { s.stk with materials := t.stk.materials } }) ∧
    (31 < code → s.refuses (.dropMaterial code) Kind.dropMaterial .form) ∧
    (code ≤ 31 → s.material? code = none → s.refuses (.dropMaterial code) Kind.dropMaterial .none) ∧
    (code ≤ 31 → s.material? code ≠ none → (∃ r ∈ s.stk.slabs, r.material = code) →
      s.refuses (.dropMaterial code) Kind.dropMaterial .inUse) ∧
    (code ≤ 31 → s.material? code ≠ none → (∀ r ∈ s.stk.slabs, r.material ≠ code) →
      ∃ t, exec (.dropMaterial code) s = .next t ∧ t.material? code = none ∧ t.hardness code = 0 ∧ t.feed code = 0 ∧
        (∀ c, c ≠ code → t.material? c = s.material? c) ∧
        t = { s.answered Kind.dropMaterial .ok [] with stk := { s.stk with materials := t.stk.materials } }) ∧
    (31 < code → s.refuses (.readMaterial code) Kind.readMaterial .form) ∧
    (code ≤ 31 → s.material? code = none →
      s.reports (.readMaterial code) Kind.readMaterial [.u8 0, .u16 0, .u16 0]) ∧
    (∀ m, code ≤ 31 → s.material? code = some m →
      s.reports (.readMaterial code) Kind.readMaterial [.u8 1, .u16 m.hardness, .u16 m.feed])

/-- CREATE SLAB (R9) and AMEND SLAB (R10), each with its checks in order; a frame carries at most 4 flaws (R211). -/
def Obligations.CreateAndAmendSlab : Prop :=
  (∀ (s : State) (number material thickness lotNumber lotSeq length width basis : Nat) (flaws : List Flaw), s.ready →
    let i := Instr.createSlab number material thickness lotNumber lotSeq length width basis flaws
    let form := (1 ≤ number ∧ number ≤ 49999) ∧ (300 ≤ length ∧ length ≤ 3600) ∧ (200 ≤ width ∧ width ≤ 2100) ∧
      InSlabRanges material thickness lotNumber lotSeq length width basis flaws
    (¬ form → s.refuses i Kind.createSlab .form) ∧
    (form → s.material? material = none → s.refuses i Kind.createSlab .none) ∧
    (form → s.material? material ≠ none → s.slab? number ≠ none → s.refuses i Kind.createSlab .exists) ∧
    (form → s.material? material ≠ none → s.slab? number = none → 1024 ≤ s.stk.slabs.length →
      s.refuses i Kind.createSlab .full) ∧
    (form → s.material? material ≠ none → s.slab? number = none → s.stk.slabs.length < 1024 →
      ∃ t, exec i s = .next t ∧
        t.slab? number = some
          { number := number, kind := .full, material := material, thickness := thickness,
            lot := if lotNumber = 0 then none else some ⟨lotNumber, lotSeq⟩, length := length, width := width,
            flaws := flaws, basis := basis, place := none, state := .available, plan := none, parent := none,
            missing := false, mark := false } ∧
        (∀ n, n ≠ number → t.slab? n = s.slab? n) ∧ t.stk.slabs.length = s.stk.slabs.length + 1 ∧
        t = { s.answered Kind.createSlab .ok [] with stk := { s.stk with slabs := t.stk.slabs } })) ∧
  (∀ (s : State) (number material thickness lotNumber lotSeq basis : Nat) (flaws : List Flaw), s.ready → flaws.length ≤ 4 →
    let i := Instr.amendSlab number material thickness lotNumber lotSeq basis flaws
    (s.slab? number = none → s.refuses i Kind.amendSlab .none) ∧
    ∀ r, s.slab? number = some r →
      let form := InSlabRanges material thickness lotNumber lotSeq r.length r.width basis flaws
      (r.state ≠ .available → s.refuses i Kind.amendSlab .state) ∧
      (r.state = .available → ¬ form → s.refuses i Kind.amendSlab .form) ∧
      (r.state = .available → form → s.material? material = none → s.refuses i Kind.amendSlab .none) ∧
      (r.state = .available → form → s.material? material ≠ none →
        ∃ t, exec i s = .next t ∧
          t.slab? number = some
            { r with material := material, thickness := thickness,
                     lot := if lotNumber = 0 then none else some ⟨lotNumber, lotSeq⟩, flaws := flaws, basis := basis } ∧
          (∀ n, n ≠ number → t.slab? n = s.slab? n) ∧
          t = { s.answered Kind.amendSlab .ok [] with stk := { s.stk with slabs := t.stk.slabs } }))

/-- SCRAP SLAB (R11), with the mark of a slab that leaves the racks (R37), and RETIRE SLAB (R12). -/
def Obligations.ScrapAndRetireSlab : Prop :=
  ∀ (s : State) (number : Nat), s.ready →
    (s.slab? number = none →
      s.refuses (.scrapSlab number) Kind.scrapSlab .none ∧ s.refuses (.retireSlab number) Kind.retireSlab .none) ∧
    ∀ r, s.slab? number = some r →
      (r.state ≠ .available → s.refuses (.scrapSlab number) Kind.scrapSlab .state) ∧
      (r.state = .available →
        ∃ t, exec (.scrapSlab number) s = .next t ∧
          t.slab? number = some { r with state := .scrapped, place := none, missing := false, mark := false } ∧
          (∀ n, n ≠ number → t.slab? n = s.slab? n) ∧
          (∀ p, t.rackAt? p = if r.place = some p then none else s.rackAt? p) ∧
          t = { s.answered Kind.scrapSlab .ok [] with
                stk := { s.stk with slabs := t.stk.slabs, rackMap := t.stk.rackMap,
                                    audit := if r.mark then { s.stk.audit with marked := s.stk.audit.marked - 1 }
                                      else s.stk.audit } }) ∧
      (r.state ≠ .consumed → r.state ≠ .scrapped → s.refuses (.retireSlab number) Kind.retireSlab .state) ∧
      (r.state = .consumed ∨ r.state = .scrapped →
        ∃ t, exec (.retireSlab number) s = .next t ∧ t.slab? number = none ∧
          (∀ n, n ≠ number → t.slab? n = s.slab? n) ∧
          t = { s.answered Kind.retireSlab .ok [] with stk := { s.stk with slabs := t.stk.slabs } })

/-- READ SLAB answers with the record laid out field by field (R13, R215); READ RACK (R28) and READ AUDIT (R40). That the twelve
numbers of READ RACK go out without a count byte is the model's deduction (log 15). -/
def Obligations.ReadSlabRackAndAudit : Prop :=
  (∀ (s : State) (number : Nat), s.ready →
    (s.slab? number = none → s.refuses (.readSlab number) Kind.readSlab .none) ∧
    ∀ r, s.slab? number = some r →
      s.reports (.readSlab number) Kind.readSlab
        ([.u16 r.number, .u8 r.kind.code, .u8 r.material, .u16 r.thickness, .u16 (r.lot.elim 0 Lot.number),
            .u8 (r.lot.elim 0 Lot.seq), .u16 r.length, .u16 r.width, .u32 r.basis, .u8 (r.place.elim 0 Place.rack),
            .u8 (r.place.elim 0 Place.position), .u8 r.state.code, .u16 (r.plan.getD 0), .u16 (r.parent.getD 0),
            .u8 (boolCode r.missing), .u8 (boolCode r.mark), .u8 r.flaws.length]
          ++ r.flaws.flatMap fun f => [.u16 f.x0, .u16 f.x1, .u16 f.y0, .u16 f.y1])) ∧
  (∀ (s : State) (rack : Nat), s.ready →
    (rack = 0 ∨ 32 < rack → s.refuses (.readRack rack) Kind.readRack .form) ∧
    (1 ≤ rack → rack ≤ 32 →
      s.reports (.readRack rack) Kind.readRack
        ([1, 2, 3, 4, 5, 6, 7, 8, 9, 10, 11, 12].map fun p => .u16 ((s.rackAt? ⟨rack, p⟩).getD 0))) ∧
    s.reports .readAudit Kind.readAudit
      (.u8 s.stk.audit.state.code :: .u8 s.stk.audit.spans.length ::
        ((s.stk.audit.spans.flatMap fun p => [.u8 p.first, .u8 p.last])
          ++ [.u16 s.stk.audit.marked, .u16 s.stk.audit.verified])))

/-- FIND SLABS (R14): the total of the slabs that match (R15) and the first 16 of them in rank (R16). -/
def Obligations.FindSlabsRanksTheMatches : Prop :=
  ∀ (s : State) (material thickness minLength minWidth lotNumber : Nat), s.ready →
    let i := Instr.findSlabs material thickness minLength minWidth lotNumber
    let form := material ≤ 31 ∧ (thickness = 0 ∨ (10 ≤ thickness ∧ thickness ≤ 50)) ∧ minLength ≤ 3600 ∧ minWidth ≤ 2100
    let hit (r : Slab) : Prop := r.state = .available ∧ r.missing = false ∧ r.material = material ∧
      (thickness = 0 ∨ r.thickness = thickness) ∧ minLength ≤ r.length ∧ minWidth ≤ r.width ∧
      (lotNumber = 0 ∨ ∃ l, r.lot = some l ∧ l.number = lotNumber)
    (¬ form → s.refuses i Kind.findSlabs .form) ∧
    (form → ∃ found other : List Slab, List.Perm (found ++ other) s.stk.slabs ∧ (∀ r ∈ found, hit r) ∧
      (∀ r ∈ other, ¬ hit r) ∧ found.Pairwise (RankedBefore lotNumber) ∧
      s.reports i Kind.findSlabs
        (.u16 found.length :: .u8 (min found.length 16) :: (found.take 16).map fun r => .u16 r.number))

/-- Remnant numbering (R17) and the remnant's record (R23, R24), for a parent on record. -/
def Obligations.RemnantNumbering : Prop :=
  ∀ (s : State) (parent : Nat) (r : Slab) (part : RemnantPart), TableLaw s → s.slab? parent = some r →
    (1024 ≤ s.stk.slabs.length → s.createRemnant parent part = (none, s)) ∧
    (s.stk.slabs.length < 1024 →
      ∃ (k n : Nat) (t : State), s.createRemnant parent part = (some n, t) ∧
        k < 15536 ∧ n = 50000 + (s.stk.counter - 50000 + k) % 15536 ∧ s.slab? n = none ∧
        (∀ j, j < k → s.slab? (50000 + (s.stk.counter - 50000 + j) % 15536) ≠ none) ∧
        t.stk.counter = 50000 + (n - 50000 + 1) % 15536 ∧
        t.slab? n = some
          { number := n, kind := .remnant, material := r.material, thickness := r.thickness, lot := r.lot,
            length := part.length, width := part.width, flaws := part.flaws, basis := part.basis, place := none,
            state := .available, plan := none, parent := some parent, missing := false, mark := false } ∧
        (∀ m, m ≠ n → t.slab? m = s.slab? m) ∧
        t = { s with stk := { s.stk with slabs := t.stk.slabs, counter := t.stk.counter } })

/-! ## STK: racks and the stock audit (02_racks_and_stock_audit.md) -/

/-- MOVE SLAB (R29), which counts as a sighting of a marked slab (R30); VERIFY SLAB (R34), the slab it displaces (R35) and the
mark it settles (R36). -/
def Obligations.MoveAndVerifySlab : Prop :=
  (∀ (s : State) (number rack position : Nat), s.ready →
    let i := Instr.moveSlab number rack position
    let target : Option Place := if rack = 0 then none else some ⟨rack, position⟩
    (¬ PlaceForm rack position → s.refuses i Kind.moveSlab .form) ∧
    (PlaceForm rack position → s.slab? number = none → s.refuses i Kind.moveSlab .none) ∧
    ∀ r, PlaceForm rack position → s.slab? number = some r →
      (r.state ≠ .available → r.state ≠ .reserved → s.refuses i Kind.moveSlab .state) ∧
      (r.state = .available ∨ r.state = .reserved → (∃ p m, target = some p ∧ s.rackAt? p = some m ∧ m ≠ number) →
        s.refuses i Kind.moveSlab .occupied) ∧
      (r.state = .available ∨ r.state = .reserved → (∀ p m, target = some p → s.rackAt? p = some m → m = number) →
        ∃ t, exec i s = .next t ∧ t.slab? number = some { r with place := target, missing := false, mark := false } ∧
          (∀ n, n ≠ number → t.slab? n = s.slab? n) ∧
          (∀ p, t.rackAt? p = if target = some p then some number else if r.place = some p then none else s.rackAt? p) ∧
          t = { s.answered Kind.moveSlab .ok [] with
                stk := { s.stk with slabs := t.stk.slabs, rackMap := t.stk.rackMap,
                                    audit := if r.mark then { s.stk.audit with marked := s.stk.audit.marked - 1,
                                                                                verified := s.stk.audit.verified + 1 }
                                      else s.stk.audit } })) ∧
  (∀ (s : State) (number rack position : Nat), s.ready →
    let i := Instr.verifySlab number rack position
    let target : Option Place := if rack = 0 then none else some ⟨rack, position⟩
    let displaced : Option Nat := (target.bind s.rackAt?).filter fun m => m != number
    (¬ PlaceForm rack position → s.refuses i Kind.verifySlab .form) ∧
    (PlaceForm rack position → s.slab? number = none → s.refuses i Kind.verifySlab .none) ∧
    ∀ r, PlaceForm rack position → s.slab? number = some r →
      (r.state ≠ .available → r.state ≠ .reserved → s.refuses i Kind.verifySlab .state) ∧
      (r.state = .available ∨ r.state = .reserved →
        ∃ t, exec i s = .next t ∧ t.slab? number = some { r with place := target, missing := false, mark := false } ∧
          (∀ m, displaced = some m → t.slab? m = (s.slab? m).map fun x => { x with place := none }) ∧
          (∀ n, n ≠ number → displaced ≠ some n → t.slab? n = s.slab? n) ∧
          (∀ p, t.rackAt? p =
            if target = some p then some number
            else if r.place = some p ∨ ((displaced.bind s.slab?).bind Slab.place) = some p then none
            else s.rackAt? p) ∧
          t = { s.answered Kind.verifySlab .ok [.u16 (displaced.getD 0)] with
                stk := { s.stk with slabs := t.stk.slabs, rackMap := t.stk.rackMap,
                                    audit := if r.mark then { s.stk.audit with marked := s.stk.audit.marked - 1,
                                                                                verified := s.stk.audit.verified + 1 }
                                      else s.stk.audit } }))

/-- START AUDIT marks the slabs placed in its spans (R32), replacing a running audit (R33); END AUDIT declares every slab still
marked missing (R38); ABORT AUDIT only removes the marks (R39). -/
def Obligations.StockAudit : Prop :=
  (∀ (s : State) (spans : List Span), s.ready →
    let form := 1 ≤ spans.length ∧ spans.length ≤ 3 ∧
      ∀ sp ∈ spans, (1 ≤ sp.first ∧ sp.first ≤ 32) ∧ (1 ≤ sp.last ∧ sp.last ≤ 32) ∧ sp.first ≤ sp.last
    let walked (r : Slab) : Prop := (r.state = .available ∨ r.state = .reserved) ∧
      ∃ p sp, r.place = some p ∧ sp ∈ spans ∧ sp.first ≤ p.rack ∧ p.rack ≤ sp.last
    (¬ form → s.refuses (.startAudit spans) Kind.startAudit .form) ∧
    (form → ∃ (t : State) (mark : Slab → Bool), exec (.startAudit spans) s = .next t ∧ (∀ r, mark r = true ↔ walked r) ∧
      t = { s.answered Kind.startAudit .ok [.u16 (s.stk.slabs.filter mark).length] with
            stk := { s.stk with slabs := s.stk.slabs.map fun r => { r with mark := mark r },
                                audit := ⟨.running, spans, (s.stk.slabs.filter mark).length, 0⟩ } })) ∧
  (∀ s : State, s.ready →
    (s.stk.audit.state = .idle →
      s.refuses .endAudit Kind.endAudit .state ∧ s.refuses .abortAudit Kind.abortAudit .state) ∧
    (s.stk.audit.state = .running →
      (∃ t, exec .endAudit s = .next t ∧
        t.stk.slabs = s.stk.slabs.map (fun r =>
          if r.mark then { r with missing := true, place := none, mark := false } else { r with mark := false }) ∧
        (∀ e, e ∈ t.stk.rackMap ↔ e ∈ s.stk.rackMap ∧ ∀ r, s.slab? e.slab = some r → r.mark = false) ∧
        t = { (s.raise .auditEnded).answered Kind.endAudit .ok
                [.u16 s.stk.audit.marked, .u16 s.stk.audit.verified] with
              stk := { s.stk with slabs := t.stk.slabs, rackMap := t.stk.rackMap, audit := ⟨.idle, [], 0, 0⟩ } }) ∧
      exec .abortAudit s = .next
        { s.answered Kind.abortAudit .ok [.u16 s.stk.audit.marked, .u16 s.stk.audit.verified] with
          stk := { s.stk with slabs := s.stk.slabs.map (fun r => { r with mark := false }),
                              audit := ⟨.idle, [], 0, 0⟩ } }))

/-! ## PLN: plans and the layout (03_cut_plans.md, 04_layout_arithmetic.md) -/

/-- CREATE PLAN, with its checks in order (R50) and the lot binding (R51); REVISE PLAN of a DRAFT plan (R52) and of a CHECKED
plan, whose check it undoes (R53), lowering pieces planned unless the count stands at 65,535 (R206), for the layouts a frame
carries (R211). -/
def Obligations.CreateAndRevisePlan : Prop :=
  (∀ (s : State) (number job slab kerf : Nat) (strips : List Strip), s.ready →
    let i := Instr.createPlan number job slab kerf strips
    let form := number ≠ 0 ∧ job ≠ 0 ∧ slab ≠ 0 ∧ LayoutForm kerf strips
    (¬ form → s.refuses i Kind.createPlan .form) ∧
    (form → s.job? job = none ∨ s.slab? slab = none → s.refuses i Kind.createPlan .none) ∧
    ∀ j r, form → s.job? job = some j → s.slab? slab = some r →
      let full := 256 ≤ s.pln.plans.length ∨ 16 ≤ j.plans.length
      (j.state = .closed → s.refuses i Kind.createPlan .frozen) ∧
      (j.state ≠ .closed → ¬ LotMet (some j) r → s.refuses i Kind.createPlan .lot) ∧
      (j.state ≠ .closed → LotMet (some j) r → full → s.refuses i Kind.createPlan .full) ∧
      (j.state ≠ .closed → LotMet (some j) r → ¬ full → s.plan? number ≠ none → s.refuses i Kind.createPlan .exists) ∧
      (j.state ≠ .closed → LotMet (some j) r → ¬ full → s.plan? number = none →
        ∃ t, exec i s = .next t ∧
          t.plan? number = some
            { number := number, job := job, slab := slab, kerf := kerf, strips := strips, state := .draft, saw := none,
              derived := none, finished := strips.map fun _ => false, piecesFinished := 0, remnantGiven := none } ∧
          (∀ n, n ≠ number → t.plan? n = s.plan? n) ∧ t.pln.plans.length = s.pln.plans.length + 1 ∧
          t.job? job = some { j with plans := j.plans ++ [number] } ∧ (∀ n, n ≠ job → t.job? n = s.job? n) ∧
          t = { s.answered Kind.createPlan .ok [] with pln := t.pln, jcu := t.jcu })) ∧
  (∀ (s : State) (number kerf : Nat) (strips : List Strip), s.ready → strips.length ≤ 8 →
    (∀ t ∈ strips, t.pieces.length ≤ 6) →
    let i := Instr.revisePlan number kerf strips
    (s.plan? number = none → s.refuses i Kind.revisePlan .none) ∧
    ∀ p, s.plan? number = some p →
      let revised : Plan :=
        { p with kerf := kerf, strips := strips, state := .draft, derived := none, finished := strips.map fun _ => false }
      (p.state ≠ .draft → p.state ≠ .checked → s.refuses i Kind.revisePlan .state) ∧
      (p.state = .draft ∨ p.state = .checked → ¬ LayoutForm kerf strips → s.refuses i Kind.revisePlan .form) ∧
      (p.state = .draft → LayoutForm kerf strips →
        ∃ t, exec i s = .next t ∧ t.plan? number = some revised ∧ (∀ n, n ≠ number → t.plan? n = s.plan? n) ∧
          t = { s.answered Kind.revisePlan .ok [] with pln := t.pln }) ∧
      (p.state = .checked → LayoutForm kerf strips →
        ∃ t, exec i s = .next t ∧ t.plan? number = some revised ∧ (∀ n, n ≠ number → t.plan? n = s.plan? n) ∧
          t.slab? p.slab = (s.slab? p.slab).map (fun r => { r with state := .available, plan := none }) ∧
          (∀ n, n ≠ p.slab → t.slab? n = s.slab? n) ∧
          t.job? p.job = (s.job? p.job).map (fun j => { j with
            planned := if 65535 ≤ j.planned then j.planned else j.planned - pieceCount p.strips }) ∧
          (∀ n, n ≠ p.job → t.job? n = s.job? n) ∧
          t = { s.answered Kind.revisePlan .ok [] with
                pln := t.pln, jcu := t.jcu, stk := { s.stk with slabs := t.stk.slabs } }))

/-- CHECK PLAN, with its checks in order (R54), and what a check that passes writes (R55). -/
def Obligations.CheckPlan : Prop :=
  ∀ (s : State) (number : Nat), s.ready →
    let i := Instr.checkPlan number
    (s.plan? number = none → s.refuses i Kind.checkPlan .none) ∧
    ∀ p, s.plan? number = some p →
      (p.state ≠ .draft → s.refuses i Kind.checkPlan .state) ∧
      (p.state = .draft → s.slab? p.slab = none → s.refuses i Kind.checkPlan .none) ∧
      ∀ r, p.state = .draft → s.slab? p.slab = some r →
        let input : LayoutInput := ⟨r.length, r.width, r.flaws, r.basis, p.kerf, p.strips⟩
        (r.state ≠ .available → s.refuses i Kind.checkPlan .state) ∧
        (r.state = .available → r.missing = true → s.refuses i Kind.checkPlan .missing) ∧
        (r.state = .available → r.missing = false → ¬ LotMet (s.job? p.job) r → s.refuses i Kind.checkPlan .lot) ∧
        (∀ f, r.state = .available → r.missing = false → LotMet (s.job? p.job) r → layout input = .error f →
          exec i s = .next (s.answered Kind.checkPlan .geometry
            [.u8 f.kind.code, .u8 f.strip, .u8 f.piece, .u8 f.flaw, .u16 f.excess])) ∧
        (∀ d, r.state = .available → r.missing = false → LotMet (s.job? p.job) r → layout input = .ok d →
          ∃ t, exec i s = .next t ∧ t.plan? number = some { p with derived := some d, state := .checked } ∧
            (∀ n, n ≠ number → t.plan? n = s.plan? n) ∧
            t.slab? p.slab = some { r with state := .reserved, plan := some number } ∧
            (∀ n, n ≠ p.slab → t.slab? n = s.slab? n) ∧
            t.job? p.job = (s.job? p.job).map
              (fun j => { j with planned := min 65535 (j.planned + pieceCount p.strips) }) ∧
            (∀ n, n ≠ p.job → t.job? n = s.job? n) ∧
            t = { s.answered Kind.checkPlan .ok
                    [.u8 d.passes.length, .u32 d.cutLength, .u16 d.yield, .u8 (boolCode d.remnant.isSome),
                      .u16 (d.remnant.elim 0 RemnantPart.length), .u16 (d.remnant.elim 0 RemnantPart.width),
                      .u32 d.stoneCharge] with
                  pln := t.pln, jcu := t.jcu, stk := { s.stk with slabs := t.stk.slabs } })

/-- The first failure of the layout checks and its detail (R71, R72), by the placement (R68, R69) and the overlap (R70); the
layout that passes every check: EMPTY without a pass (R73), else the derived part (R74 to R82). -/
def Obligations.LayoutOutcome : Prop :=
  (∀ (i : LayoutInput) (s : Nat) (t : Strip), i.strips[s]? = some t →
    (∀ s' t', s' < s → i.strips[s']? = some t' → i.stripClear s' t') →
    (i.width < i.nearEdge s + t.width →
      layout i = .error ⟨.width, s + 1, 0, 0, i.nearEdge s + t.width - i.width⟩) ∧
    (i.nearEdge s + t.width ≤ i.width → ∀ j p, t.pieces[j]? = some p →
      (∀ j' p', j' < j → t.pieces[j']? = some p' → i.pieceClear s t j' p') →
      (i.length < i.pieceStart t j + p.length →
        layout i = .error ⟨.length, s + 1, j + 1, 0, i.pieceStart t j + p.length - i.length⟩) ∧
      (i.pieceStart t j + p.length ≤ i.length → ∀ n f, i.flaws[n]? = some f → i.flawed s t j p f →
        (∀ n' f', n' < n → i.flaws[n']? = some f' → ¬ i.flawed s t j p f') →
        layout i = .error ⟨.flaw, s + 1, j + 1, n + 1, 0⟩))) ∧
  (∀ i : LayoutInput, i.strips ≠ [] → (∀ s t, i.strips[s]? = some t → i.stripClear s t) →
    (i.ordered = [] → layout i = .error ⟨.empty, 0, 0, 0, 0⟩) ∧ (i.ordered ≠ [] → layout i = .ok i.result))

/-- What the rules say follows from a layout that passes: the basis is split without loss and the stone charge lies between 0
and it (R81), every pass starts PENDING at 0, the pieces and the remnant leave part of the slab (R83), and the yield is at most
999 (R78). -/
def Obligations.LayoutConservesTheSlab : Prop :=
  ∀ (i : LayoutInput) (d : Derived), LayoutForm i.kerf i.strips → 1 ≤ i.length → layout i = .ok d →
    d.stoneCharge + d.remnant.elim 0 RemnantPart.basis = i.basis ∧ d.basisAtCheck = i.basis ∧
    d.passes ≠ [] ∧ (∀ q ∈ d.passes, q.state = .pending ∧ q.reached = 0) ∧
    (i.strips.map fun t => (t.pieces.map fun p => p.length * t.width).sum).sum
      + d.remnant.elim 0 (fun x => x.length * x.width) < i.length * i.width ∧
    (∀ x, d.remnant = some x → x.length = i.length ∧ 200 ≤ x.width ∧ x.width < i.width) ∧ d.yield ≤ 999

/-- LOAD for the head of a saw's queue (R92, R93): sent exactly to a saw UP and IDLE whose head is RELEASED, or CUTTING with no
ACTIVE pass; nothing changes otherwise. -/
def Obligations.LoadingTheHead : Prop :=
  ∀ (s : State) (w : Saw) (n : Nat) (rest : List Nat) (p : Plan) (r : Slab), (s.saw w).queue = n :: rest →
    s.plan? n = some p → s.slab? p.slab = some r →
    let loadable := p.state = .released ∨ (p.state = .cutting ∧ ∀ q ∈ p.passes, q.state ≠ .active)
    (((s.saw w).link = .up ∧ (s.saw w).state = .idle ∧ loadable) →
      s.loadHead w =
        (s.send w ⟨Kind.load, none, [.u16 n, .u16 r.number, .u8 (r.place.elim 0 Place.rack),
            .u8 (r.place.elim 0 Place.position), .u8 r.material, .u16 r.thickness, .u16 r.length, .u16 r.width]⟩).updateSaw w
          fun x => { x with pendingLoad := some n, state := .loading }) ∧
    (¬ ((s.saw w).link = .up ∧ (s.saw w).state = .idle ∧ loadable) → s.loadHead w = s)

/-- RELEASE PLAN, with its checks in order (R56). A release performed goes on with the loading of the queue's head. -/
def Obligations.ReleasePlan : Prop :=
  ∀ (s : State) (number saw : Nat), s.ready →
    let i := Instr.releasePlan number saw
    (saw = 0 ∨ 4 < saw → s.refuses i Kind.releasePlan .form) ∧
    ∀ w, Saw.toNat w = saw →
      (s.plan? number = none → s.refuses i Kind.releasePlan .none) ∧
      ∀ p, s.plan? number = some p →
        (p.state ≠ .checked → s.refuses i Kind.releasePlan .state) ∧
        (p.state = .checked → 4 ≤ (s.saw w).queue.length → s.refuses i Kind.releasePlan .full) ∧
        (p.state = .checked → (s.saw w).queue.length < 4 → (s.saw w).blade = none →
          s.refuses i Kind.releasePlan .blade) ∧
        ∀ n b, p.state = .checked → (s.saw w).queue.length < 4 → (s.saw w).blade = some n → s.blade? n = some b →
          (b.health = .exhausted → s.refuses i Kind.releasePlan .blade) ∧
          (b.health ≠ .exhausted → p.kerf < b.kerf → s.refuses i Kind.releasePlan .kerf) ∧
          (b.health ≠ .exhausted → b.kerf ≤ p.kerf → (∃ r, s.slab? p.slab = some r ∧ r.missing = true) →
            s.refuses i Kind.releasePlan .missing) ∧
          (b.health ≠ .exhausted → b.kerf ≤ p.kerf → (∀ r, s.slab? p.slab = some r → r.missing = false) →
            ∃ t : State, t.plan? number = some { p with state := .released, saw := some w } ∧
              (∀ m, m ≠ number → t.plan? m = s.plan? m) ∧
              t.sdp.saws = s.sdp.saws.set w { s.saw w with queue := (s.saw w).queue ++ [number] } ∧
              t = { s with pln := t.pln, sdp := { s.sdp with saws := t.sdp.saws } } ∧
              exec i s = .next ((t.loadHead w).answered Kind.releasePlan .ok []))

/-- CANCEL PLAN from DRAFT and CHECKED, and from RELEASED with the saw's side of it (R57); pieces planned is lowered unless the
count stands at 65,535 (R206). -/
def Obligations.CancelPlan : Prop :=
  ∀ (s : State) (number : Nat), s.ready →
    let i := Instr.cancelPlan number
    (s.plan? number = none → s.refuses i Kind.cancelPlan .none) ∧
    ∀ p, s.plan? number = some p →
      (p.state = .cutting ∨ p.state = .done ∨ p.state = .cancelled ∨ p.state = .abandoned →
        s.refuses i Kind.cancelPlan .state) ∧
      (p.state = .draft →
        ∃ t, exec i s = .next t ∧ t.plan? number = some { p with state := .cancelled } ∧
          (∀ n, n ≠ number → t.plan? n = s.plan? n) ∧ t = { s.answered Kind.cancelPlan .ok [] with pln := t.pln }) ∧
      (p.state = .checked ∨ p.state = .released →
        ∃ u : State, u.slab? p.slab = (s.slab? p.slab).map (fun r => { r with state := .available, plan := none }) ∧
          (∀ n, n ≠ p.slab → u.slab? n = s.slab? n) ∧
          u.job? p.job = (s.job? p.job).map (fun j => { j with
            planned := if 65535 ≤ j.planned then j.planned else j.planned - pieceCount p.strips }) ∧
          (∀ n, n ≠ p.job → u.job? n = s.job? n) ∧ (∀ n, n ≠ number → u.plan? n = s.plan? n) ∧
          u = { s with pln := u.pln, jcu := u.jcu, sdp := u.sdp, stk := { s.stk with slabs := u.stk.slabs } } ∧
          (p.state = .checked → u.plan? number = some { p with state := .cancelled } ∧ u.sdp = s.sdp ∧
            exec i s = .next (u.answered Kind.cancelPlan .ok [])) ∧
          (∀ w, p.state = .released → p.saw = some w →
            let left : SawRec := { s.saw w with queue := (s.saw w).queue.filter fun m => m != number }
            let unload : List Frame :=
              if (s.saw w).link = .up then s.sdp.queued.get w ++ [⟨Kind.unload, none, [.u16 number]⟩]
              else s.sdp.queued.get w
            u.plan? number = some { p with state := .cancelled, saw := none } ∧
            ((s.saw w).pendingLoad ≠ some number →
              u.sdp = { s.sdp with saws := s.sdp.saws.set w left } ∧
              exec i s = .next (u.answered Kind.cancelPlan .ok [])) ∧
            ((s.saw w).pendingLoad = some number → (s.saw w).state ≠ .loading →
              u.sdp = { s.sdp with saws := s.sdp.saws.set w { left with pendingLoad := none },
                                   queued := s.sdp.queued.set w unload } ∧
              exec i s = .next (u.answered Kind.cancelPlan .ok [])) ∧
            ((s.saw w).pendingLoad = some number → (s.saw w).state = .loading →
              u.sdp = { s.sdp with saws := s.sdp.saws.set w { left with pendingLoad := none, state := .idle },
                                   queued := s.sdp.queued.set w unload } ∧
              exec i s = .next ((u.loadHead w).answered Kind.cancelPlan .ok []))))

/-- ABANDON PLAN: when it is refused; and in every other state of its saw what it does, in the order of R59: the pass records,
the slab, the charge and pieces planned (R206), then the saw's removal from the line with the admission pass that follows
(R183), which is nothing for a saw in no line, then the saw cleared, UNLOAD, the plan out of its queue, and the saw's way on
(R130). By the law of the water the saw then stands neither in the line nor in the order. -/
def Obligations.AbandonPlan : Prop :=
  ∀ (s : State) (number : Nat), s.ready →
    let i := Instr.abandonPlan number
    (s.plan? number = none → s.refuses i Kind.abandonPlan .none) ∧
    ∀ p, s.plan? number = some p →
      (p.state ≠ .cutting → s.refuses i Kind.abandonPlan .state) ∧
      ∀ w, p.state = .cutting → p.saw = some w →
        ((s.saw w).state = .cutting ∨ (s.saw w).state = .holding → s.refuses i Kind.abandonPlan .state) ∧
        ((s.saw w).state ≠ .cutting → (s.saw w).state ≠ .holding →
          let basis := p.derived.elim 0 Derived.basisAtCheck
          let left := pieceCount p.strips - p.piecesFinished
          let charged := (s.charge p.job (Job.chargeStone basis)).updateJob p.job
            (fun j => { j with planned := if 65535 ≤ j.planned then j.planned else j.planned - left })
          ∃ v u : State,
            v.slab? p.slab = (s.slab? p.slab).map (fun r => { r with state := .scrapped, plan := none }) ∧
            (∀ n, n ≠ p.slab → v.slab? n = s.slab? n) ∧ (∀ n, n ≠ number → v.plan? n = s.plan? n) ∧
            v.plan? number = some { p with derived := p.derived.map fun d => { d with passes := d.passes.map fun q => { q with
              state := if q.state = .staged then .pending else q.state } } } ∧
            v = { charged with pln := v.pln, stk := { s.stk with slabs := v.stk.slabs } } ∧
            let out := v.removeFromLine w
            (∀ n, n ≠ number → u.plan? n = out.plan? n) ∧
            u.plan? number = (out.plan? number).map (fun p => { p with state := .abandoned, saw := none }) ∧
            u.sdp.saws = out.sdp.saws.set w
              { out.saw w with context := none, outstanding := [], passTime := 0,
                               pendingLoad := none, queue := (out.saw w).queue.filter (fun m => m != number),
                               state := if (out.saw w).link = .up then .idle else .offline } ∧
            u.sdp.queued = (if (out.saw w).link = .up then
                out.sdp.queued.set w (out.sdp.queued.get w ++ [⟨Kind.unload, none, [.u16 number]⟩]) else out.sdp.queued) ∧
            u = { out with pln := u.pln, sdp := { out.sdp with saws := u.sdp.saws, queued := u.sdp.queued } } ∧
            (∀ e ∈ (u.loadHead w).wau.line, e.saw ≠ w) ∧ (WaterLaw s → w ∉ (u.loadHead w).wau.order) ∧
            exec i s = .next ((u.loadHead w).answered Kind.abandonPlan .ok []))

/-- READ PLAN with the record laid out field by field, the finished indication of strip s at bit s − 1, and READ PASS LIST with
7 bytes a pass (R60, R216); RETIRE PLAN (R61). -/
def Obligations.ReadAndRetirePlan : Prop :=
  (∀ (s : State) (number : Nat), s.ready →
    (s.plan? number = none → s.refuses (.readPlan number) Kind.readPlan .none) ∧
    ∀ p, s.plan? number = some p →
      let rem := p.derived.bind Derived.remnant
      ∃ bits : Nat, (∀ k, bits.testBit k = (p.finished[k]?).getD false) ∧
      s.reports (.readPlan number) Kind.readPlan
        ([.u16 p.number, .u16 p.job, .u16 p.slab, .u8 p.state.code, .u8 (p.saw.elim 0 Saw.toNat),
            .u8 (p.finished.filter id).length, .u8 bits, .u8 p.piecesFinished,
            .u16 (p.remnantGiven.getD 0), .u8 (boolCode p.derived.isSome), .u8 p.passes.length,
            .u32 (p.derived.elim 0 Derived.cutLength), .u16 (p.derived.elim 0 Derived.yield), .u8 (boolCode rem.isSome),
            .u16 (rem.elim 0 RemnantPart.length), .u16 (rem.elim 0 RemnantPart.width), .u32 (rem.elim 0 RemnantPart.basis),
            .u32 (p.derived.elim 0 Derived.stoneCharge), .u32 (p.derived.elim 0 Derived.basisAtCheck),
            .u8 (rem.elim [] RemnantPart.flaws).length]
          ++ ((rem.elim [] RemnantPart.flaws).flatMap fun f => [.u16 f.x0, .u16 f.x1, .u16 f.y0, .u16 f.y1])
          ++ (.u8 p.kerf :: .u8 p.strips.length :: p.strips.flatMap fun t =>
            .u16 t.width :: .u8 t.pieces.length :: t.pieces.flatMap fun x => [.u16 x.mark, .u16 x.length]))) ∧
  (∀ (s : State) (number : Nat), s.ready →
    (s.plan? number = none → s.refuses (.readPassList number) Kind.readPassList .none ∧
      s.refuses (.retirePlan number) Kind.retirePlan .none) ∧
    ∀ p, s.plan? number = some p →
      s.reports (.readPassList number) Kind.readPassList
        (.u16 p.number :: .u8 p.passes.length :: p.passes.flatMap fun q =>
          [.u8 (q.strip - 1 + 8 * q.kind.code + 16 * q.state.code), .u16 q.coordinate, .u16 q.length, .u16 q.reached]) ∧
      (p.state = .draft ∨ p.state = .checked ∨ p.state = .released ∨ p.state = .cutting →
        s.refuses (.retirePlan number) Kind.retirePlan .state) ∧
      (p.state = .done ∨ p.state = .cancelled ∨ p.state = .abandoned →
        ∃ t, exec (.retirePlan number) s = .next t ∧ t.plan? number = none ∧
          (∀ n, n ≠ number → t.plan? n = s.plan? n) ∧
          t.job? p.job = (s.job? p.job).map (fun j => { j with plans := j.plans.filter fun n => n != number }) ∧
          (∀ n, n ≠ p.job → t.job? n = s.job? n) ∧
          t = { s.answered Kind.retirePlan .ok [] with pln := t.pln, jcu := t.jcu }))

/-! ## SDP: the saws (05_saw_links_and_pass_dispatch.md, 06_holds_faults_and_resumption.md) -/

/-- CONFIGURE SAW (R86), READ SAW field by field (R87) and READ CONTEXT field by field (R115); the layouts follow R211 (logs 16
and 17). -/
def Obligations.SawRequests : Prop :=
  ∀ (s : State) (saw demand rate : Nat), s.ready →
    (saw = 0 ∨ 4 < saw → s.refuses (.configureSaw saw demand rate) Kind.configureSaw .form ∧
      s.refuses (.readSaw saw) Kind.readSaw .form ∧ s.refuses (.readContext saw) Kind.readContext .form) ∧
    ∀ w, Saw.toNat w = saw →
      let r := s.saw w
      let d := max 5 (min 120 demand)
      let k := min 100000 rate
      exec (.configureSaw saw demand rate) s = .next ((s.updateSaw w fun r => { r with demand := d, rate := k }).answered
        Kind.configureSaw .ok [.u16 d, .u32 k]) ∧
      s.reports (.readSaw saw) Kind.readSaw
        ([.u8 r.link.code, .u8 r.state.code, .u16 r.demand, .u32 r.rate, .u16 r.maxFeed, .u16 (r.blade.getD 0),
            .u8 (boolCode r.interlock), .u8 r.queue.length] ++ (r.queue.map fun n => .u16 n) ++ [.u16 (r.pendingLoad.getD 0)]
          ++ (.u8 r.outstanding.length :: r.outstanding.flatMap fun o => [.u8 o.tag, .u8 o.index]) ++ [.u8 r.nextTag]
          ++ [.u8 (r.context.elim 0 fun c => c.kind.code), .u8 (r.context.elim 0 fun c => c.cause.elim 0 Cause.code),
            .u8 (r.context.elim 0 Context.faults), .u8 (boolCode r.meters.isOpen), .u16 r.meters.startAt,
            .u16 r.meters.time, .u16 r.heartbeat, .u16 ((s.wau.allotment.get w).getD 0)]) ∧
      (r.context = none → s.reports (.readContext saw) Kind.readContext
        [.u8 0, .u16 r.passTime, .u16 (r.holdTimer.getD 0)]) ∧
      ∀ c, r.context = some c →
        (c.part = none → s.reports (.readContext saw) Kind.readContext
          [.u8 1, .u8 c.kind.code, .u8 (c.cause.elim 0 Cause.code), .u16 0, .u8 0, .u8 0, .u8 0, .u16 0, .u16 0, .u16 c.time,
            .u8 c.faults, .u16 r.passTime, .u16 (r.holdTimer.getD 0)]) ∧
        ∀ p, c.part = some p → s.reports (.readContext saw) Kind.readContext
          [.u8 1, .u8 c.kind.code, .u8 (c.cause.elim 0 Cause.code), .u16 p.plan, .u8 p.index, .u8 (boolCode p.tag.isSome),
            .u8 (p.tag.getD 0), .u16 p.position, .u16 p.remaining, .u16 c.time, .u8 c.faults, .u16 r.passTime,
            .u16 (r.holdTimer.getD 0)]

/-- What R89 says of every good frame from a saw: the heartbeat age returns to 0 and the frame is answered; on a DOWN link every
message but HELLO is answered STATE and changes nothing else; a malformed frame is answered FORM and changes nothing else;
STATUS is answered ACK and moves reached of a CUTTING or HOLDING saw (R105). That a malformed frame on a DOWN link is answered
FORM is the model's reading (log 13). -/
def Obligations.SawFramesAreAnswered : Prop :=
  ∀ (s : State) (w : Saw), s.running = true →
    (∀ kind, exec (.sawMessageMalformed w kind) s = .next (s.acked w kind .form)) ∧
    ((s.saw w).link = .down → ∀ plan tag position cause opt,
      exec (.loaded w plan) s = .next (s.acked w Kind.loaded .state) ∧
      exec (.start w tag) s = .next (s.acked w Kind.start .state) ∧
      exec (.done w tag) s = .next (s.acked w Kind.done .state) ∧
      exec (.held w tag position) s = .next (s.acked w Kind.held .state) ∧
      exec (.fault w opt position cause) s = .next (s.acked w Kind.fault .state) ∧
      exec (.status w position) s = .next (s.acked w Kind.status .state)) ∧
    ((s.saw w).link = .up → ∀ position,
      (s.saw w).state ≠ .cutting → (s.saw w).state ≠ .holding →
        exec (.status w position) s = .next (s.acked w Kind.status .ok)) ∧
    ((s.saw w).link = .up → ∀ position p q, s.activePass? w = some (p, q) →
      (s.saw w).state = .cutting ∨ (s.saw w).state = .holding →
        exec (.status w position) s = .next ((s.acked w Kind.status .ok).updatePass p.number q.index fun x =>
          { x with reached := max x.reached (min position x.length) }))

/-- HELLO on a DOWN link: it comes UP, the max feed is clamped, SAW_LINK is raised; a FAULTED saw stays so, an OFFLINE saw is
loaded with its head or, its head left with an ACTIVE pass, FAULTED with a LINK context (R90, R126). On an UP link it is silence
first (R90), so a controller that restarts finds its link UP and its window empty: a saw outside a cut goes through OFFLINE to
IDLE and its head, a FAULTED saw keeps its context, and a saw in a cut or HELD is FAULTED with a LINK context (R91, R122). -/
def Obligations.Hello : Prop :=
  ∀ (s : State) (w : Saw) (maxFeed : Nat), s.running = true →
    let u := (s.acked w Kind.hello .ok).updateSaw w fun r => { r with maxFeed := max 100 (min 6000 maxFeed) }
    let up := (u.updateSaw w fun r => { r with link := .up }).raise .sawLink
    let idle := up.updateSaw w fun r => { r with state := .idle }
    let r := s.saw w
    let restarted (t : State) : Prop := (t.saw w).link = .up ∧ (t.saw w).outstanding = [] ∧
      (t.saw w).maxFeed = max 100 (min 6000 maxFeed) ∧ (t.saw w).heartbeat = 0 ∧ (t.saw w).nextTag = r.nextTag ∧
      (t.saw w).queue = r.queue ∧ t.olc.pending &&& 4#16 = 4#16
    ((s.saw w).link = .down → (s.saw w).state ≠ .offline → exec (.hello w maxFeed) s = .next up) ∧
    ((s.saw w).link = .down → (s.saw w).state = .offline → s.headPlan? w = none →
      exec (.hello w maxFeed) s = .next idle) ∧
    (∀ p, (s.saw w).link = .down → (s.saw w).state = .offline → s.headPlan? w = some p →
      ((p.state ≠ .cutting ∨ ∀ q ∈ p.passes, q.state ≠ .active) →
        exec (.hello w maxFeed) s = .next (idle.loadHead w)) ∧
      ∀ q, p.state = .cutting → s.activePass? w = some (p, q) →
        exec (.hello w maxFeed) s = .next (up.updateSaw w fun r =>
          { r with state := .faulted
                   context := some ⟨.link, some .linkLost,
                     some ⟨p.number, q.index, none, q.reached, q.length - q.reached⟩, r.passTime, 1⟩ })) ∧
    ((s.saw w).link = .up → exec (.hello w maxFeed) s = .next ((u.loseLink w).linkUp w)) ∧
    (r.link = .up → r.state = .faulted →
      ∃ t, exec (.hello w maxFeed) s = .next t ∧ restarted t ∧ (t.saw w).state = .faulted ∧ (t.saw w).pendingLoad = none ∧
        (t.saw w).context = r.context) ∧
    (r.link = .up → QueueLaw s → r.state = .idle ∨ r.state = .loading ∨ r.state = .primed ∨ r.state = .waiting →
      ∃ t, exec (.hello w maxFeed) s = .next t ∧ restarted t ∧
        (s.headPlan? w = none → (t.saw w).state = .idle ∧ (t.saw w).pendingLoad = none ∧ (t.saw w).context = r.context) ∧
        ∀ p, s.headPlan? w = some p →
          ((p.state ≠ .cutting ∨ ∀ q ∈ p.passes, q.state ≠ .active) → s.slab? p.slab ≠ none →
            (t.saw w).state = .loading ∧ (t.saw w).pendingLoad = some p.number ∧ (t.saw w).context = r.context) ∧
          ∀ q, p.state = .cutting → s.activePass? w = some (p, q) →
            (t.saw w).state = .faulted ∧ (t.saw w).pendingLoad = none ∧ (t.saw w).context =
              some ⟨.link, some .linkLost, some ⟨p.number, q.index, none, q.reached, q.length - q.reached⟩, r.passTime, 1⟩) ∧
    (∀ p q, r.link = .up → QueueLaw s → WaterLaw s → s.activePass? w = some (p, q) →
      r.state = .cutting ∨ r.state = .holding ∨ r.state = .held →
      let time := if r.state = .held then r.passTime else min 65535 (r.passTime + r.meters.time)
      ∃ t, exec (.hello w maxFeed) s = .next t ∧ restarted t ∧ (t.saw w).state = .faulted ∧ (t.saw w).context =
          some ⟨.link, some .linkLost, some ⟨p.number, q.index, s.activeTag? w, q.reached, q.length - q.reached⟩, time, 1⟩ ∧
        t.wau.allotment.get w = none ∧ t.wau.permit.get w = false ∧ w ∉ t.wau.order ∧ (∀ e ∈ t.wau.line, e.saw ≠ w))

/-- Link silence by the state of the saw (R91); an UP link has one silence. That silence on a DOWN link changes nothing is the
model's choice (log 9). During a cut or a hold (R122) the saw ends FAULTED with a LINK context at its reached, its link DOWN,
its segment closed and charged there, no pass outstanding, no water and no place in the line. -/
def Obligations.LinkSilence : Prop :=
  (∀ (s : State) (w : Saw), s.running = true →
    ((s.saw w).link = .down → exec (.linkSilence w) s = .next s) ∧
    ((s.saw w).link = .up →
      let aged := s.updateSaw w fun r => { r with heartbeat := max r.heartbeat 30 }
      let down := (aged.updateSaw w fun r => { r with link := .down }).raise .sawLink
      let held := (s.saw w).outstanding.map Outstanding.index
      let returned (t : State) : State :=
        (t.headPlan? w).elim t fun p => t.updatePlan p.number fun p => { p with derived := p.derived.map fun d =>
          { d with passes := d.passes.map fun q =>
              if held.contains q.index ∧ q.state = .staged then { q with state := .pending } else q } }
      exec (.linkSilence w) s = .next (aged.loseLink w) ∧
      ((s.saw w).state = .offline → aged.loseLink w = down) ∧
      ((s.saw w).state = .idle ∨ (s.saw w).state = .loading ∨ (s.saw w).state = .primed →
        aged.loseLink w = (returned down).updateSaw w fun r =>
          { r with outstanding := [], pendingLoad := none, state := .offline }) ∧
      ((s.saw w).state = .waiting →
        aged.loseLink w = (returned (down.removeFromLine w)).updateSaw w fun r =>
          { r with outstanding := [], pendingLoad := none, state := .offline }) ∧
      ((s.saw w).state = .faulted →
        aged.loseLink w = (returned down).updateSaw w fun r => { r with outstanding := [], pendingLoad := none }))) ∧
  (∀ (s : State) (w : Saw) (p : Plan) (q : Pass), s.running = true → (s.saw w).link = .up → QueueLaw s → WaterLaw s →
    s.activePass? w = some (p, q) →
    (s.saw w).state = .cutting ∨ (s.saw w).state = .holding ∨ (s.saw w).state = .held →
    let r := s.saw w
    let time := if r.state = .held then r.passTime else min 65535 (r.passTime + r.meters.time)
    let down := (s.updateSaw w fun x => { x with heartbeat := max x.heartbeat 30, link := .down }).raise .sawLink
    let left := if r.state = .held then down.removeFromLine w
      else ((down.updateSaw w fun x => { x with holdTimer := none }).closeSegment w q.reached).waterGivenUp w
    ∃ t, exec (.linkSilence w) s = .next t ∧ (t.saw w).state = .faulted ∧ (t.saw w).link = .down ∧
      t.jcu = left.jcu ∧ t.bld = left.bld ∧
      (t.saw w).context = some ⟨.link, some .linkLost,
        some ⟨p.number, q.index, s.activeTag? w, q.reached, q.length - q.reached⟩, time, 1⟩ ∧
      (t.saw w).outstanding = [] ∧ (t.saw w).nextTag = r.nextTag ∧ (t.saw w).passTime = time ∧
      (r.state ≠ .held → (t.saw w).meters = ⟨false, 0, 0, 0, (r.meters.flow + r.meters.remainder) % 600⟩ ∧
        (t.saw w).holdTimer = none) ∧
      t.wau.allotment.get w = none ∧ t.wau.permit.get w = false ∧ w ∉ t.wau.order ∧ (∀ e ∈ t.wau.line, e.saw ≠ w) ∧
      (∀ x ∈ r.outstanding, x.index ≠ q.index → ∀ p', t.plan? p.number = some p' → ∀ y ∈ p'.passes, y.index = x.index →
        y.state ≠ .staged) ∧
      t.stk = s.stk ∧ t.pmn = s.pmn ∧ t.rsv = s.rsv ∧ t.olc.pending &&& 4#16 = 4#16)

/-- A tag given and a pass staged (R99, R100): the lowest PENDING pass takes the first free tag at or after the next tag, its
ORDER goes out, and the next tag is the one after. -/
def Obligations.StagingAPass : Prop :=
  ∀ (s : State) (w : Saw) (p : Plan), s.headPlan? w = some p → (s.saw w).outstanding.length ≤ 1 → (s.saw w).nextTag ≤ 7 →
    ((∀ q ∈ p.passes, q.state ≠ .pending) → s.stagePass w = s) ∧
    ∀ q, p.passes.find? (fun q => q.state == .pending) = some q →
      ∃ (k tag : Nat), k ≤ 1 ∧ tag = ((s.saw w).nextTag + k) % 8 ∧ (∀ o ∈ (s.saw w).outstanding, o.tag ≠ tag) ∧
        (k = 1 → ∃ o ∈ (s.saw w).outstanding, o.tag = (s.saw w).nextTag) ∧
        s.stagePass w =
          ((s.updateSaw w fun r =>
              { r with outstanding := r.outstanding ++ [⟨tag, q.index⟩], nextTag := (tag + 1) % 8 }).send w
            ⟨Kind.order, none, [.u8 tag, .u16 p.number, .u8 q.index, .u8 q.kind.code, .u16 q.coordinate, .u16 q.length,
              .u16 (min ((s.slab? p.slab).elim 0 fun r => s.feed r.material) (s.saw w).maxFeed)]⟩).updatePass p.number q.index
                fun x => { x with state := .staged }

/-- LOADED, with its checks (R94); the load reported (R62), the window filled, PRIMED. -/
def Obligations.LoadedTaken : Prop :=
  ∀ (s : State) (w : Saw) (plan : Nat), s.linked w →
    let i := Instr.loaded w plan
    let u := (s.acked w Kind.loaded .ok).updateSaw w fun r => { r with pendingLoad := none }
    let filled (t : State) : State :=
      let t := if (t.saw w).outstanding.length < 2 then t.stagePass w else t
      let t := if (t.saw w).outstanding.length < 2 then t.stagePass w else t
      t.updateSaw w fun r => { r with state := .primed }
    ((s.saw w).pendingLoad ≠ some plan → exec i s = .next (s.acked w Kind.loaded .stale)) ∧
    ((s.saw w).pendingLoad = some plan → (s.saw w).state ≠ .loading → exec i s = .next (s.acked w Kind.loaded .state)) ∧
    ∀ p, (s.saw w).pendingLoad = some plan → (s.saw w).state = .loading → s.plan? plan = some p →
      (p.state = .cutting → exec i s = .next (filled u)) ∧
      ∀ r, p.state = .released → s.slab? p.slab = some r → r.state = .reserved →
        ∃ v : State, v.plan? plan = some { p with state := .cutting } ∧ (∀ n, n ≠ plan → v.plan? n = s.plan? n) ∧
          v.slab? p.slab = some { r with state := .onSaw, place := none, missing := false, mark := false } ∧
          (∀ n, n ≠ p.slab → v.slab? n = s.slab? n) ∧
          (∀ x, v.rackAt? x = if r.place = some x then none else s.rackAt? x) ∧
          v = { u with pln := v.pln,
                       stk := { s.stk with slabs := v.stk.slabs, rackMap := v.stk.rackMap,
                                           audit := if r.mark then { s.stk.audit with marked := s.stk.audit.marked - 1 }
                                             else s.stk.audit } } ∧
          exec i s = .next (filled v)

/-- START, with its checks in order (R102); admitted, the pass is ACTIVE under GO and its segment open, else the saw waits at
the tail of the line (R103, R177, R179). -/
def Obligations.StartTaken : Prop :=
  ∀ (s : State) (w : Saw) (tag : Nat), s.linked w →
    let i := Instr.start w tag
    let r := s.saw w
    let u := s.acked w Kind.start .ok
    (r.state ≠ .primed → exec i s = .next (s.acked w Kind.start .state)) ∧
    (r.state = .primed → (∀ o ∈ r.outstanding, o.tag ≠ tag) → exec i s = .next (s.acked w Kind.start .stale)) ∧
    ∀ o os, r.state = .primed → r.outstanding = o :: os →
      (o.tag ≠ tag → (∃ x ∈ os, x.tag = tag) → exec i s = .next (s.acked w Kind.start .order)) ∧
      (o.tag = tag → r.interlock = false → exec i s = .next (s.acked w Kind.start .notReady)) ∧
      (o.tag = tag → r.interlock = true → s.wau.settings.rating < r.demand →
        exec i s = .next (s.acked w Kind.start .demand)) ∧
      (o.tag = tag → r.interlock = true → r.demand ≤ s.wau.settings.rating →
        ¬ (s.wau.line = [] ∧ r.demand + s.wau.granted ≤ s.wau.capacity) →
        exec i s = .next (((u.withWau fun a => { a with line := a.line ++ [⟨w, .started⟩] }).send w
          ⟨Kind.wait, none, [.u8 tag]⟩).updateSaw w fun r => { r with state := .waiting })) ∧
      ∀ p q, o.tag = tag → r.interlock = true → r.demand ≤ s.wau.settings.rating → s.wau.line = [] →
        r.demand + s.wau.granted ≤ s.wau.capacity → s.headPlan? w = some p → (∀ x ∈ p.passes, x.state ≠ .active) →
        p.passes.find? (fun x => x.index == o.index) = some q →
        exec i s = .next (((((u.withWau fun a =>
            { a with allotment := a.allotment.set w (some r.demand), order := (a.order.filter fun v => v != w) ++ [w],
                     permit := a.permit.set w true }).send w ⟨Kind.go, none, [.u8 tag]⟩).updatePass p.number o.index
              fun x => { x with state := .active })).updateSaw w fun r =>
                { r with passTime := 0, meters := ⟨true, q.reached, 0, 0, r.meters.remainder⟩, state := .cutting })

/-- A segment closed and charged (R107, R114): wear and its charge, the volume and the remainder (R164), the saw-time and water
charges, and the meters at 0, for a saw whose blade, head plan and job are on record; without a blade no wear accrues and no
blade charge is made. -/
def Obligations.SegmentClosed : Prop :=
  (∀ (s : State) (w : Saw) (position n : Nat) (b : Blade) (p : Plan) (q : Pass) (r : Slab) (j : Job),
    s.activePass? w = some (p, q) → (s.saw w).blade = some n → s.blade? n = some b → s.slab? p.slab = some r →
    s.job? p.job = some j →
    let m := (s.saw w).meters
    let progress := min position q.length - m.startAt
    let h := s.hardness r.material
    let increase := (progress * h + b.wearRemainder) / 100
    let cost := b.price * increase + b.costRemainder
    let u := (s.saw w).rate * m.time + j.sawRemainder
    let v := s.wau.settings.waterRate * ((m.flow + m.remainder) / 600) + j.waterRemainder
    let closed : SawRec := { s.saw w with
      passTime := min 65535 ((s.saw w).passTime + m.time)
      meters := ⟨false, 0, 0, 0, (m.flow + m.remainder) % 600⟩ }
    ∃ (t : State) (b' : Blade) (j' : Job), s.closeSegment w position = t ∧ t.blade? n = some b' ∧
      b'.wear = min 4000000000 (b.wear + increase) ∧ b'.wearRemainder = (progress * h + b.wearRemainder) % 100 ∧
      b'.costRemainder = cost % (b.life * 1000) ∧ (∀ k, k ≠ n → t.blade? k = s.blade? k) ∧
      t.job? p.job = some j' ∧ j'.blade = min 999999999 (j.blade + cost / (b.life * 1000)) ∧
      j'.sawTime = min 999999999 (j.sawTime + u / 36000) ∧ j'.sawRemainder = u % 36000 ∧
      j'.water = min 999999999 (j.water + v / 10000) ∧ j'.waterRemainder = v % 10000 ∧ j'.stone = j.stone ∧
      (j.state = .opened → j'.state = .active) ∧ (∀ k, k ≠ p.job → t.job? k = s.job? k) ∧
      t = { s with bld := t.bld, jcu := t.jcu, olc := t.olc, sdp := { s.sdp with saws := s.sdp.saws.set w closed } }) ∧
  ∀ (s : State) (w : Saw) (position : Nat) (p : Plan) (q : Pass) (j : Job), s.activePass? w = some (p, q) →
    (s.saw w).blade = none → s.job? p.job = some j →
    let m := (s.saw w).meters
    let u := (s.saw w).rate * m.time + j.sawRemainder
    let v := s.wau.settings.waterRate * ((m.flow + m.remainder) / 600) + j.waterRemainder
    let closed : SawRec := { s.saw w with
      passTime := min 65535 ((s.saw w).passTime + m.time)
      meters := ⟨false, 0, 0, 0, (m.flow + m.remainder) % 600⟩ }
    ∃ (t : State) (j' : Job), s.closeSegment w position = t ∧ t.job? p.job = some j' ∧ j'.blade = j.blade ∧
      j'.sawTime = min 999999999 (j.sawTime + u / 36000) ∧ j'.sawRemainder = u % 36000 ∧
      j'.water = min 999999999 (j.water + v / 10000) ∧ j'.waterRemainder = v % 10000 ∧ j'.stone = j.stone ∧
      (∀ k, k ≠ p.job → t.job? k = s.job? k) ∧
      t = { s with jcu := t.jcu, olc := t.olc, sdp := { s.sdp with saws := s.sdp.saws.set w closed } }

/-- DONE, with its checks in order (R108). Taken while CUTTING or HOLDING, the segment is closed and charged at the pass length
(R107, R109 step 1), the pass is DONE at its length, the strips it completes are finished and their pieces counted (R63, R207),
the water is given back with the admission pass of a release, and the plan ends with its last pass or the saw is PRIMED again
(R109, R110, R119). -/
def Obligations.DoneTaken : Prop :=
  ∀ (s : State) (w : Saw) (tag : Nat), s.linked w →
    let i := Instr.done w tag
    let r := s.saw w
    ((∀ o ∈ r.outstanding, o.tag ≠ tag) → exec i s = .next (s.acked w Kind.done .stale)) ∧
    ((∃ o ∈ r.outstanding, o.tag = tag) → s.activeTag? w ≠ some tag → exec i s = .next (s.acked w Kind.done .order)) ∧
    ((∃ o ∈ r.outstanding, o.tag = tag) → s.activeTag? w = some tag → r.state ≠ .cutting → r.state ≠ .holding →
      exec i s = .next (s.acked w Kind.done .state)) ∧
    ∀ p q, QueueLaw s → WaterLaw s → s.activePass? w = some (p, q) → s.activeTag? w = some tag →
      r.state = .cutting ∨ r.state = .holding →
      let passes := p.passes.map fun x => if x.index = q.index then { x with state := .done, reached := x.length } else x
      let cut (n : Nat) : Bool := passes.all fun x => x.state == .done || !(x.kind == .rip || x.strip == n + 1)
      let pieces := ((p.strips.zip p.finished).zipIdx.map fun x => if !x.1.2 && cut x.2 then x.1.1.pieces.length else 0).sum
      let closed :=
        ((s.acked w Kind.done .ok).updateSaw w fun x => { x with holdTimer := none }).closeSegment w q.length
      ∃ (u v : State) (p' : Plan), u.bld = closed.bld ∧
        (∀ n, u.job? n = (closed.job? n).map fun j => if n = p.job then { j with cut := min 65535 (j.cut + pieces) } else j) ∧
        u = { closed with
              pln := u.pln, jcu := u.jcu, sdp := { closed.sdp with saws := closed.sdp.saws.set w { closed.saw w with
                outstanding := r.outstanding.filter (fun o => o.index != q.index), passTime := 0 } } } ∧
        v = u.waterGivenUp w ∧
        v.plan? p.number = some p' ∧ p'.passes = passes ∧ p'.state = p.state ∧ p'.slab = p.slab ∧
        p'.job = p.job ∧ (∀ (n : Nat) (st : Strip) (f : Bool), p.strips[n]? = some st → p.finished[n]? = some f →
          (p'.finished[n]? = some true ↔ f = true ∨ cut n = true)) ∧ p'.piecesFinished = p.piecesFinished + pieces ∧
        (v.job? p.job).map Job.cut = (s.job? p.job).map (fun j => min 65535 (j.cut + pieces)) ∧
        (v.saw w).outstanding = r.outstanding.filter (fun o => o.index != q.index) ∧ (v.saw w).passTime = 0 ∧
        (v.saw w).holdTimer = none ∧ (v.saw w).meters.isOpen = false ∧ (v.saw w).queue = r.queue ∧
        (v.saw w).nextTag = r.nextTag ∧ v.wau.allotment.get w = none ∧ v.wau.permit.get w = false ∧ w ∉ v.wau.order ∧
        (∀ e ∈ v.wau.line, e.saw ≠ w) ∧ v.stk = s.stk ∧ v.pmn = s.pmn ∧ v.rsv = s.rsv ∧
        ((∀ x ∈ passes, x.state = .done) → exec i s = .next (v.complete w p')) ∧
        (¬ (∀ x ∈ passes, x.state = .done) →
          exec i s = .next ((v.stagePass w).updateSaw w fun r => { r with state := .primed }))

/-- The completion chain (R64) with a remnant made, with none derived, and with the stock table full (R65): the plan, the slab,
the stone charge, the notices and the saw's way on (R97). -/
def Obligations.CompletionChain : Prop :=
  ∀ (s : State) (w : Saw) (p : Plan) (r : Slab) (d : Derived), s.plan? p.number = some p → s.slab? p.slab = some r →
    p.derived = some d → (s.saw w).link = .up → (s.saw w).pendingLoad = none →
    let consumed := s.updateSlab p.slab fun r => { r with state := .consumed, plan := none }
    let made : Option Nat × State := d.remnant.elim (none, consumed) fun part => consumed.createRemnant p.slab part
    let stone := if d.remnant.isSome ∧ made.1 = none then d.basisAtCheck else d.stoneCharge
    let charged := s.charge p.job (Job.chargeStone stone)
    ∃ u : State, s.complete w p = u.loadHead w ∧
      u.plan? p.number = some { p with state := .done, saw := none,
                                       remnantGiven := if made.1.isSome then made.1 else p.remnantGiven } ∧
      (∀ n, n ≠ p.number → u.plan? n = s.plan? n) ∧
      u.sdp = { s.sdp with
        saws := s.sdp.saws.set w
          { s.saw w with queue := (s.saw w).queue.filter (fun m => m != p.number), state := .idle },
        queued := s.sdp.queued.set w (s.sdp.queued.get w ++ [⟨Kind.unload, none, [.u16 p.number]⟩]) } ∧
      u = { s with pln := u.pln, sdp := u.sdp, stk := made.2.stk, jcu := charged.jcu, olc :=
        (if made.1.isSome then ((charged.raise .planDone).raise .remnantMade)
         else if d.remnant.isSome then ((charged.raise .planDone).raise .stockFull) else charged.raise .planDone).olc }

/-- HELD, with its check (R117): the hold ends in a HOLD context at the position, the permit goes off, the saw stands in the
line ahead of saws that never started (R182), and an admission pass follows. The hold timer of a HOLDING saw expires (R118); of
any other saw nothing is left to end, the model's choice (log 9). -/
def Obligations.HoldEnds : Prop :=
  (∀ (s : State) (w : Saw) (tag position : Nat), s.linked w →
    let i := Instr.held w tag position
    let r := s.saw w
    (r.state ≠ .holding ∨ s.activeTag? w ≠ some tag → exec i s = .next (s.acked w Kind.held .stale)) ∧
    ∀ p q, r.state = .holding → s.activeTag? w = some tag → s.activePass? w = some (p, q) →
      let reached := max q.reached (min position q.length)
      let closed := ((s.acked w Kind.held .ok).updatePass p.number q.index fun x =>
        { x with reached := max x.reached (min position x.length) }).closeSegment w position
      ∃ (v : State) (before after : List LineEntry), exec i s = .next v.runPass ∧
        v.saw w = { closed.saw w with
          state := .held, holdTimer := none,
          context := some ⟨.hold, none, some ⟨p.number, q.index, some tag, reached, q.length - reached⟩,
            (closed.saw w).passTime, 0⟩ } ∧
        s.wau.line = before ++ after ∧ v.wau.line = before ++ ⟨w, .held⟩ :: after ∧
        (∀ e ∈ before, e.kind = .held ∧ ¬ s.wau.order.idxOf w < s.wau.order.idxOf e.saw) ∧
        (∀ e ∈ after.head?, e.kind = .started ∨ s.wau.order.idxOf w < s.wau.order.idxOf e.saw) ∧
        v = { closed with
              sdp := { closed.sdp with saws := closed.sdp.saws.set w (v.saw w) }, olc := (closed.raise .sawHeld).olc,
              wau := { s.wau with permit := s.wau.permit.set w false, line := v.wau.line } }) ∧
  (∀ (s : State) (w : Saw), s.running = true →
    ((s.saw w).state ≠ .holding → exec (.holdTimerExpiry w) s = .next s) ∧
    ∀ p q, (s.saw w).state = .holding → s.activePass? w = some (p, q) →
      let closed := s.closeSegment w q.reached
      exec (.holdTimerExpiry w) s = .next (((closed.withWau fun a =>
          { a with order := a.order.filter (fun v => v != w), permit := a.permit.set w false }).updateSaw w fun x =>
            { x with holdTimer := none, state := .faulted, context := some ⟨.fault, some .holdTimeout,
              some ⟨p.number, q.index, s.activeTag? w, q.reached, q.length - q.reached⟩, x.passTime, 1⟩ }).raise .sawFault))

/-- FAULT in a cut (R120): the position used, the reached it moves in the ACTIVE pass record, the segment closed and charged at
it, the water given up, the FAULT context, FAULTED and SAW_FAULT; an OVERLOAD adds 1 to the fitted blade's overload count, up to
255 (R143). FAULT outside a cut (R123), on a HELD saw (R124) and on a FAULTED saw (R125). -/
def Obligations.FaultTaken : Prop :=
  (∀ (s : State) (w : Saw) (tag : Option Nat) (position : Nat) (cause : SawCause) (p : Plan) (q : Pass), s.linked w →
    QueueLaw s → WaterLaw s → s.activePass? w = some (p, q) →
    (s.saw w).state = .cutting ∨ (s.saw w).state = .holding →
    let r := s.saw w
    let used := if tag = none ∨ tag = s.activeTag? w then position else q.reached
    let reached := max q.reached (min used q.length)
    let time := min 65535 (r.passTime + r.meters.time)
    let closed := (((s.acked w Kind.fault .ok).updateSaw w fun x => { x with holdTimer := none }).updatePass p.number q.index
      fun x => { x with reached := max x.reached (min used x.length) }).closeSegment w used
    let left := closed.waterGivenUp w
    ∃ t, exec (.fault w tag position cause) s = .next t ∧ (t.saw w).state = .faulted ∧
      (∃ p', t.plan? p.number = some p' ∧ t.activePass? w = some (p', { q with reached := reached }) ∧
        p'.passes = p.passes.map fun x =>
          if x.index = q.index then { x with reached := max x.reached (min used x.length) } else x) ∧
      t.jcu = left.jcu ∧ (cause ≠ .overload ∨ r.blade = none → t.bld = left.bld) ∧
      (∀ n, cause = .overload → r.blade = some n → t.bld = (left.countOverload n).bld) ∧
      (t.saw w).context = some ⟨.fault, some (causeOf cause),
        some ⟨p.number, q.index, s.activeTag? w, reached, q.length - reached⟩, time, 1⟩ ∧
      (t.saw w).outstanding = r.outstanding ∧ (t.saw w).holdTimer = none ∧ (t.saw w).passTime = time ∧
      (t.saw w).meters = ⟨false, 0, 0, 0, (r.meters.flow + r.meters.remainder) % 600⟩ ∧
      t.wau.allotment.get w = none ∧ t.wau.permit.get w = false ∧ w ∉ t.wau.order ∧ (∀ e ∈ t.wau.line, e.saw ≠ w) ∧
      (∀ n b, r.blade = some n → s.blade? n = some b → ∃ b', t.blade? n = some b' ∧
        b'.overloads = if cause = .overload then min 255 (b.overloads + 1) else b.overloads) ∧
      t.stk = s.stk ∧ t.pmn = s.pmn ∧ t.rsv = s.rsv ∧ t.olc.pending &&& 1#16 = 1#16) ∧
  (∀ (s : State) (w : Saw) (tag : Option Nat) (position : Nat) (cause : SawCause), s.linked w →
    let i := Instr.fault w tag position cause
    let u := s.acked w Kind.fault .ok
    (s.activePass? w = none → (s.saw w).state = .idle ∨ (s.saw w).state = .loading ∨ (s.saw w).state = .primed →
      exec i s = .next ((u.updateSaw w fun r =>
        { r with state := .faulted, context := some ⟨.fault, some (causeOf cause), none, r.passTime, 1⟩ }).raise
          .sawFault)) ∧
    ((s.saw w).state = .waiting →
      let out := u.removeFromLine w
      exec i s = .next ((out.updateSaw w fun r =>
        { r with state := .faulted, context := some ⟨.fault, some (causeOf cause), out.passPart? w, r.passTime, 1⟩ }).raise
          .sawFault)) ∧
    (∀ c, (s.saw w).state = .held → (s.saw w).context = some c →
      exec i s = .next (((u.removeFromLine w).updateSaw w fun r =>
        { r with state := .faulted
                 context := some { c with kind := .fault, cause := some (causeOf cause), faults := 1 } }).raise
          .sawFault)) ∧
    (∀ c, (s.saw w).state = .faulted → (s.saw w).context = some c →
      exec i s = .next ((u.updateSaw w fun r =>
        { r with context := some { c with kind := .fault, cause := some (causeOf cause),
                                          faults := min 255 (c.faults + 1) } }).raise .sawFault)))

/-- The interlock input: outside a cut only the field follows it (R101); a drop in a cut is a SAFETY fault at the pass's
reached, its segment closed and charged there (R121). -/
def Obligations.InterlockInput : Prop :=
  ∀ (s : State) (w : Saw), s.running = true →
    exec (.interlockReturn w) s = .next (s.updateSaw w fun r => { r with interlock := true }) ∧
    ((s.saw w).state ≠ .cutting → (s.saw w).state ≠ .holding →
      exec (.interlockDrop w) s = .next (s.updateSaw w fun r => { r with interlock := false })) ∧
    ∀ p q, (s.saw w).interlock = true → QueueLaw s → WaterLaw s → s.activePass? w = some (p, q) →
      (s.saw w).state = .cutting ∨ (s.saw w).state = .holding →
      let closed := ((s.updateSaw w fun x => { x with interlock := false, holdTimer := none }).updatePass p.number q.index
        fun x => { x with reached := max x.reached (min q.reached x.length) }).closeSegment w q.reached
      ∃ t, exec (.interlockDrop w) s = .next t ∧ (t.saw w).interlock = false ∧ (t.saw w).state = .faulted ∧
        t.jcu = (closed.waterGivenUp w).jcu ∧ t.bld = (closed.waterGivenUp w).bld ∧
        (t.saw w).context = some ⟨.fault, some .safety,
          some ⟨p.number, q.index, s.activeTag? w, q.reached, q.length - q.reached⟩,
          min 65535 ((s.saw w).passTime + (s.saw w).meters.time), 1⟩ ∧
        t.wau.allotment.get w = none ∧ t.wau.permit.get w = false ∧ t.stk = s.stk ∧ t.pmn = s.pmn ∧ t.rsv = s.rsv

/-- RESUME SAW, with its checks in order, and the saw without a pass part put back on the normal path (R127); with one, admitted
or placed at the tail of the line (R128). -/
def Obligations.ResumeSaw : Prop :=
  ∀ (s : State) (saw : Nat), s.ready →
    let i := Instr.resumeSaw saw
    (saw = 0 ∨ 4 < saw → s.refuses i Kind.resumeSaw .form) ∧
    ∀ w, Saw.toNat w = saw →
      let r := s.saw w
      ((r.state ≠ .faulted ∨ r.link = .down) → s.refuses i Kind.resumeSaw .state) ∧
      ∀ c, r.state = .faulted → r.link = .up → r.context = some c →
        let u := s.updateSaw w fun r => { r with context := none }
        (r.interlock = false → s.refuses i Kind.resumeSaw .notReady) ∧
        (r.interlock = true → c.part ≠ none → s.wau.settings.rating < r.demand → s.refuses i Kind.resumeSaw .demand) ∧
        (∀ p, r.interlock = true → c.part = none → s.headPlan? w = some p → p.state = .cutting → r.outstanding ≠ [] →
          exec i s = .next ((u.updateSaw w fun r => { r with state := .primed }).answered Kind.resumeSaw .ok [.u8 3])) ∧
        (r.interlock = true → c.part = none →
          ((s.headPlan? w).elim True fun p => p.state ≠ .cutting) ∨ r.outstanding = [] →
          let t := (u.updateSaw w fun r => { r with state := .idle }).loadHead w
          exec i s = .next (t.answered Kind.resumeSaw .ok [.u8 (t.saw w).state.code])) ∧
        (r.interlock = true → c.part ≠ none → r.demand ≤ s.wau.settings.rating →
          ¬ (s.wau.line = [] ∧ r.demand + s.wau.granted ≤ s.wau.capacity) →
          exec i s = .next (((u.withWau fun a => { a with line := a.line ++ [⟨w, .started⟩] }).updateSaw w fun r =>
            { r with state := .waiting }).answered Kind.resumeSaw .ok [.u8 4])) ∧
        (r.interlock = true → c.part ≠ none → r.demand ≤ s.wau.settings.rating → s.wau.line = [] →
          r.demand + s.wau.granted ≤ s.wau.capacity →
          exec i s = .next (((u.withWau fun a =>
              { a with allotment := a.allotment.set w (some r.demand), order := (a.order.filter fun v => v != w) ++ [w],
                       permit := a.permit.set w true }).resumeCut w).answered Kind.resumeSaw .ok [.u8 5]))

/-- A saw admitted with an ACTIVE pass resumes it (R129): the tag kept or given afresh by R99 and put first, RESUME, the segment
opened at reached, the window refilled, the context discarded, CUTTING. -/
def Obligations.ResumingACut : Prop :=
  ∀ (s : State) (w : Saw) (p : Plan) (q : Pass), s.activePass? w = some (p, q) → (s.saw w).nextTag ≤ 7 →
    (s.saw w).outstanding.length ≤ 1 ∨ s.activeTag? w ≠ none →
    let feed := min ((s.slab? p.slab).elim 0 fun r => s.feed r.material) (s.saw w).maxFeed
    let resume (tag : Nat) : Frame := ⟨Kind.resume, none, [.u8 tag, .u16 p.number, .u8 q.index, .u8 q.kind.code,
      .u16 q.coordinate, .u16 q.length, .u16 feed, .u16 q.reached, .u16 (q.length - q.reached)]⟩
    let going (t : State) : State :=
      let t := t.updateSaw w fun r => { r with meters := ⟨true, q.reached, 0, 0, r.meters.remainder⟩ }
      let t := if (t.saw w).outstanding.length < 2 then t.stagePass w else t
      t.updateSaw w fun r => { r with context := none, state := .cutting }
    (∀ tag, s.activeTag? w = some tag → s.resumeCut w = going (s.send w (resume tag))) ∧
    (s.activeTag? w = none → ∃ (k tag : Nat), k ≤ 1 ∧ tag = ((s.saw w).nextTag + k) % 8 ∧
      (∀ o ∈ (s.saw w).outstanding, o.tag ≠ tag) ∧
      (k = 1 → ∃ o ∈ (s.saw w).outstanding, o.tag = (s.saw w).nextTag) ∧
      s.resumeCut w = going ((s.updateSaw w fun r =>
        { r with outstanding := ⟨tag, q.index⟩ :: r.outstanding, nextTag := (tag + 1) % 8 }).send w (resume tag)))

/-! ## BLD: the blades (07_blades.md) -/

/-- ADD BLADE (R134) and AMEND BLADE (R135), each with its checks in order, the health test after an amendment; RETIRE BLADE
(R138); READ BLADE with the health derived at that moment (R139). -/
def Obligations.BladeRecords : Prop :=
  (∀ (s : State) (number kerf price life : Nat), s.ready →
    let add := Instr.addBlade number kerf price life
    let amend := Instr.amendBlade number price life
    let form := number ≠ 0 ∧ (2 ≤ kerf ∧ kerf ≤ 6) ∧ price ≤ 5000000 ∧ (500 ≤ life ∧ life ≤ 20000)
    let amendForm := price ≤ 5000000 ∧ (500 ≤ life ∧ life ≤ 20000)
    (¬ form → s.refuses add Kind.addBlade .form) ∧
    (form → s.blade? number ≠ none → s.refuses add Kind.addBlade .exists) ∧
    (form → s.blade? number = none → 32 ≤ s.bld.blades.length → s.refuses add Kind.addBlade .full) ∧
    (form → s.blade? number = none → s.bld.blades.length < 32 →
      ∃ t, exec add s = .next t ∧
        t.blade? number = some
          { number := number, kerf := kerf, price := price, life := life, wear := 0, wearRemainder := 0,
            costRemainder := 0, overloads := 0, state := .spare, saw := none, advisoryNoticed := false,
            exhaustedNoticed := false } ∧
        (∀ n, n ≠ number → t.blade? n = s.blade? n) ∧ t = { s.answered Kind.addBlade .ok [] with bld := t.bld }) ∧
    (s.blade? number = none → s.refuses amend Kind.amendBlade .none) ∧
    ∀ b, s.blade? number = some b →
      (b.state ≠ .spare → s.refuses amend Kind.amendBlade .state) ∧
      (b.state = .spare → ¬ amendForm → s.refuses amend Kind.amendBlade .form) ∧
      (b.state = .spare → amendForm →
        ∃ v : State, v.blade? number = some { b with price := price, life := life, costRemainder := 0 } ∧
          (∀ n, n ≠ number → v.blade? n = s.blade? n) ∧ v = { s with bld := v.bld } ∧
          exec amend s = .next ((v.testHealth number).answered Kind.amendBlade .ok []))) ∧
  (∀ (s : State) (number : Nat), s.ready →
    (s.blade? number = none → s.refuses (.retireBlade number) Kind.retireBlade .none ∧
      s.refuses (.readBlade number) Kind.readBlade .none) ∧
    ∀ b, s.blade? number = some b →
      (b.state = .fitted → s.refuses (.retireBlade number) Kind.retireBlade .state) ∧
      (b.state = .spare →
        ∃ t, exec (.retireBlade number) s = .next t ∧ t.blade? number = some { b with state := .retired } ∧
          (∀ n, n ≠ number → t.blade? n = s.blade? n) ∧ t = { s.answered Kind.retireBlade .ok [] with bld := t.bld }) ∧
      (b.state = .retired →
        ∃ t, exec (.retireBlade number) s = .next t ∧ t.blade? number = none ∧
          (∀ n, n ≠ number → t.blade? n = s.blade? n) ∧ t = { s.answered Kind.retireBlade .ok [] with bld := t.bld }) ∧
      s.reports (.readBlade number) Kind.readBlade
        [.u16 b.number, .u8 b.kerf, .u32 b.price, .u16 b.life, .u32 b.wear, .u8 b.wearRemainder, .u32 b.costRemainder,
          .u8 b.overloads, .u8 b.state.code, .u8 (b.saw.elim 0 Saw.toNat), .u8 (boolCode b.advisoryNoticed),
          .u8 (boolCode b.exhaustedNoticed), .u8 b.health.code])

/-- The health of a blade and the test of it: each notice once in the life of a record (R133). -/
def Obligations.HealthIsTested : Prop :=
  (∀ b : Blade,
    (b.health = .exhausted ↔ b.life * 1000 ≤ b.wear ∨ 8 ≤ b.overloads) ∧
    (b.health = .advisory ↔ ¬ (b.life * 1000 ≤ b.wear ∨ 8 ≤ b.overloads) ∧ b.life * 900 ≤ b.wear)) ∧
  ∀ (s : State) (n : Nat) (b : Blade), s.blade? n = some b →
    let advisory := b.life * 900 ≤ b.wear ∧ b.advisoryNoticed = false
    let exhausted := b.health = .exhausted ∧ b.exhaustedNoticed = false
    ∃ (v : State) (a x : Bool), (a = true ↔ advisory) ∧ (x = true ↔ exhausted) ∧
      v.blade? n = some { b with advisoryNoticed := b.advisoryNoticed || a, exhaustedNoticed := b.exhaustedNoticed || x } ∧
      (∀ k, k ≠ n → v.blade? k = s.blade? k) ∧ v = { s with bld := v.bld } ∧
      s.testHealth n =
        (let v := if a then v.raise .bladeAdvisory else v; if x then v.raise .bladeExhausted else v)

/-- FIT BLADE (R136) and REMOVE BLADE (R137), each with its checks in order: the blade records and the saw record change within
the one request. -/
def Obligations.FitAndRemoveBlade : Prop :=
  ∀ (s : State) (number saw : Nat), s.ready →
    let fit := Instr.fitBlade number saw
    let remove := Instr.removeBlade saw
    (saw = 0 ∨ 4 < saw → s.refuses fit Kind.fitBlade .form ∧ s.refuses remove Kind.removeBlade .form) ∧
    ∀ w, Saw.toNat w = saw →
      let stopped := (s.saw w).state = .offline ∨ (s.saw w).state = .idle ∨ (s.saw w).state = .faulted
      (number = 0 → s.refuses fit Kind.fitBlade .form) ∧
      (number ≠ 0 → s.blade? number = none → s.refuses fit Kind.fitBlade .none) ∧
      (∀ b, number ≠ 0 → s.blade? number = some b →
        (¬ stopped → s.refuses fit Kind.fitBlade .state) ∧
        (b.state ≠ .spare → s.refuses fit Kind.fitBlade .state) ∧
        (stopped → b.state = .spare → (∃ n ∈ (s.saw w).queue, ∃ p, s.plan? n = some p ∧ p.kerf < b.kerf) →
          s.refuses fit Kind.fitBlade .kerf) ∧
        (stopped → b.state = .spare → (∀ n ∈ (s.saw w).queue, ∀ p, s.plan? n = some p → b.kerf ≤ p.kerf) →
          (s.saw w).blade ≠ some number →
          ∃ t, exec fit s = .next t ∧ t.blade? number = some { b with state := .fitted, saw := some w } ∧
            (∀ n, (s.saw w).blade = some n → t.blade? n = (s.blade? n).map fun x => { x with state := .spare, saw := none }) ∧
            (∀ n, n ≠ number → (s.saw w).blade ≠ some n → t.blade? n = s.blade? n) ∧
            t = { (s.updateSaw w fun r => { r with blade := some number }).answered Kind.fitBlade .ok [] with
                  bld := t.bld })) ∧
      (¬ stopped → s.refuses remove Kind.removeBlade .state) ∧
      (stopped → (s.saw w).blade = none → s.refuses remove Kind.removeBlade .none) ∧
      ∀ n, stopped → (s.saw w).blade = some n →
        ∃ t, exec remove s = .next t ∧ t.blade? n = (s.blade? n).map (fun x => { x with state := .spare, saw := none }) ∧
          (∀ k, k ≠ n → t.blade? k = s.blade? k) ∧
          t = { (s.updateSaw w fun r => { r with blade := none }).answered Kind.removeBlade .ok [.u16 n] with bld := t.bld }

/-- No blade cost is lost: over any run of accruals, the charges times rated life × 1,000, with the cost remainder, equal the
price times the wear increases (R141), and both remainders stay in their ranges (R132, R140). -/
def Obligations.BladeCostIsConserved : Prop :=
  ∀ (b : Blade) (runs : List (Nat × Nat)),
    b.charges runs * (b.life * 1000) + (b.accrued runs).costRemainder
      = b.price * b.increases runs + b.costRemainder ∧
    (b.accrued runs).wear ≤ max b.wear 4000000000 ∧
    (b.wearRemainder < 100 → (b.accrued runs).wearRemainder < 100) ∧
    (0 < b.life → b.costRemainder < b.life * 1000 → (b.accrued runs).costRemainder < b.life * 1000)

/-! ## PMN: the channels (08_plant_sensing.md) -/

/-- SET CHANNEL with its checks in order and the new condition it takes at once (R149), the window of each range code (R148);
READ CHANNEL field by field (R157), and the form of the reading a channel offers (R154). -/
def Obligations.SetAndReadChannel : Prop :=
  (window 1 = (-400, 10400) ∧ window 2 = (0, 10400) ∧ window 3 = (0, 10200) ∧ window 4 = (-200, 10200)) ∧
  (∀ (s : State) (channel range filter : Nat) (low high raw : Int), s.ready →
    let i := Instr.setChannel channel range filter low high raw
    (6 < channel → s.refuses i Kind.setChannel .form) ∧
    ∀ c, Chan.toNat c = channel →
      let form := range ≤ 4 ∧ (-9999 ≤ low ∧ low ≤ 9999) ∧ (-9999 ≤ high ∧ high ≤ 9999) ∧ low < high
      (¬ form → s.refuses i Kind.setChannel .form) ∧
      (form → (s.channel c).state = .calibrating → s.refuses i Kind.setChannel .state) ∧
      (form → (s.channel c).state ≠ .calibrating →
        let bare : Channel :=
          { s.channel c with range := range, filter := min 2 filter, low := low, high := high, history := [], value := none,
                             lastGood := none, raw := none, lowPoint := none, highPoint := none, grace := .stopped,
                             state := .off }
        let taken := if range = 0 then bare else if s.pmn.fieldSupply then bare.sampled raw else { bare with state := .fieldOff }
        let placed := taken.graced (s.wau.settings.grace * 10)
        exec i s = .next ({ s with
          pmn := { s.pmn with channels := s.pmn.channels.set c placed }
          olc := s.faultedChannels (taken.grace != placed.grace) }.answered Kind.setChannel .ok
            [.u8 range, .u8 (min 2 filter), .s16 low, .s16 high]))) ∧
  (∀ (s : State) (channel : Nat), s.ready →
    (6 < channel → s.refuses (.readChannel channel) Kind.readChannel .form) ∧
    ∀ c, Chan.toNat c = channel →
      let r := s.channel c
      let opt (x : Option Int) : List Field := [.u8 (boolCode x.isSome), .s16 (x.getD 0)]
      let bad := r.state ≠ .good ∧ r.state ≠ .off
      s.reports (.readChannel channel) Kind.readChannel
        ([.u8 r.range, .u8 r.filter, .s16 r.low, .s16 r.high, .s16 r.offset, .u16 r.gain.toNat, .u8 r.result.code]
          ++ opt r.lowPoint ++ opt r.highPoint ++ opt r.raw ++ (.u8 r.history.length :: r.history.map fun v => .s16 v)
          ++ opt r.value ++ opt r.lastGood ++ [.u8 r.state.code, .u8 r.grace.code, .u16 r.grace.remaining,
            .u8 r.offers.form.code, .s16 (r.offers.value.getD 0), .u8 (boolCode s.pmn.fieldSupply)]) ∧
      (r.state = .good → r.offers = ⟨.live, r.value⟩) ∧ (r.state = .off → r.offers = ⟨.lost, none⟩) ∧
      (bad → r.grace = .expired → r.offers = ⟨.lost, none⟩) ∧
      (∀ n v, bad → r.grace = .running n → r.lastGood = some v → r.offers = ⟨.held, some v⟩) ∧
      (bad → r.grace ≠ .expired → r.lastGood = none → r.offers = ⟨.absent, none⟩))

/-- The 100 ms sample (R150 to R152), judged against the window of the range code (R148), with the grace timer that follows it,
and the end of grace (R153); a channel of code 0 or without field supply takes none (R155), a CALIBRATING channel takes the raw
reading only (R158). That the expiry of a timer that does not run changes nothing is the model's choice (log 9). -/
def Obligations.SampleAndGrace : Prop :=
  (window 1 = (-400, 10400) ∧ window 2 = (0, 10400) ∧ window 3 = (0, 10200) ∧ window 4 = (-200, 10200)) ∧
  ∀ (s : State) (c : Chan) (raw : Int), s.running = true →
    let r := s.channel c
    let put (x : Channel) : State := { s with pmn := { s.pmn with channels := s.pmn.channels.set c x } }
    (r.range = 0 ∨ s.pmn.fieldSupply = false → exec (.channelSample c raw) s = .next s) ∧
    (r.range ≠ 0 → s.pmn.fieldSupply = true → r.state = .calibrating →
      exec (.channelSample c raw) s = .next (put { r with raw := some raw })) ∧
    (r.range ≠ 0 → s.pmn.fieldSupply = true → r.state ≠ .calibrating →
      let placed := (r.sampled raw).graced (s.wau.settings.grace * 10)
      exec (.channelSample c raw) s =
        .next { put placed with olc := s.faultedChannels ((r.sampled raw).grace != placed.grace) }) ∧
    (∀ n, r.grace = .running n →
      exec (.graceExpiry c) s = .next ((put { r with grace := .expired }).raise .channelFault)) ∧
    ((∀ n, r.grace ≠ .running n) → exec (.graceExpiry c) s = .next s)

/-- The loss of the field supply (R155) and its return (R156), channel by channel. That a loss while it is absent and a return
while it is present change nothing is the model's choice (log 9). -/
def Obligations.FieldSupply : Prop :=
  ∀ (s : State) (raw : Seven Int), s.running = true →
    let ds := s.wau.settings.grace * 10
    let off (c : Channel) : Channel :=
      if c.range = 0 then c
      else
        let ended : Channel :=
          if c.state = .calibrating then { c with result := .none, lowPoint := none, highPoint := none } else c
        { ended with history := [], value := none, raw := none, state := .fieldOff }
    let back (n : Chan) (c : Channel) : Channel := if c.range = 0 then c else c.sampled (raw.get n)
    (s.pmn.fieldSupply = false → exec .fieldSupplyLoss s = .next s) ∧
    (s.pmn.fieldSupply = true → exec (.fieldSupplyReturn raw) s = .next s) ∧
    (s.pmn.fieldSupply = true →
      ∃ t, exec .fieldSupplyLoss s = .next t ∧ t.pmn.fieldSupply = false ∧
        (∀ c, t.channel c = (off (s.channel c)).graced ds) ∧
        ((∃ c, (off (s.channel c)).grace ≠ ((off (s.channel c)).graced ds).grace) → t.olc = (s.raise .channelFault).olc) ∧
        ((∀ c, (off (s.channel c)).grace = ((off (s.channel c)).graced ds).grace) → t.olc = s.olc) ∧
        t = { s with pmn := t.pmn, olc := t.olc }) ∧
    (s.pmn.fieldSupply = false →
      ∃ t, exec (.fieldSupplyReturn raw) s = .next t ∧ t.pmn.fieldSupply = true ∧
        (∀ c, t.channel c = (back c (s.channel c)).graced ds) ∧
        ((∃ c, (back c (s.channel c)).grace ≠ ((back c (s.channel c)).graced ds).grace) →
          t.olc = (s.raise .channelFault).olc) ∧
        ((∀ c, (back c (s.channel c)).grace = ((back c (s.channel c)).graced ds).grace) → t.olc = s.olc) ∧
        t = { s with pmn := t.pmn, olc := t.olc })

/-- CAL BEGIN (R158) and CAL POINT (R159) over a set of channels: at least one, none above 6, as many as a list carries (R211).
CAL END gives each channel its coefficients and result (R160) and CAL ABORT keeps the coefficients (R162); both return the
channels to normal sampling from the raw reading as it stands (R161). A channel set as a counted list and the count byte of the
replies are the model's choice and reading (logs 14, 15). -/
def Obligations.Calibration : Prop :=
  (∀ (s : State) (set : List Nat) (point : Nat), s.ready →
    let form := set ≠ [] ∧ set.length ≤ 7 ∧ ∀ n ∈ set, n ≤ 6
    let named (c : Chan) : Prop := c.toNat ∈ set
    let open' (c : Chan) : Prop :=
      (s.channel c).state = .good ∨ (s.channel c).state = .rangeLow ∨ (s.channel c).state = .rangeHigh
    let begun (c : Channel) : Channel := { c with state := .calibrating, lowPoint := none, highPoint := none }
    let ds := s.wau.settings.grace * 10
    (¬ form → s.refuses (.calBegin set) Kind.calBegin .form) ∧
    (form → (∃ c, named c ∧ ¬ open' c) → s.refuses (.calBegin set) Kind.calBegin .state) ∧
    (form → (∀ c, named c → open' c) →
      ∃ t, exec (.calBegin set) s = .next t ∧
        (∀ c, (named c → t.channel c = (begun (s.channel c)).graced ds) ∧ (¬ named c → t.channel c = s.channel c)) ∧
        t.pmn.fieldSupply = s.pmn.fieldSupply ∧
        t = { s.answered Kind.calBegin .ok [] with
              pmn := t.pmn
              olc := { s.faultedChannels (decide (∃ c ∈ Chan.all, c.toNat ∈ set ∧ (s.channel c).grace = .stopped)) with
                slot := .serving, reply := t.olc.reply } } ∧
        t.olc.reply = some ⟨Kind.answer Kind.calBegin, some .ok, []⟩) ∧
    (¬ form ∨ 1 < point → s.refuses (.calPoint set point) Kind.calPoint .form) ∧
    (form → point ≤ 1 → (∃ c, named c ∧ (s.channel c).state ≠ .calibrating) →
      s.refuses (.calPoint set point) Kind.calPoint .state) ∧
    (form → point ≤ 1 → (∀ c, named c → (s.channel c).state = .calibrating ∧ (s.channel c).grace ≠ .stopped) →
      let chosen := Chan.all.filter fun c => set.contains c.toNat
      ∃ t, exec (.calPoint set point) s = .next t ∧
        (∀ c, (named c → t.channel c = if point = 0 then { s.channel c with lowPoint := (s.channel c).raw }
            else { s.channel c with highPoint := (s.channel c).raw }) ∧ (¬ named c → t.channel c = s.channel c)) ∧
        t.pmn.fieldSupply = s.pmn.fieldSupply ∧
        t = { s.answered Kind.calPoint .ok
          (.u8 chosen.length :: chosen.map fun c => .s16 ((s.channel c).raw.getD 0)) with pmn := t.pmn })) ∧
  (∀ (s : State) (set : List Nat) (mode : Nat), s.ready →
    let form := set ≠ [] ∧ set.length ≤ 7 ∧ ∀ n ∈ set, n ≤ 6
    let named (c : Chan) : Prop := c.toNat ∈ set
    let chosen := Chan.all.filter fun c => set.contains c.toNat
    let gain (lo hi : Int) : Int := (2 * 100000000 + (hi - lo)) / (2 * (hi - lo))
    let concluded (c : Channel) : Channel :=
      if mode = 1 then { c with offset := 0, gain := 10000, result := .done }
      else match c.lowPoint, c.highPoint with
      | some lo, some hi =>
        if lo < hi ∧ 9000 ≤ gain lo hi ∧ gain lo hi ≤ 11000 ∧ -500 ≤ lo ∧ lo ≤ 500 then
          { c with offset := lo, gain := gain lo hi, result := .done }
        else { c with result := .bad }
      | some lo, none => if -500 ≤ lo ∧ lo ≤ 500 then { c with offset := lo, result := .done } else { c with result := .bad }
      | none, _ => { c with result := .bad }
    let fresh (c : Channel) : Channel := { c with lowPoint := none, highPoint := none, history := [] }
    (¬ form → s.refuses (.calEnd set mode) Kind.calEnd .form ∧ s.refuses (.calAbort set) Kind.calAbort .form) ∧
    (form → 1 < mode → s.refuses (.calEnd set mode) Kind.calEnd .form) ∧
    (form → mode ≤ 1 → (∃ c, named c ∧ (s.channel c).state ≠ .calibrating) →
      s.refuses (.calEnd set mode) Kind.calEnd .state ∧ s.refuses (.calAbort set) Kind.calAbort .state) ∧
    (form → mode ≤ 1 → (∀ c, named c → (s.channel c).state = .calibrating ∧ (s.channel c).grace ≠ .stopped ∧
        (s.channel c).raw.isSome = true) →
      (∃ t, exec (.calEnd set mode) s = .next t ∧
        (∀ c x, (named c → (s.channel c).raw = some x → t.channel c = (fresh (concluded (s.channel c))).sampled x) ∧
          (¬ named c → t.channel c = s.channel c)) ∧ t.pmn.fieldSupply = s.pmn.fieldSupply ∧
        t = { s.answered Kind.calEnd .ok (.u8 chosen.length :: chosen.flatMap fun c =>
          [.u8 (t.channel c).result.code, .s16 (t.channel c).offset, .u16 (t.channel c).gain.toNat]) with pmn := t.pmn }) ∧
      ∃ t, exec (.calAbort set) s = .next t ∧
        (∀ c x, (named c → (s.channel c).raw = some x →
          t.channel c = (fresh { s.channel c with result := .none }).sampled x) ∧
          (¬ named c → t.channel c = s.channel c)) ∧ t.pmn.fieldSupply = s.pmn.fieldSupply ∧
        t = { s.answered Kind.calAbort .ok [] with pmn := t.pmn }))

/-! ## WAU: the water (09_water_admission.md) -/

/-- The plant settings a SET PLANT writes (R168), and the capacity evaluation in the order of R173: the readings taken, the
level state (R169), the three factors (R170 to R172), the capacity, the revocations, the admission pass at a rise, WATER_STOP.
-/
def Obligations.CapacityEvaluation : Prop :=
  (∀ s : State, s.running = true → exec .capacityEvaluation s = .next s.evaluate) ∧
  (∀ (s : State) (rating hold restart reduce turbidity sump waterRate grace : Nat), s.ready →
    let h := min 900 hold
    let r := max (h + 50) (min 1000 restart)
    let p : Settings :=
      ⟨min 600 rating, h, r, max r (min 1000 reduce), max 10 (min 4000 turbidity), max 100 (min 1000 sump),
        min 100000 waterRate, max 5 (min 120 grace)⟩
    exec (.setPlant rating hold restart reduce turbidity sump waterRate grace) s =
      .next (((s.withWau fun a => { a with settings := p }).evaluate).answered Kind.setPlant .ok
        [.u16 p.rating, .u16 p.hold, .u16 p.restart, .u16 p.reduce, .u16 p.turbidity, .u16 p.sump, .u32 p.waterRate,
          .u16 p.grace])) ∧
  ∀ s : State,
    let p := s.wau.settings
    let r0 := (s.channel .c0).offers
    let r1 := (s.channel .c1).offers
    let r2 := (s.channel .c2).offers
    let value (r : Reading) : Option Int := if r.form = .live ∨ r.form = .held then r.value else none
    let level : LevelState := (value r0).elim s.wau.level fun v =>
      if (s.wau.level = .low ∧ (p.restart : Int) ≤ v) ∨ (s.wau.level ≠ .low ∧ (p.hold : Int) ≤ v) then .normal else .low
    let lf : Nat := (value r0).elim 0 fun v => if level = .normal then if (p.reduce : Int) ≤ v then 100 else 50 else 0
    let tf : Nat := (value r2).elim 0 fun v =>
      if v ≤ (p.turbidity : Int) then 100 else if v ≤ 2 * (p.turbidity : Int) then 50 else 0
    let sf : Nat := (value r1).elim 0 fun v => if v < (p.sump : Int) then 100 else 0
    let capacity := p.rating * lf * tf * sf / 1000000
    let seen : State := { s with wau := { s.wau with level := level, used0 := r0, used1 := r1, used2 := r2, lf := lf,
                                                     tf := tf, sf := sf } }
    let cut := revokeDown capacity s.wau.order.reverse seen
    let filled : State := { cut with wau := { cut.wau with capacity := capacity } }
    let served := if s.wau.capacity < capacity then filled.runPass else filled
    (s.wau.granted ≤ capacity → cut = seen) ∧
    s.evaluate = if capacity = 0 ∧ s.wau.capacity ≠ 0 then served.raise .waterStop else served

/-- Revocation (R181): the latest admitted allotments are removed one at a time until A is no longer above the capacity; each
saw revoked is sent HOLD and goes to HOLDING with its hold timer at 5 s (R116), its place in the order and its permit kept. -/
def Obligations.Revocation : Prop :=
  ∀ (s : State) (capacity : Nat), WaterLaw s →
    let amount (w : Saw) : Nat := (s.wau.allotment.get w).getD 0
    let t := revokeDown capacity s.wau.order.reverse s
    ∃ taken rest : List Saw,
      s.wau.order.reverse.filter (fun w => (s.wau.allotment.get w).isSome) = taken ++ rest ∧
      t.wau.granted ≤ capacity ∧ t.wau.granted + (taken.map amount).sum = s.wau.granted ∧
      (∀ init w, taken = init ++ [w] → capacity + (init.map amount).sum < s.wau.granted) ∧
      (∀ w, t.wau.allotment.get w = if w ∈ taken then none else s.wau.allotment.get w) ∧
      (∀ w, t.saw w = if w ∈ taken then { s.saw w with state := .holding, holdTimer := some 50 } else s.saw w) ∧
      (∀ w, t.sdp.queued.get w =
        if w ∈ taken then s.sdp.queued.get w ++ [⟨Kind.hold, none, [.u8 ((s.activeTag? w).getD 0)]⟩]
        else s.sdp.queued.get w) ∧
      t = { s with wau := { s.wau with allotment := t.wau.allotment }
                   sdp := { s.sdp with saws := t.sdp.saws, queued := t.sdp.queued } }

/-- The admission pass (R178): the head of the line is admitted while it fits (R177) and goes on with GO (R104) or RESUME
(R129), nobody overtakes it; a saw that enters CUTTING with its interlock not asserted faults at once (R121), once its admission
has been handled whole, refill included, as the model deduces (log 31). A removal takes the entry out of the line, and a HELD
one out of the order, and a pass follows (R183). -/
def Obligations.AdmissionPass : Prop :=
  ∀ s : State,
    (s.wau.line = [] → s.runPass = s) ∧
    (∀ e es, s.wau.line = e :: es →
      let r := s.saw e.saw
      let u := s.withWau fun a =>
        { a with line := es, allotment := a.allotment.set e.saw (some r.demand),
                 order := (a.order.filter fun v => v != e.saw) ++ [e.saw], permit := a.permit.set e.saw true }
      let v := u.enterCut e.saw
      (¬ r.demand + s.wau.granted ≤ s.wau.capacity → s.runPass = s) ∧
      (r.demand + s.wau.granted ≤ s.wau.capacity → r.interlock = true → s.runPass = v.runPass) ∧
      (r.demand + s.wau.granted ≤ s.wau.capacity → r.interlock = false →
        s.runPass = (v.faultInCut State.runPass e.saw (v.reached e.saw) .safety).runPass) ∧
      (s.activePass? e.saw ≠ none → v = u.resumeCut e.saw) ∧
      (∀ o os p q, s.activePass? e.saw = none → r.outstanding = o :: os → s.headPlan? e.saw = some p →
        p.passes.find? (fun x => x.index == o.index) = some q →
        v = ((u.send e.saw ⟨Kind.go, none, [.u8 o.tag]⟩).updatePass p.number o.index
          fun x => { x with state := .active }).updateSaw e.saw fun r =>
            { r with passTime := 0, meters := ⟨true, q.reached, 0, 0, r.meters.remainder⟩, state := .cutting })) ∧
    ∀ w, ((∀ e ∈ s.wau.line, e.saw ≠ w) → s.removeFromLine w = s) ∧
      ((∃ e ∈ s.wau.line, e.saw = w) →
        s.removeFromLine w = State.runPass (s.withWau fun a =>
          { a with line := a.line.filter fun e => e.saw != w,
                   order := if ⟨w, .held⟩ ∈ a.line then a.order.filter fun v => v != w else a.order }))

/-- READ PLANT field by field (R185); the factors go out in 2 bytes each, the model's choice (log 26), and the four allotment
amounts without a count byte, its deduction (log 15). -/
def Obligations.ReadPlant : Prop :=
  ∀ s : State, s.ready →
    let a := s.wau
    let p := a.settings
    let amount (w : Saw) : Nat := (a.allotment.get w).getD 0
    let reading (r : Reading) : List Field := [.u8 r.form.code, .s16 (r.value.getD 0)]
    s.reports .readPlant Kind.readPlant
      ([.u16 p.rating, .u16 p.hold, .u16 p.restart, .u16 p.reduce, .u16 p.turbidity, .u16 p.sump, .u32 p.waterRate,
          .u16 p.grace, .u8 a.level.code] ++ reading a.used0 ++ reading a.used1 ++ reading a.used2
        ++ [.u16 a.lf, .u16 a.tf, .u16 a.sf, .u16 a.capacity, .u16 (amount .saw1 + amount .saw2 + amount .saw3 + amount .saw4),
          .u16 (amount .saw1), .u16 (amount .saw2), .u16 (amount .saw3), .u16 (amount .saw4), .u8 a.order.length]
        ++ (a.order.map fun w => .u8 w.toNat)
        ++ (.u8 a.line.length :: a.line.flatMap fun e => [.u8 e.saw.toNat, .u8 e.kind.code]))

/-! ## JCU: the jobs (10_jobs_and_cost_accrual.md) -/

/-- OPEN JOB (R191), AMEND JOB (R192), READ JOB (R193), CLOSE JOB (R194) with the DRAFT plans it cancels (R58), and RETIRE JOB
(R197), each with its checks in order. -/
def Obligations.JobRequests : Prop :=
  ∀ (s : State) (number lot quote : Nat), s.ready →
    let opening := Instr.openJob number lot quote
    let amend := Instr.amendJob number quote lot
    let binding : Option Nat := if lot = 0 then none else some lot
    (number = 0 ∨ 999999999 < quote → s.refuses opening Kind.openJob .form) ∧
    (number ≠ 0 → quote ≤ 999999999 → s.job? number ≠ none → s.refuses opening Kind.openJob .exists) ∧
    (number ≠ 0 → quote ≤ 999999999 → s.job? number = none → 128 ≤ s.jcu.jobs.length →
      s.refuses opening Kind.openJob .full) ∧
    (number ≠ 0 → quote ≤ 999999999 → s.job? number = none → s.jcu.jobs.length < 128 →
      ∃ t, exec opening s = .next t ∧
        t.job? number = some
          { number := number, state := .opened, lot := binding, quote := quote, stone := 0, sawTime := 0, water := 0,
            blade := 0, sawRemainder := 0, waterRemainder := 0, planned := 0, cut := 0, plans := [],
            waterEstimated := false, overQuote := false } ∧
        (∀ n, n ≠ number → t.job? n = s.job? n) ∧ t = { s.answered Kind.openJob .ok [] with jcu := t.jcu }) ∧
    (s.job? number = none → s.refuses amend Kind.amendJob .none ∧ s.refuses (.readJob number) Kind.readJob .none ∧
      s.refuses (.closeJob number) Kind.closeJob .none ∧ s.refuses (.retireJob number) Kind.retireJob .none) ∧
    ∀ j, s.job? number = some j →
      let total := j.stone + j.sawTime + j.water + j.blade
      let exceeds := decide (0 < quote ∧ quote < total)
      let live := ∃ p ∈ s.pln.plans, p.number ∈ j.plans ∧ (p.state = .checked ∨ p.state = .released ∨ p.state = .cutting)
      (999999999 < quote → s.refuses amend Kind.amendJob .form) ∧
      (quote ≤ 999999999 → j.state = .closed → s.refuses amend Kind.amendJob .frozen) ∧
      (quote ≤ 999999999 → j.state ≠ .closed → lot ≠ j.lot.getD 0 → j.plans ≠ [] → s.refuses amend Kind.amendJob .inUse) ∧
      (quote ≤ 999999999 → j.state ≠ .closed → lot = j.lot.getD 0 ∨ j.plans = [] →
        ∃ t, exec amend s = .next t ∧ t.job? number = some { j with quote := quote, lot := binding, overQuote := exceeds } ∧
          (∀ n, n ≠ number → t.job? n = s.job? n) ∧
          t = { (if exceeds = true ∧ j.overQuote = false then s.raise .overQuote else s).answered Kind.amendJob .ok
                  [.u32 total, .u8 (boolCode exceeds)] with jcu := t.jcu }) ∧
      s.reports (.readJob number) Kind.readJob
        ([.u16 j.number, .u8 j.state.code, .u16 (j.lot.getD 0), .u32 j.quote, .u32 j.stone, .u32 j.sawTime, .u32 j.water,
            .u32 j.blade, .u16 j.sawRemainder, .u16 j.waterRemainder, .u16 j.planned, .u16 j.cut, .u8 j.plans.length]
          ++ (j.plans.map fun n => .u16 n)
          ++ [.u8 (boolCode j.waterEstimated), .u8 (boolCode j.overQuote), .u32 total]) ∧
      (j.state = .closed → s.refuses (.closeJob number) Kind.closeJob .frozen) ∧
      (j.state ≠ .closed → live → s.refuses (.closeJob number) Kind.closeJob .state) ∧
      (j.state ≠ .closed → ¬ live →
        ∃ t, exec (.closeJob number) s = .next t ∧ t.job? number = some { j with state := .closed } ∧
          (∀ n, n ≠ number → t.job? n = s.job? n) ∧
          (∀ n, t.plan? n = (s.plan? n).map fun p =>
            if n ∈ j.plans ∧ p.state = .draft then { p with state := .cancelled } else p) ∧
          t = { s.answered Kind.closeJob .ok [.u32 j.stone, .u32 j.sawTime, .u32 j.water, .u32 j.blade, .u32 total] with
                jcu := t.jcu, pln := t.pln }) ∧
      (j.state ≠ .closed → s.refuses (.retireJob number) Kind.retireJob .state) ∧
      (j.state = .closed → j.plans ≠ [] → s.refuses (.retireJob number) Kind.retireJob .inUse) ∧
      (j.state = .closed → j.plans = [] →
        ∃ t, exec (.retireJob number) s = .next t ∧ t.job? number = none ∧ (∀ n, n ≠ number → t.job? n = s.job? n) ∧
          t = { s.answered Kind.retireJob .ok [] with jcu := t.jcu })

/-- A charge handled whole: the component, saturating (R199), with its remainder (R200 to R203), the state (R188) and the
over-quote flag with its notice (R205); charges of one kind give the same record in either order (R198). -/
def Obligations.Charges : Prop :=
  (∀ (s : State) (n : Nat) (j : Job) (amount rate measure : Nat), s.job? n = some j →
    let u := rate * measure + j.sawRemainder
    let v := rate * measure + j.waterRemainder
    let lands (charge : Job → Job) (x : Job) : Prop :=
      let exceeds := decide (0 < j.quote ∧ j.quote < x.stone + x.sawTime + x.water + x.blade)
      ∃ t, s.charge n charge = t ∧
        t.job? n = some { x with state := if j.state = .opened then .active else j.state, overQuote := j.overQuote || exceeds } ∧
        (∀ m, m ≠ n → t.job? m = s.job? m) ∧
        t = { (if exceeds = true ∧ j.overQuote = false then s.raise .overQuote else s) with jcu := t.jcu }
    lands (Job.chargeStone amount) { j with stone := min 999999999 (j.stone + amount) } ∧
    lands (Job.chargeBlade amount) { j with blade := min 999999999 (j.blade + amount) } ∧
    lands (Job.chargeSawTime rate measure)
      { j with sawTime := min 999999999 (j.sawTime + u / 36000), sawRemainder := u % 36000 } ∧
    lands (Job.chargeWater rate measure)
      { j with water := min 999999999 (j.water + v / 10000), waterRemainder := v % 10000 }) ∧
  ∀ (j : Job) (a b c d : Nat),
    (j.chargeStone a).chargeStone b = (j.chargeStone b).chargeStone a ∧
    (j.chargeBlade a).chargeBlade b = (j.chargeBlade b).chargeBlade a ∧
    (j.chargeSawTime a b).chargeSawTime c d = (j.chargeSawTime c d).chargeSawTime a b ∧
    (j.chargeWater a b).chargeWater c d = (j.chargeWater c d).chargeWater a b

/-- One metering interval of an open segment (R163): the flow offered, a negative one taken as 0, or the demand, with the
water-estimated flag (R204). That an interval falling while no segment is open, or while the saw is not CUTTING or HOLDING,
changes nothing is the model's choice (log 9). -/
def Obligations.Metering : Prop :=
  ∀ (s : State) (w : Saw), s.running = true →
    let r := s.saw w
    let metered := r.meters.isOpen = true ∧ (r.state = .cutting ∨ r.state = .holding)
    let after (f : Nat) : State := s.updateSaw w fun r =>
      { r with meters := { r.meters with flow := min 4294967295 (r.meters.flow + f), time := min 65535 (r.meters.time + 1) } }
    (¬ metered → exec (.meteringInterval w) s = .next s) ∧
    ∀ c, Chan.toNat c = w.toNat + 2 → metered →
      let x := (s.channel c).offers
      (∀ v, x.form = .live ∨ x.form = .held → x.value = some v → exec (.meteringInterval w) s = .next (after v.toNat)) ∧
      (x.form = .absent ∨ x.form = .lost →
        (s.headPlan? w = none → exec (.meteringInterval w) s = .next (after (r.demand * 10))) ∧
        ∀ p, s.headPlan? w = some p →
          ∃ t, exec (.meteringInterval w) s = .next t ∧
            t.job? p.job = (s.job? p.job).map (fun j => { j with waterEstimated := true }) ∧
            (∀ n, n ≠ p.job → t.job? n = s.job? n) ∧ t = { after (r.demand * 10) with jcu := t.jcu })

/-! ## OLC and RSV: the office link, the notices and the starts (11_office_link_notices_and_start_up.md) -/

/-- A notice raised is pending whatever the enables hold, under its number (R218), and ATTN follows the notice state at once
(R219); READ NOTICES empties the pending set and releases ATTN (R220); SET NOTICES, with its checks (R221). -/
def Obligations.Notices : Prop :=
  ([Notice.sawFault, .sawHeld, .sawLink, .planDone, .remnantMade, .stockFull, .auditEnded, .bladeAdvisory, .bladeExhausted,
      .channelFault, .waterStop, .overQuote].map fun n => n.bit.toNat) =
    [1, 2, 4, 8, 16, 32, 64, 128, 256, 512, 1024, 2048] ∧
  (∀ (s : State) (n : Notice),
    let pending := s.olc.pending ||| n.bit
    s.raise n = { s with olc := { s.olc with
      pending := pending, attn := s.running && s.olc.master && (pending &&& s.olc.enable != 0#16) } }) ∧
  ∀ (s : State) (enable : BitVec 16) (master : Nat), s.ready →
    exec .readNotices s = .next (({ s with olc := { s.olc with pending := 0#16, attn := false } } : State).answered
      Kind.readNotices .ok [.u16 s.olc.pending.toNat, .u16 s.olc.enable.toNat, .u8 (boolCode s.olc.master)]) ∧
    (enable &&& 0xF000#16 ≠ 0#16 ∨ 1 < master → s.refuses (.setNotices enable master) Kind.setNotices .form) ∧
    (enable &&& 0xF000#16 = 0#16 → master ≤ 1 →
      exec (.setNotices enable master) s = .next (({ s with olc := { s.olc with
        enable := enable, master := master == 1,
        attn := master == 1 && (s.olc.pending &&& enable != 0#16) } } : State).answered Kind.setNotices .ok []))

/-- READ STATE field by field (R222), the backup supply as it is at that moment (log 28), and WIPE STORE (R226): refused while a
saw is watered, else a cold start within the request, with the inputs as last seen (log 27), and the reply on top of it. Main
power lost before that reply is sent ends in a cold start; once it is sent, the mark makes the start warm (R223; log 32). -/
def Obligations.ReadStateAndWipeStore : Prop :=
  ∀ s : State, s.ready →
    let watered := ∃ w, s.wau.allotment.get w ≠ none ∨ (s.saw w).state = .holding
    (∀ backup, exec (.readState backup) s = .next (({ s with rsv := { s.rsv with backup := backup } } : State).answered
      Kind.readState .ok
        ([.u8 s.rsv.startKind.code, .u8 (boolCode backup), .u16 s.stk.slabs.length, .u16 s.stk.materials.length,
            .u16 s.pln.plans.length, .u16 s.bld.blades.length, .u16 s.jcu.jobs.length]
          ++ ([Saw.saw1, .saw2, .saw3, .saw4].flatMap fun w => [.u8 (s.saw w).link.code, .u8 (s.saw w).state.code])
          ++ [.u16 s.wau.capacity, .u8 s.stk.audit.state.code]))) ∧
    (watered → s.refuses .wipeStore Kind.wipeStore .state) ∧
    (¬ watered → exec .wipeStore s =
      .next ((s.coldStart (s.sdp.saws.map SawRec.interlock) s.pmn.fieldSupply).answered Kind.wipeStore .ok [])) ∧
    (¬ watered → ∀ inputs : Inputs, ∃ t u v, exec .wipeStore s = .next t ∧ t.olc.slot = .serving ∧
      t.rsv = { s.rsv with mark := true, latch := false, startKind := .cold } ∧
      exec (.powerLoss .mainPower) t = .next u ∧ exec (.powerReturn inputs) u = .next v ∧ v.rsv.startKind = .cold ∧
      v.rsv.mark = !inputs.cut ∧ v.olc.reply = none) ∧
    (¬ watered → ∀ inputs : Inputs, ∃ t t' u v, exec .wipeStore s = .next t ∧ exec .replySent t = .next t' ∧
      exec (.powerLoss .mainPower) t' = .next u ∧ exec (.powerReturn inputs) u = .next v ∧ v.rsv.startKind = .warm)

/-- Every good request frame meets the slot (R213): a SERVING slot owes it a BUSY answer, up to four; a READY one performs it,
turns SERVING and answers it once, under its kind with the top bit set, and a request refused leaves all else as it was (R1).
The end of a reply or owed answer moves the slot on. A silent part takes none (R224). That the events BUSY_REQUEST and
REPLY_SENT change nothing while the slot is READY is the model's choice (log 9). -/
def Obligations.RequestsAreAnswered : Prop :=
  (∀ (s : State) (i : Instr) (kind : Byte) (rest : List Byte), i.link? = some .office → i.body = kind :: rest →
    (s.running = false → exec i s = .next s) ∧
    (s.running = true → s.olc.slot = .serving → exec i s = .next (s.oweBusy kind)) ∧
    (s.ready → ∃ t st fields, exec i s = .next t ∧ t.olc.slot = .serving ∧
      t.olc.reply = some ⟨Kind.answer kind, some st, fields⟩ ∧ (st ≠ .ok → t = s.answered kind st fields))) ∧
  ∀ (s : State) (kind : Byte), s.running = true →
    (s.oweBusy kind =
      if s.olc.owed.length < 4 then { s with olc := { s.olc with owed := s.olc.owed ++ [kind] } } else s) ∧
    (s.olc.slot = .serving → exec (.busyRequest kind) s = .next (s.oweBusy kind)) ∧
    (s.olc.slot = .ready → exec (.busyRequest kind) s = .next s ∧ exec .replySent s = .next s) ∧
    (s.olc.slot = .serving → ∀ f, s.olc.reply = some f → exec .replySent s = .next { s with
      olc := { s.olc with reply := none, slot := if s.olc.owed = [] then .ready else .serving } }) ∧
    (s.olc.slot = .serving → s.olc.reply = none → exec .replySent s = .next { s with
      olc := { s.olc with owed := s.olc.owed.drop 1, slot := if s.olc.owed.length ≤ 1 then .ready else .serving } })

/-- The receiver's table (R209) with the CRC's check value (R210): a frame dropped leaves only the receiver in HUNT; a byte that
ends a gap is examined in HUNT. A frame of no request's kind, and a count beyond its list's limit, is answered FORM (R211,
R212). -/
def Obligations.Receiving : Prop :=
  crc [0x31#8, 0x32#8, 0x33#8, 0x34#8, 0x35#8, 0x36#8, 0x37#8, 0x38#8, 0x39#8] = 0x29B1#16 ∧
  (∀ (b len low : Byte) (held : List Byte) (left : Nat),
    Phase.hunt.take b = (if b = 0x5A#8 then .length else .hunt, .none) ∧
    Phase.length.take b =
      (if 1 ≤ b.toNat ∧ b.toNat ≤ 240 then (.inBody b [] b.toNat, .none) else (.hunt, .dropped)) ∧
    (Phase.inBody len held 1).take b = (.inCrc len (held.reverse ++ [b]) none, .none) ∧
    (Phase.inBody len held (left + 2)).take b = (.inBody len (b :: held) (left + 1), .none) ∧
    (Phase.inCrc len held none).take b = (.inCrc len held (some b), .none) ∧
    (Phase.inCrc len held (some low)).take b =
      (.hunt, if (crc (len :: held)).toNat = 256 * b.toNat + low.toNat then .good held else .dropped)) ∧
  (∀ (s : State) (l : Link) (b : Byte), s.running = true →
    exec (.badFrame l) s = .next (s.setReceiver l .hunt) ∧
    exec (.byteGapTimeout l b) s = .next (s.setReceiver l (if b = 0x5A#8 then .length else .hunt))) ∧
  ∀ (s : State) (kind : Byte), s.ready → s.refuses (.unknownRequest kind) kind .form ∧
    (∀ number material thickness lotNumber lotSeq basis flaws, 4 < flaws.length →
      s.refuses (.amendSlab number material thickness lotNumber lotSeq basis flaws) Kind.amendSlab .form) ∧
    ∀ number kerf strips, (8 < strips.length ∨ ∃ t ∈ strips, 6 < t.pieces.length) →
      s.refuses (.revisePlan number kerf strips) Kind.revisePlan .form

/-- Bytes on a link become commands: the bytes of the frame of a command that can be sent, taken by a receiver in HUNT, put
exactly that command into the queue, whatever the values of its operands (R209 to R212, R215, R216; the queue is the model's,
log 11; the bytes of the four calibration requests rest on its choice of a counted channel set, log 14). -/
def Obligations.FramesBecomeTheirCommand : Prop :=
  ∀ (s : State) (inputs : Inputs) (i : Instr) (l : Link), s.running = true → i.wf = true → i.link? = some l →
    i.sees inputs → s.receiver l = .hunt →
    s.lineBytes inputs l (frameBytes i.body) = { s with pending := s.pending ++ [i] }

/-- The kind of a start (R223) and the supply events (R224): what every block holds after a cold start (R25, R111, R145, R165,
R186, R208, R225) and after a warm one (R26, R43, R66, R112, R131, R166), with the inputs as they stand. Main power lost before
the reply of WIPE STORE is sent takes the retention mark (R226, log 32). A start cut short by a new loss of main power leaves
the part silent; a cold one leaves no mark, so the next start is COLD as well (R223); what else it leaves, and that a warm one
stands as if made whole, is the model's choice (log 29). The two causes of POWER_LOSS are the model's reading (log 20). -/
def Obligations.Starts : Prop :=
  ∀ (s : State) (inputs : Inputs),
    let whole : Inputs := { inputs with cut := false }
    let cut : Inputs := { inputs with cut := true }
    let on : Retention := { s.rsv with mainPower := true, resetAsserted := false, backup := inputs.backup }
    let started (t : State) : Prop :=
      (s.rsv.mainPower = false → s.rsv.resetAsserted = false → exec (.powerReturn whole) s = .next t) ∧
      (s.rsv.mainPower = true → s.rsv.resetAsserted = true → exec (.resetRelease whole) s = .next t)
    let short (t : State) : State := { t with
      rsv := { t.rsv with mainPower := false, mark := if t.rsv.startKind = .cold then false else t.rsv.mark }
      wau := { t.wau with permit := ⟨false, false, false, false⟩ }
      olc := { t.olc with attn := false } }
    let silent : Office := ⟨.ready, none, [], 0#16, 0#16, false, false, .hunt⟩
    let water (p : Settings) : Admission :=
      ⟨p, .undecided, ⟨.lost, none⟩, ⟨.lost, none⟩, ⟨.lost, none⟩, 0, 0, 0, 0, ⟨none, none, none, none⟩, [], [],
        ⟨false, false, false, false⟩⟩
    let blank (interlock : Bool) : SawRec :=
      ⟨.down, .offline, 5, 0, 100, none, [], none, [], 0, none, ⟨false, 0, 0, 0, 0⟩, 0, interlock, 0, none⟩
    let empty : Channel := ⟨0, 0, 0, 9999, 0, 10000, .none, none, none, none, [], none, none, .off, .stopped⟩
    (s.rsv.mark = false ∨ s.rsv.latch = true → started
      { stk := ⟨[], [], [], ⟨.idle, [], 0, 0⟩, 50000⟩, pln := ⟨[]⟩, bld := ⟨[]⟩, jcu := ⟨[]⟩,
        sdp := ⟨inputs.interlock.map blank, ⟨[], [], [], []⟩, ⟨.hunt, .hunt, .hunt, .hunt⟩⟩,
        pmn := ⟨⟨empty, empty, empty, empty, empty, empty, empty⟩, inputs.fieldSupply⟩,
        wau := water ⟨0, 150, 300, 450, 80, 900, 0, 30⟩, olc := silent,
        rsv := { on with mark := true, latch := false, startKind := .cold }, pending := s.pending }) ∧
    (s.rsv.mark = true → s.rsv.latch = false →
      let audit := s.stk.audit.state
      let returned (p : Plan) : Plan := { p with derived := p.derived.map fun d => { d with passes := d.passes.map fun q =>
        { q with state := if q.state = .staged then .pending else q.state } } }
      let fresh (c : Chan) : Channel :=
        let r := s.channel c
        let cleared : Channel :=
          { r with result := if r.state = .calibrating then .none else r.result, lowPoint := none, highPoint := none,
                   history := [], raw := none, value := none, lastGood := none, grace := .stopped, state := .off }
        if r.range = 0 then cleared
        else if inputs.fieldSupply then cleared.sampled (inputs.raw.get c) else { cleared with state := .fieldOff }
      ∃ t, started t ∧
        t.stk = (if audit = .running then { s.stk with slabs := s.stk.slabs.map (fun r => { r with mark := false }),
                                                        audit := ⟨.idle, [], 0, 0⟩ } else s.stk) ∧
        t.pln.plans = s.pln.plans.map returned ∧ t.bld = s.bld ∧ t.jcu = s.jcu ∧ t.wau = water s.wau.settings ∧
        (∀ w, ∃ ctx : Option Context, (t.saw w) = { s.saw w with
            link := .down, state := if ctx = none then .offline else .faulted, pendingLoad := none, outstanding := [],
            context := ctx, meters := ⟨false, 0, 0, 0, (s.saw w).meters.remainder⟩, heartbeat := 0,
            interlock := inputs.interlock.get w, holdTimer := none } ∧
          (∀ c, (s.saw w).context = some c →
            ctx = some (if c.kind = .hold then { c with kind := .power, cause := some .powerLoss, faults := 1 } else c)) ∧
          ((s.saw w).context = none → s.activePass? w = none → ctx = none) ∧
          (∀ p q, (s.saw w).context = none → s.activePass? w = some (p, q) →
            ctx = some ⟨.power, some .powerLoss, some ⟨p.number, q.index,
              if (s.saw w).state = .cutting ∨ (s.saw w).state = .holding then s.activeTag? w else none, q.reached,
              q.length - q.reached⟩, (s.saw w).passTime, 1⟩)) ∧
        (∀ w, t.sdp.queued.get w = [] ∧ t.sdp.receiver.get w = .hunt) ∧
        t.pmn.fieldSupply = inputs.fieldSupply ∧
        (∀ c, t.channel c = (fresh c).graced (s.wau.settings.grace * 10)) ∧
        t.olc = { silent with pending := if ∃ c ∈ Chan.all, (fresh c).grace ≠ (t.channel c).grace then 512#16 else 0#16 } ∧
        t.rsv = { on with latch := false, startKind := .warm } ∧ t.pending = s.pending) ∧
    (∃ t, exec (.powerReturn whole) s = .next t ∧ exec (.powerReturn cut) s = .next (short t)) ∧
    (s.rsv.mainPower = true →
      ∃ t, exec (.resetRelease whole) s = .next t ∧ exec (.resetRelease cut) s = .next (short t)) ∧
    (∀ again : Inputs, s.rsv.mark = false ∨ s.rsv.latch = true →
      let coldAfter (i : Instr) : Prop := ∃ u v, exec i s = .next u ∧ u.rsv.mark = false ∧
        exec (.powerReturn { again with cut := false }) u = .next v ∧ v.rsv.startKind = .cold ∧ v.rsv.mark = true
      coldAfter (.powerReturn cut) ∧ (s.rsv.mainPower = true → coldAfter (.resetRelease cut))) ∧
    (s.rsv.mainPower = false →
      exec (.resetRelease inputs) s = .next { s with rsv := { s.rsv with resetAsserted := false } }) ∧
    (∀ cause, exec (.powerLoss cause) s = .next { s with
      rsv := (match cause with
        | .mainPower => { s.rsv with
            mainPower := false
            mark := if s.olc.reply = some ⟨Kind.answer Kind.wipeStore, some .ok, []⟩ then false else s.rsv.mark }
        | .resetAsserted => { s.rsv with resetAsserted := true })
      wau := { s.wau with permit := ⟨false, false, false, false⟩ }
      olc := { s.olc with attn := false } }) ∧
    exec .backupFailure s = .next { s with
      rsv := { s.rsv with backup := false, latch := s.rsv.latch || !s.rsv.mainPower } }

/-! ## The whole part -/

/-- A step takes the command at the front of the queue and runs it on the state with the queue's rest. On an empty queue the
step is a tick of 100 ms, the model's choice (logs 5 to 7): the timers move, the frames queued for the saws are out, and the
events due, each once and no other command, join the queue, the capacity evaluation last; a silent part idles. -/
def Obligations.StepRunsTheFront : Prop :=
  (∀ (s : State) (i : Instr) (rest : List Instr), s.pending = i :: rest → step s = exec i { s with pending := rest }) ∧
  ∀ s : State, s.pending = [] →
    (s.running = false → step s = .next s) ∧
    (s.running = true → ∃ (t : State) (events : List Instr), step s = .next t ∧ t.pending = events ++ [.capacityEvaluation] ∧
      events.Nodup ∧ (∀ e ∈ events, (∃ w, e = .meteringInterval w ∨ e = .holdTimerExpiry w ∨ e = .linkSilence w) ∨
        ∃ c, e = .graceExpiry c) ∧
      (∀ w, t.saw w = { s.saw w with heartbeat := min 600 ((s.saw w).heartbeat + 1)
                                     holdTimer := (s.saw w).holdTimer.map fun n => n - 1 } ∧
        t.sdp.queued.get w = [] ∧ t.sdp.receiver.get w = s.sdp.receiver.get w ∧
        (.meteringInterval w ∈ events ↔
          (s.saw w).meters.isOpen = true ∧ ((s.saw w).state = .cutting ∨ (s.saw w).state = .holding)) ∧
        (.holdTimerExpiry w ∈ events ↔ (t.saw w).holdTimer = some 0) ∧
        (.linkSilence w ∈ events ↔ (t.saw w).link = .up ∧ 30 ≤ (t.saw w).heartbeat)) ∧
      (∀ c, (∀ n, (s.channel c).grace = .running n → t.channel c = { s.channel c with grace := .running (n - 1) }) ∧
        ((∀ n, (s.channel c).grace ≠ .running n) → t.channel c = s.channel c) ∧
        (.graceExpiry c ∈ events ↔ (t.channel c).grace = .running 0)) ∧
      t = { s with sdp := t.sdp, pmn := { s.pmn with channels := t.pmn.channels }, pending := t.pending })

/-- Right after reset every law holds, no command waits, and the part is in a cold start's values (log 4 says which inputs are
chosen). -/
def Obligations.ResetKeepsTheLaws : Prop :=
  WaterLaw State.reset ∧ QueueLaw State.reset ∧ WorkLaw State.reset ∧ TableLaw State.reset ∧ RackLaw State.reset ∧
    RangeLaw State.reset ∧ PieceLaw State.reset ∧ AttnLaw State.reset ∧
    State.reset.pending = [] ∧ State.reset.ready ∧ State.reset.rsv.startKind = .cold ∧
    State.reset = { State.reset.coldStart (.all false) false with rsv := State.reset.rsv }

/-- Every step keeps ATTN with the notice state (R219, R224). -/
def Obligations.StepsKeepAttn : Prop := ∀ s t : State, AttnLaw s → step s = .next t → AttnLaw t

/-- Every step keeps the water records with the saw states, and A at most the capacity, the capacity at most the rating (R174 to
R176, R184). -/
def Obligations.StepsKeepTheWater : Prop := ∀ s t : State, WaterLaw s → step s = .next t → WaterLaw t

/-- Every step keeps the saws' queues with the plans: a CUTTING plan stands at the head, a pending load names the head (R49,
R92). -/
def Obligations.StepsKeepTheQueues : Prop := ∀ s t : State, QueueLaw s → step s = .next t → QueueLaw t

/-- Every step keeps every table within its size, its numbers distinct, and the remnant counter in its range. With the laws of
the water, the queues and the work in hand, it keeps the rack map with the place fields, one slab a position, the marked count
with the marks (R8, R27, R31), and the work in hand itself: the slabs with the plans that hold them (R8), the working saws with
their CUTTING head plan (R88), the contexts with the states (R113). -/
def Obligations.StepsKeepTheTables : Prop :=
  (∀ s t : State, TableLaw s → step s = .next t → TableLaw t) ∧
  ∀ s t : State, WaterLaw s → QueueLaw s → TableLaw s → WorkLaw s → RackLaw s → step s = .next t → WorkLaw t ∧ RackLaw t

/-- Every step keeps every remainder, component, meter and count of a job, a blade, a saw with its context, and the audit in its
range; and, with the law of the queues, the pieces finished of every plan. -/
def Obligations.StepsKeepTheRanges : Prop :=
  (∀ s t : State, RangeLaw s → step s = .next t → RangeLaw t) ∧
  ∀ s t : State, QueueLaw s → PieceLaw s → step s = .next t → PieceLaw t
end

