-- ==== Sys2Proof/Laws/State.lean ====
section
/-! SUPPORT. What the named updates leave and what they write: one lemma for each field and update, true by the definitions, so
that no proof unfolds a record update. -/

namespace Sys2Proof

variable {α β : Type}

/-! ## Groups of four and seven -/

@[simp] theorem Four.get_set_same (f : Four α) (w : Saw) (a : α) : (f.set w a).get w = a := by cases w <;> rfl
theorem Four.get_set_ne (f : Four α) {w v : Saw} (a : α) (h : v ≠ w) : (f.set w a).get v = f.get v := by
  cases w <;> cases v <;> first | rfl | exact absurd rfl h
theorem Four.get_set (f : Four α) (w v : Saw) (a : α) : (f.set w a).get v = if v = w then a else f.get v := by
  cases w <;> cases v <;> rfl
@[simp] theorem Four.get_all (w : Saw) (a : α) : (Four.all a).get w = a := by cases w <;> rfl
@[simp] theorem Four.get_map (f : Four α) (g : α → β) (w : Saw) : (f.map g).get w = g (f.get w) := by cases w <;> rfl
theorem Four.ext_get {f g : Four α} (h : ∀ w, f.get w = g.get w) : f = g := by
  cases f; cases g
  have h1 := h .saw1; have h2 := h .saw2; have h3 := h .saw3; have h4 := h .saw4
  simp only [Four.get] at h1 h2 h3 h4
  simp only [h1, h2, h3, h4]
@[simp] theorem Seven.get_set_same (f : Seven α) (c : Chan) (a : α) : (f.set c a).get c = a := by cases c <;> rfl
theorem Seven.get_set (f : Seven α) (c d : Chan) (a : α) : (f.set c a).get d = if d = c then a else f.get d := by
  cases c <;> cases d <;> rfl
@[simp] theorem Seven.get_all (c : Chan) (a : α) : (Seven.all a).get c = a := by cases c <;> rfl
@[simp] theorem Seven.get_map (f : Seven α) (g : α → β) (c : Chan) : (f.map g).get c = g (f.get c) := by cases c <;> rfl
theorem Saw.mem_all (w : Saw) : w ∈ Saw.all := by cases w <;> decide
theorem Chan.mem_all (c : Chan) : c ∈ Chan.all := by cases c <;> decide

end Sys2Proof

namespace Sys2Proof.Machine

/-! ## Blocks left by each update -/


/-! ### updateSaw -/

@[simp] theorem State.updateSaw_stk (s : State) (w : Saw) (f : SawRec → SawRec) : (s.updateSaw w f).stk = s.stk := rfl
@[simp] theorem State.updateSaw_pln (s : State) (w : Saw) (f : SawRec → SawRec) : (s.updateSaw w f).pln = s.pln := rfl
@[simp] theorem State.updateSaw_bld (s : State) (w : Saw) (f : SawRec → SawRec) : (s.updateSaw w f).bld = s.bld := rfl
@[simp] theorem State.updateSaw_pmn (s : State) (w : Saw) (f : SawRec → SawRec) : (s.updateSaw w f).pmn = s.pmn := rfl
@[simp] theorem State.updateSaw_wau (s : State) (w : Saw) (f : SawRec → SawRec) : (s.updateSaw w f).wau = s.wau := rfl
@[simp] theorem State.updateSaw_jcu (s : State) (w : Saw) (f : SawRec → SawRec) : (s.updateSaw w f).jcu = s.jcu := rfl
@[simp] theorem State.updateSaw_olc (s : State) (w : Saw) (f : SawRec → SawRec) : (s.updateSaw w f).olc = s.olc := rfl
@[simp] theorem State.updateSaw_rsv (s : State) (w : Saw) (f : SawRec → SawRec) : (s.updateSaw w f).rsv = s.rsv := rfl
@[simp] theorem State.updateSaw_pending (s : State) (w : Saw) (f : SawRec → SawRec) : (s.updateSaw w f).pending = s.pending := rfl

/-! ### send -/

@[simp] theorem State.send_stk (s : State) (w : Saw) (f : Frame) : (s.send w f).stk = s.stk := rfl
@[simp] theorem State.send_pln (s : State) (w : Saw) (f : Frame) : (s.send w f).pln = s.pln := rfl
@[simp] theorem State.send_bld (s : State) (w : Saw) (f : Frame) : (s.send w f).bld = s.bld := rfl
@[simp] theorem State.send_pmn (s : State) (w : Saw) (f : Frame) : (s.send w f).pmn = s.pmn := rfl
@[simp] theorem State.send_wau (s : State) (w : Saw) (f : Frame) : (s.send w f).wau = s.wau := rfl
@[simp] theorem State.send_jcu (s : State) (w : Saw) (f : Frame) : (s.send w f).jcu = s.jcu := rfl
@[simp] theorem State.send_olc (s : State) (w : Saw) (f : Frame) : (s.send w f).olc = s.olc := rfl
@[simp] theorem State.send_rsv (s : State) (w : Saw) (f : Frame) : (s.send w f).rsv = s.rsv := rfl
@[simp] theorem State.send_pending (s : State) (w : Saw) (f : Frame) : (s.send w f).pending = s.pending := rfl

/-! ### withWau -/

@[simp] theorem State.withWau_stk (s : State) (f : Admission → Admission) : (s.withWau f).stk = s.stk := rfl
@[simp] theorem State.withWau_pln (s : State) (f : Admission → Admission) : (s.withWau f).pln = s.pln := rfl
@[simp] theorem State.withWau_sdp (s : State) (f : Admission → Admission) : (s.withWau f).sdp = s.sdp := rfl
@[simp] theorem State.withWau_bld (s : State) (f : Admission → Admission) : (s.withWau f).bld = s.bld := rfl
@[simp] theorem State.withWau_pmn (s : State) (f : Admission → Admission) : (s.withWau f).pmn = s.pmn := rfl
@[simp] theorem State.withWau_jcu (s : State) (f : Admission → Admission) : (s.withWau f).jcu = s.jcu := rfl
@[simp] theorem State.withWau_olc (s : State) (f : Admission → Admission) : (s.withWau f).olc = s.olc := rfl
@[simp] theorem State.withWau_rsv (s : State) (f : Admission → Admission) : (s.withWau f).rsv = s.rsv := rfl
@[simp] theorem State.withWau_pending (s : State) (f : Admission → Admission) : (s.withWau f).pending = s.pending := rfl

/-! ### withSlabs -/

@[simp] theorem State.withSlabs_pln (s : State) (f : List Slab → List Slab) : (s.withSlabs f).pln = s.pln := rfl
@[simp] theorem State.withSlabs_sdp (s : State) (f : List Slab → List Slab) : (s.withSlabs f).sdp = s.sdp := rfl
@[simp] theorem State.withSlabs_bld (s : State) (f : List Slab → List Slab) : (s.withSlabs f).bld = s.bld := rfl
@[simp] theorem State.withSlabs_pmn (s : State) (f : List Slab → List Slab) : (s.withSlabs f).pmn = s.pmn := rfl
@[simp] theorem State.withSlabs_wau (s : State) (f : List Slab → List Slab) : (s.withSlabs f).wau = s.wau := rfl
@[simp] theorem State.withSlabs_jcu (s : State) (f : List Slab → List Slab) : (s.withSlabs f).jcu = s.jcu := rfl
@[simp] theorem State.withSlabs_olc (s : State) (f : List Slab → List Slab) : (s.withSlabs f).olc = s.olc := rfl
@[simp] theorem State.withSlabs_rsv (s : State) (f : List Slab → List Slab) : (s.withSlabs f).rsv = s.rsv := rfl
@[simp] theorem State.withSlabs_pending (s : State) (f : List Slab → List Slab) : (s.withSlabs f).pending = s.pending := rfl

/-! ### withMaterials -/

@[simp] theorem State.withMaterials_pln (s : State) (f : List Material → List Material) : (s.withMaterials f).pln = s.pln := rfl
@[simp] theorem State.withMaterials_sdp (s : State) (f : List Material → List Material) : (s.withMaterials f).sdp = s.sdp := rfl
@[simp] theorem State.withMaterials_bld (s : State) (f : List Material → List Material) : (s.withMaterials f).bld = s.bld := rfl
@[simp] theorem State.withMaterials_pmn (s : State) (f : List Material → List Material) : (s.withMaterials f).pmn = s.pmn := rfl
@[simp] theorem State.withMaterials_wau (s : State) (f : List Material → List Material) : (s.withMaterials f).wau = s.wau := rfl
@[simp] theorem State.withMaterials_jcu (s : State) (f : List Material → List Material) : (s.withMaterials f).jcu = s.jcu := rfl
@[simp] theorem State.withMaterials_olc (s : State) (f : List Material → List Material) : (s.withMaterials f).olc = s.olc := rfl
@[simp] theorem State.withMaterials_rsv (s : State) (f : List Material → List Material) : (s.withMaterials f).rsv = s.rsv := rfl
@[simp] theorem State.withMaterials_pending (s : State) (f : List Material → List Material) : (s.withMaterials f).pending = s.pending := rfl

/-! ### withRackMap -/

@[simp] theorem State.withRackMap_pln (s : State) (f : List RackEntry → List RackEntry) : (s.withRackMap f).pln = s.pln := rfl
@[simp] theorem State.withRackMap_sdp (s : State) (f : List RackEntry → List RackEntry) : (s.withRackMap f).sdp = s.sdp := rfl
@[simp] theorem State.withRackMap_bld (s : State) (f : List RackEntry → List RackEntry) : (s.withRackMap f).bld = s.bld := rfl
@[simp] theorem State.withRackMap_pmn (s : State) (f : List RackEntry → List RackEntry) : (s.withRackMap f).pmn = s.pmn := rfl
@[simp] theorem State.withRackMap_wau (s : State) (f : List RackEntry → List RackEntry) : (s.withRackMap f).wau = s.wau := rfl
@[simp] theorem State.withRackMap_jcu (s : State) (f : List RackEntry → List RackEntry) : (s.withRackMap f).jcu = s.jcu := rfl
@[simp] theorem State.withRackMap_olc (s : State) (f : List RackEntry → List RackEntry) : (s.withRackMap f).olc = s.olc := rfl
@[simp] theorem State.withRackMap_rsv (s : State) (f : List RackEntry → List RackEntry) : (s.withRackMap f).rsv = s.rsv := rfl
@[simp] theorem State.withRackMap_pending (s : State) (f : List RackEntry → List RackEntry) : (s.withRackMap f).pending = s.pending := rfl

/-! ### withAudit -/

@[simp] theorem State.withAudit_pln (s : State) (f : Audit → Audit) : (s.withAudit f).pln = s.pln := rfl
@[simp] theorem State.withAudit_sdp (s : State) (f : Audit → Audit) : (s.withAudit f).sdp = s.sdp := rfl
@[simp] theorem State.withAudit_bld (s : State) (f : Audit → Audit) : (s.withAudit f).bld = s.bld := rfl
@[simp] theorem State.withAudit_pmn (s : State) (f : Audit → Audit) : (s.withAudit f).pmn = s.pmn := rfl
@[simp] theorem State.withAudit_wau (s : State) (f : Audit → Audit) : (s.withAudit f).wau = s.wau := rfl
@[simp] theorem State.withAudit_jcu (s : State) (f : Audit → Audit) : (s.withAudit f).jcu = s.jcu := rfl
@[simp] theorem State.withAudit_olc (s : State) (f : Audit → Audit) : (s.withAudit f).olc = s.olc := rfl
@[simp] theorem State.withAudit_rsv (s : State) (f : Audit → Audit) : (s.withAudit f).rsv = s.rsv := rfl
@[simp] theorem State.withAudit_pending (s : State) (f : Audit → Audit) : (s.withAudit f).pending = s.pending := rfl

/-! ### withPlans -/

@[simp] theorem State.withPlans_stk (s : State) (f : List Plan → List Plan) : (s.withPlans f).stk = s.stk := rfl
@[simp] theorem State.withPlans_sdp (s : State) (f : List Plan → List Plan) : (s.withPlans f).sdp = s.sdp := rfl
@[simp] theorem State.withPlans_bld (s : State) (f : List Plan → List Plan) : (s.withPlans f).bld = s.bld := rfl
@[simp] theorem State.withPlans_pmn (s : State) (f : List Plan → List Plan) : (s.withPlans f).pmn = s.pmn := rfl
@[simp] theorem State.withPlans_wau (s : State) (f : List Plan → List Plan) : (s.withPlans f).wau = s.wau := rfl
@[simp] theorem State.withPlans_jcu (s : State) (f : List Plan → List Plan) : (s.withPlans f).jcu = s.jcu := rfl
@[simp] theorem State.withPlans_olc (s : State) (f : List Plan → List Plan) : (s.withPlans f).olc = s.olc := rfl
@[simp] theorem State.withPlans_rsv (s : State) (f : List Plan → List Plan) : (s.withPlans f).rsv = s.rsv := rfl
@[simp] theorem State.withPlans_pending (s : State) (f : List Plan → List Plan) : (s.withPlans f).pending = s.pending := rfl

/-! ### withJobs -/

@[simp] theorem State.withJobs_stk (s : State) (f : List Job → List Job) : (s.withJobs f).stk = s.stk := rfl
@[simp] theorem State.withJobs_pln (s : State) (f : List Job → List Job) : (s.withJobs f).pln = s.pln := rfl
@[simp] theorem State.withJobs_sdp (s : State) (f : List Job → List Job) : (s.withJobs f).sdp = s.sdp := rfl
@[simp] theorem State.withJobs_bld (s : State) (f : List Job → List Job) : (s.withJobs f).bld = s.bld := rfl
@[simp] theorem State.withJobs_pmn (s : State) (f : List Job → List Job) : (s.withJobs f).pmn = s.pmn := rfl
@[simp] theorem State.withJobs_wau (s : State) (f : List Job → List Job) : (s.withJobs f).wau = s.wau := rfl
@[simp] theorem State.withJobs_olc (s : State) (f : List Job → List Job) : (s.withJobs f).olc = s.olc := rfl
@[simp] theorem State.withJobs_rsv (s : State) (f : List Job → List Job) : (s.withJobs f).rsv = s.rsv := rfl
@[simp] theorem State.withJobs_pending (s : State) (f : List Job → List Job) : (s.withJobs f).pending = s.pending := rfl

/-! ### withBlades -/

@[simp] theorem State.withBlades_stk (s : State) (f : List Blade → List Blade) : (s.withBlades f).stk = s.stk := rfl
@[simp] theorem State.withBlades_pln (s : State) (f : List Blade → List Blade) : (s.withBlades f).pln = s.pln := rfl
@[simp] theorem State.withBlades_sdp (s : State) (f : List Blade → List Blade) : (s.withBlades f).sdp = s.sdp := rfl
@[simp] theorem State.withBlades_pmn (s : State) (f : List Blade → List Blade) : (s.withBlades f).pmn = s.pmn := rfl
@[simp] theorem State.withBlades_wau (s : State) (f : List Blade → List Blade) : (s.withBlades f).wau = s.wau := rfl
@[simp] theorem State.withBlades_jcu (s : State) (f : List Blade → List Blade) : (s.withBlades f).jcu = s.jcu := rfl
@[simp] theorem State.withBlades_olc (s : State) (f : List Blade → List Blade) : (s.withBlades f).olc = s.olc := rfl
@[simp] theorem State.withBlades_rsv (s : State) (f : List Blade → List Blade) : (s.withBlades f).rsv = s.rsv := rfl
@[simp] theorem State.withBlades_pending (s : State) (f : List Blade → List Blade) : (s.withBlades f).pending = s.pending := rfl

/-! ### setChannelRec -/

@[simp] theorem State.setChannelRec_stk (s : State) (c : Chan) (r : Channel) : (s.setChannelRec c r).stk = s.stk := rfl
@[simp] theorem State.setChannelRec_pln (s : State) (c : Chan) (r : Channel) : (s.setChannelRec c r).pln = s.pln := rfl
@[simp] theorem State.setChannelRec_sdp (s : State) (c : Chan) (r : Channel) : (s.setChannelRec c r).sdp = s.sdp := rfl
@[simp] theorem State.setChannelRec_bld (s : State) (c : Chan) (r : Channel) : (s.setChannelRec c r).bld = s.bld := rfl
@[simp] theorem State.setChannelRec_wau (s : State) (c : Chan) (r : Channel) : (s.setChannelRec c r).wau = s.wau := rfl
@[simp] theorem State.setChannelRec_jcu (s : State) (c : Chan) (r : Channel) : (s.setChannelRec c r).jcu = s.jcu := rfl
@[simp] theorem State.setChannelRec_olc (s : State) (c : Chan) (r : Channel) : (s.setChannelRec c r).olc = s.olc := rfl
@[simp] theorem State.setChannelRec_rsv (s : State) (c : Chan) (r : Channel) : (s.setChannelRec c r).rsv = s.rsv := rfl
@[simp] theorem State.setChannelRec_pending (s : State) (c : Chan) (r : Channel) : (s.setChannelRec c r).pending = s.pending := rfl

/-! ### settleAttn -/

@[simp] theorem State.settleAttn_stk (s : State) : (s.settleAttn).stk = s.stk := rfl
@[simp] theorem State.settleAttn_pln (s : State) : (s.settleAttn).pln = s.pln := rfl
@[simp] theorem State.settleAttn_sdp (s : State) : (s.settleAttn).sdp = s.sdp := rfl
@[simp] theorem State.settleAttn_bld (s : State) : (s.settleAttn).bld = s.bld := rfl
@[simp] theorem State.settleAttn_pmn (s : State) : (s.settleAttn).pmn = s.pmn := rfl
@[simp] theorem State.settleAttn_wau (s : State) : (s.settleAttn).wau = s.wau := rfl
@[simp] theorem State.settleAttn_jcu (s : State) : (s.settleAttn).jcu = s.jcu := rfl
@[simp] theorem State.settleAttn_rsv (s : State) : (s.settleAttn).rsv = s.rsv := rfl
@[simp] theorem State.settleAttn_pending (s : State) : (s.settleAttn).pending = s.pending := rfl

/-! ### raise -/

@[simp] theorem State.raise_stk (s : State) (n : Notice) : (s.raise n).stk = s.stk := rfl
@[simp] theorem State.raise_pln (s : State) (n : Notice) : (s.raise n).pln = s.pln := rfl
@[simp] theorem State.raise_sdp (s : State) (n : Notice) : (s.raise n).sdp = s.sdp := rfl
@[simp] theorem State.raise_bld (s : State) (n : Notice) : (s.raise n).bld = s.bld := rfl
@[simp] theorem State.raise_pmn (s : State) (n : Notice) : (s.raise n).pmn = s.pmn := rfl
@[simp] theorem State.raise_wau (s : State) (n : Notice) : (s.raise n).wau = s.wau := rfl
@[simp] theorem State.raise_jcu (s : State) (n : Notice) : (s.raise n).jcu = s.jcu := rfl
@[simp] theorem State.raise_rsv (s : State) (n : Notice) : (s.raise n).rsv = s.rsv := rfl
@[simp] theorem State.raise_pending (s : State) (n : Notice) : (s.raise n).pending = s.pending := rfl

/-! ### sendReply -/

@[simp] theorem State.sendReply_stk (s : State) (k : Byte) (a : Answer) : (s.sendReply k a).stk = s.stk := rfl
@[simp] theorem State.sendReply_pln (s : State) (k : Byte) (a : Answer) : (s.sendReply k a).pln = s.pln := rfl
@[simp] theorem State.sendReply_sdp (s : State) (k : Byte) (a : Answer) : (s.sendReply k a).sdp = s.sdp := rfl
@[simp] theorem State.sendReply_bld (s : State) (k : Byte) (a : Answer) : (s.sendReply k a).bld = s.bld := rfl
@[simp] theorem State.sendReply_pmn (s : State) (k : Byte) (a : Answer) : (s.sendReply k a).pmn = s.pmn := rfl
@[simp] theorem State.sendReply_wau (s : State) (k : Byte) (a : Answer) : (s.sendReply k a).wau = s.wau := rfl
@[simp] theorem State.sendReply_jcu (s : State) (k : Byte) (a : Answer) : (s.sendReply k a).jcu = s.jcu := rfl
@[simp] theorem State.sendReply_rsv (s : State) (k : Byte) (a : Answer) : (s.sendReply k a).rsv = s.rsv := rfl
@[simp] theorem State.sendReply_pending (s : State) (k : Byte) (a : Answer) : (s.sendReply k a).pending = s.pending := rfl

/-! ### Updates of either kind -/

@[simp] theorem State.raiseIf_false (s : State) (n : Notice) : s.raiseIf false n = s := rfl
@[simp] theorem State.raiseIf_true (s : State) (n : Notice) : s.raiseIf true n = s.raise n := rfl

@[simp] theorem State.raiseIf_stk (s : State) (c : Bool) (n : Notice) : (s.raiseIf c n).stk = s.stk := by cases c <;> rfl
@[simp] theorem State.oweBusy_stk (s : State) (k : Byte) : (s.oweBusy k).stk = s.stk := by
  unfold State.oweBusy; split <;> rfl
@[simp] theorem State.setReceiver_stk (s : State) (l : Link) (p : Phase) : (s.setReceiver l p).stk = s.stk := by
  cases l <;> rfl
@[simp] theorem State.raiseIf_pln (s : State) (c : Bool) (n : Notice) : (s.raiseIf c n).pln = s.pln := by cases c <;> rfl
@[simp] theorem State.oweBusy_pln (s : State) (k : Byte) : (s.oweBusy k).pln = s.pln := by
  unfold State.oweBusy; split <;> rfl
@[simp] theorem State.setReceiver_pln (s : State) (l : Link) (p : Phase) : (s.setReceiver l p).pln = s.pln := by
  cases l <;> rfl
@[simp] theorem State.raiseIf_sdp (s : State) (c : Bool) (n : Notice) : (s.raiseIf c n).sdp = s.sdp := by cases c <;> rfl
@[simp] theorem State.oweBusy_sdp (s : State) (k : Byte) : (s.oweBusy k).sdp = s.sdp := by
  unfold State.oweBusy; split <;> rfl
@[simp] theorem State.raiseIf_bld (s : State) (c : Bool) (n : Notice) : (s.raiseIf c n).bld = s.bld := by cases c <;> rfl
@[simp] theorem State.oweBusy_bld (s : State) (k : Byte) : (s.oweBusy k).bld = s.bld := by
  unfold State.oweBusy; split <;> rfl
@[simp] theorem State.setReceiver_bld (s : State) (l : Link) (p : Phase) : (s.setReceiver l p).bld = s.bld := by
  cases l <;> rfl
@[simp] theorem State.raiseIf_pmn (s : State) (c : Bool) (n : Notice) : (s.raiseIf c n).pmn = s.pmn := by cases c <;> rfl
@[simp] theorem State.oweBusy_pmn (s : State) (k : Byte) : (s.oweBusy k).pmn = s.pmn := by
  unfold State.oweBusy; split <;> rfl
@[simp] theorem State.setReceiver_pmn (s : State) (l : Link) (p : Phase) : (s.setReceiver l p).pmn = s.pmn := by
  cases l <;> rfl
@[simp] theorem State.raiseIf_wau (s : State) (c : Bool) (n : Notice) : (s.raiseIf c n).wau = s.wau := by cases c <;> rfl
@[simp] theorem State.oweBusy_wau (s : State) (k : Byte) : (s.oweBusy k).wau = s.wau := by
  unfold State.oweBusy; split <;> rfl
@[simp] theorem State.setReceiver_wau (s : State) (l : Link) (p : Phase) : (s.setReceiver l p).wau = s.wau := by
  cases l <;> rfl
@[simp] theorem State.raiseIf_jcu (s : State) (c : Bool) (n : Notice) : (s.raiseIf c n).jcu = s.jcu := by cases c <;> rfl
@[simp] theorem State.oweBusy_jcu (s : State) (k : Byte) : (s.oweBusy k).jcu = s.jcu := by
  unfold State.oweBusy; split <;> rfl
@[simp] theorem State.setReceiver_jcu (s : State) (l : Link) (p : Phase) : (s.setReceiver l p).jcu = s.jcu := by
  cases l <;> rfl
@[simp] theorem State.raiseIf_rsv (s : State) (c : Bool) (n : Notice) : (s.raiseIf c n).rsv = s.rsv := by cases c <;> rfl
@[simp] theorem State.oweBusy_rsv (s : State) (k : Byte) : (s.oweBusy k).rsv = s.rsv := by
  unfold State.oweBusy; split <;> rfl
@[simp] theorem State.setReceiver_rsv (s : State) (l : Link) (p : Phase) : (s.setReceiver l p).rsv = s.rsv := by
  cases l <;> rfl
@[simp] theorem State.raiseIf_pending (s : State) (c : Bool) (n : Notice) : (s.raiseIf c n).pending = s.pending := by cases c <;> rfl
@[simp] theorem State.oweBusy_pending (s : State) (k : Byte) : (s.oweBusy k).pending = s.pending := by
  unfold State.oweBusy; split <;> rfl
@[simp] theorem State.setReceiver_pending (s : State) (l : Link) (p : Phase) : (s.setReceiver l p).pending = s.pending := by
  cases l <;> rfl

/-! ## What each update writes -/

@[simp] theorem State.updateSaw_saws (s : State) (w : Saw) (f : SawRec → SawRec) :
    (s.updateSaw w f).sdp.saws = s.sdp.saws.set w (f (s.sdp.saws.get w)) := rfl
@[simp] theorem State.updateSaw_queued (s : State) (w : Saw) (f : SawRec → SawRec) :
    (s.updateSaw w f).sdp.queued = s.sdp.queued := rfl
@[simp] theorem State.updateSaw_receiver (s : State) (w : Saw) (f : SawRec → SawRec) :
    (s.updateSaw w f).sdp.receiver = s.sdp.receiver := rfl
@[simp] theorem State.send_saws (s : State) (w : Saw) (f : Frame) : (s.send w f).sdp.saws = s.sdp.saws := rfl
@[simp] theorem State.send_queued (s : State) (w : Saw) (f : Frame) :
    (s.send w f).sdp.queued = s.sdp.queued.set w (s.sdp.queued.get w ++ [f]) := rfl
@[simp] theorem State.send_receiver (s : State) (w : Saw) (f : Frame) : (s.send w f).sdp.receiver = s.sdp.receiver := rfl
@[simp] theorem State.setReceiver_saws (s : State) (l : Link) (p : Phase) : (s.setReceiver l p).sdp.saws = s.sdp.saws := by
  cases l <;> rfl
@[simp] theorem State.withWau_wau (s : State) (f : Admission → Admission) : (s.withWau f).wau = f s.wau := rfl
@[simp] theorem State.withSlabs_stk (s : State) (f : List Slab → List Slab) :
    (s.withSlabs f).stk = { s.stk with slabs := f s.stk.slabs } := rfl
@[simp] theorem State.withMaterials_stk (s : State) (f : List Material → List Material) :
    (s.withMaterials f).stk = { s.stk with materials := f s.stk.materials } := rfl
@[simp] theorem State.withRackMap_stk (s : State) (f : List RackEntry → List RackEntry) :
    (s.withRackMap f).stk = { s.stk with rackMap := f s.stk.rackMap } := rfl
@[simp] theorem State.withAudit_stk (s : State) (f : Audit → Audit) :
    (s.withAudit f).stk = { s.stk with audit := f s.stk.audit } := rfl
@[simp] theorem State.withPlans_pln (s : State) (f : List Plan → List Plan) : (s.withPlans f).pln = ⟨f s.pln.plans⟩ := rfl
@[simp] theorem State.withJobs_jcu (s : State) (f : List Job → List Job) : (s.withJobs f).jcu = ⟨f s.jcu.jobs⟩ := rfl
@[simp] theorem State.withBlades_bld (s : State) (f : List Blade → List Blade) : (s.withBlades f).bld = ⟨f s.bld.blades⟩ := rfl
@[simp] theorem State.setChannelRec_pmn (s : State) (c : Chan) (r : Channel) :
    (s.setChannelRec c r).pmn = { s.pmn with channels := s.pmn.channels.set c r } := rfl
@[simp] theorem State.settleAttn_olc (s : State) :
    s.settleAttn.olc = { s.olc with attn := s.running && s.olc.calls } := rfl
@[simp] theorem State.sendReply_olc (s : State) (k : Byte) (a : Answer) :
    (s.sendReply k a).olc = { s.olc with slot := .serving, reply := some ⟨Kind.answer k, some a.status, a.fields⟩ } := rfl

/-! ### A notice raised -/

@[simp] theorem State.raise_pending_set (s : State) (n : Notice) : (s.raise n).olc.pending = s.olc.pending ||| n.bit := rfl
@[simp] theorem State.raise_enable (s : State) (n : Notice) : (s.raise n).olc.enable = s.olc.enable := rfl
@[simp] theorem State.raise_master (s : State) (n : Notice) : (s.raise n).olc.master = s.olc.master := rfl
@[simp] theorem State.raise_slot (s : State) (n : Notice) : (s.raise n).olc.slot = s.olc.slot := rfl
@[simp] theorem State.raise_reply (s : State) (n : Notice) : (s.raise n).olc.reply = s.olc.reply := rfl
@[simp] theorem State.raise_owed (s : State) (n : Notice) : (s.raise n).olc.owed = s.olc.owed := rfl

/-! ## Saw records read after an update -/

@[simp] theorem State.saw_updateSaw_same (s : State) (w : Saw) (f : SawRec → SawRec) :
    (s.updateSaw w f).saw w = f (s.saw w) := by simp [State.saw]
theorem State.saw_updateSaw (s : State) (w v : Saw) (f : SawRec → SawRec) :
    (s.updateSaw w f).saw v = if v = w then f (s.saw w) else s.saw v := by simp [State.saw, Four.get_set]
theorem State.saw_updateSaw_ne (s : State) {w v : Saw} (f : SawRec → SawRec) (h : v ≠ w) :
    (s.updateSaw w f).saw v = s.saw v := by simp [State.saw_updateSaw, h]

@[simp] theorem State.saw_send (s : State) (w : Saw) (f : Frame) (v : Saw) : (s.send w f).saw v = s.saw v := rfl
@[simp] theorem State.saw_withWau (s : State) (f : Admission → Admission) (v : Saw) : (s.withWau f).saw v = s.saw v := rfl
@[simp] theorem State.saw_withSlabs (s : State) (f : List Slab → List Slab) (v : Saw) : (s.withSlabs f).saw v = s.saw v := rfl
@[simp] theorem State.saw_withMaterials (s : State) (f : List Material → List Material) (v : Saw) : (s.withMaterials f).saw v = s.saw v := rfl
@[simp] theorem State.saw_withRackMap (s : State) (f : List RackEntry → List RackEntry) (v : Saw) : (s.withRackMap f).saw v = s.saw v := rfl
@[simp] theorem State.saw_withAudit (s : State) (f : Audit → Audit) (v : Saw) : (s.withAudit f).saw v = s.saw v := rfl
@[simp] theorem State.saw_withPlans (s : State) (f : List Plan → List Plan) (v : Saw) : (s.withPlans f).saw v = s.saw v := rfl
@[simp] theorem State.saw_withJobs (s : State) (f : List Job → List Job) (v : Saw) : (s.withJobs f).saw v = s.saw v := rfl
@[simp] theorem State.saw_withBlades (s : State) (f : List Blade → List Blade) (v : Saw) : (s.withBlades f).saw v = s.saw v := rfl
@[simp] theorem State.saw_setChannelRec (s : State) (c : Chan) (r : Channel) (v : Saw) : (s.setChannelRec c r).saw v = s.saw v := rfl
@[simp] theorem State.saw_settleAttn (s : State) (v : Saw) : (s.settleAttn).saw v = s.saw v := rfl
@[simp] theorem State.saw_raise (s : State) (n : Notice) (v : Saw) : (s.raise n).saw v = s.saw v := rfl
@[simp] theorem State.saw_sendReply (s : State) (k : Byte) (a : Answer) (v : Saw) : (s.sendReply k a).saw v = s.saw v := rfl
@[simp] theorem State.saw_raiseIf (s : State) (c : Bool) (n : Notice) (v : Saw) : (s.raiseIf c n).saw v = s.saw v := by
  cases c <;> rfl
@[simp] theorem State.saw_setReceiver (s : State) (l : Link) (p : Phase) (v : Saw) : (s.setReceiver l p).saw v = s.saw v := by
  cases l <;> rfl

end Sys2Proof.Machine
end

