-- ==== Sys2Proof/Laws/Frames.lean ====
section
/-! SUPPORT. The frame of each shared operation: the blocks it leaves as they are. -/

namespace Sys2Proof.Machine


/-! ### updateSlab -/

@[simp] theorem State.updateSlab_pln (s : State) (n : Nat) (f : Slab → Slab) : (s.updateSlab n f).pln = s.pln := by
  rfl
@[simp] theorem State.updateSlab_sdp (s : State) (n : Nat) (f : Slab → Slab) : (s.updateSlab n f).sdp = s.sdp := by
  rfl
@[simp] theorem State.updateSlab_bld (s : State) (n : Nat) (f : Slab → Slab) : (s.updateSlab n f).bld = s.bld := by
  rfl
@[simp] theorem State.updateSlab_pmn (s : State) (n : Nat) (f : Slab → Slab) : (s.updateSlab n f).pmn = s.pmn := by
  rfl
@[simp] theorem State.updateSlab_wau (s : State) (n : Nat) (f : Slab → Slab) : (s.updateSlab n f).wau = s.wau := by
  rfl
@[simp] theorem State.updateSlab_jcu (s : State) (n : Nat) (f : Slab → Slab) : (s.updateSlab n f).jcu = s.jcu := by
  rfl
@[simp] theorem State.updateSlab_olc (s : State) (n : Nat) (f : Slab → Slab) : (s.updateSlab n f).olc = s.olc := by
  rfl
@[simp] theorem State.updateSlab_rsv (s : State) (n : Nat) (f : Slab → Slab) : (s.updateSlab n f).rsv = s.rsv := by
  rfl
@[simp] theorem State.updateSlab_pending (s : State) (n : Nat) (f : Slab → Slab) : (s.updateSlab n f).pending = s.pending := by
  rfl

/-! ### clearRack -/

@[simp] theorem State.clearRack_pln (s : State) (p : Place) : (s.clearRack p).pln = s.pln := by
  rfl
@[simp] theorem State.clearRack_sdp (s : State) (p : Place) : (s.clearRack p).sdp = s.sdp := by
  rfl
@[simp] theorem State.clearRack_bld (s : State) (p : Place) : (s.clearRack p).bld = s.bld := by
  rfl
@[simp] theorem State.clearRack_pmn (s : State) (p : Place) : (s.clearRack p).pmn = s.pmn := by
  rfl
@[simp] theorem State.clearRack_wau (s : State) (p : Place) : (s.clearRack p).wau = s.wau := by
  rfl
@[simp] theorem State.clearRack_jcu (s : State) (p : Place) : (s.clearRack p).jcu = s.jcu := by
  rfl
@[simp] theorem State.clearRack_olc (s : State) (p : Place) : (s.clearRack p).olc = s.olc := by
  rfl
@[simp] theorem State.clearRack_rsv (s : State) (p : Place) : (s.clearRack p).rsv = s.rsv := by
  rfl
@[simp] theorem State.clearRack_pending (s : State) (p : Place) : (s.clearRack p).pending = s.pending := by
  rfl

/-! ### fillRack -/

@[simp] theorem State.fillRack_pln (s : State) (p : Place) (n : Nat) : (s.fillRack p n).pln = s.pln := by
  rfl
@[simp] theorem State.fillRack_sdp (s : State) (p : Place) (n : Nat) : (s.fillRack p n).sdp = s.sdp := by
  rfl
@[simp] theorem State.fillRack_bld (s : State) (p : Place) (n : Nat) : (s.fillRack p n).bld = s.bld := by
  rfl
@[simp] theorem State.fillRack_pmn (s : State) (p : Place) (n : Nat) : (s.fillRack p n).pmn = s.pmn := by
  rfl
@[simp] theorem State.fillRack_wau (s : State) (p : Place) (n : Nat) : (s.fillRack p n).wau = s.wau := by
  rfl
@[simp] theorem State.fillRack_jcu (s : State) (p : Place) (n : Nat) : (s.fillRack p n).jcu = s.jcu := by
  rfl
@[simp] theorem State.fillRack_olc (s : State) (p : Place) (n : Nat) : (s.fillRack p n).olc = s.olc := by
  rfl
@[simp] theorem State.fillRack_rsv (s : State) (p : Place) (n : Nat) : (s.fillRack p n).rsv = s.rsv := by
  rfl
@[simp] theorem State.fillRack_pending (s : State) (p : Place) (n : Nat) : (s.fillRack p n).pending = s.pending := by
  rfl

/-! ### reserve -/

@[simp] theorem State.reserve_pln (s : State) (n p : Nat) : (s.reserve n p).pln = s.pln := by
  rfl
@[simp] theorem State.reserve_sdp (s : State) (n p : Nat) : (s.reserve n p).sdp = s.sdp := by
  rfl
@[simp] theorem State.reserve_bld (s : State) (n p : Nat) : (s.reserve n p).bld = s.bld := by
  rfl
@[simp] theorem State.reserve_pmn (s : State) (n p : Nat) : (s.reserve n p).pmn = s.pmn := by
  rfl
@[simp] theorem State.reserve_wau (s : State) (n p : Nat) : (s.reserve n p).wau = s.wau := by
  rfl
@[simp] theorem State.reserve_jcu (s : State) (n p : Nat) : (s.reserve n p).jcu = s.jcu := by
  rfl
@[simp] theorem State.reserve_olc (s : State) (n p : Nat) : (s.reserve n p).olc = s.olc := by
  rfl
@[simp] theorem State.reserve_rsv (s : State) (n p : Nat) : (s.reserve n p).rsv = s.rsv := by
  rfl
@[simp] theorem State.reserve_pending (s : State) (n p : Nat) : (s.reserve n p).pending = s.pending := by
  rfl

/-! ### unreserve -/

@[simp] theorem State.unreserve_pln (s : State) (n : Nat) : (s.unreserve n).pln = s.pln := by
  rfl
@[simp] theorem State.unreserve_sdp (s : State) (n : Nat) : (s.unreserve n).sdp = s.sdp := by
  rfl
@[simp] theorem State.unreserve_bld (s : State) (n : Nat) : (s.unreserve n).bld = s.bld := by
  rfl
@[simp] theorem State.unreserve_pmn (s : State) (n : Nat) : (s.unreserve n).pmn = s.pmn := by
  rfl
@[simp] theorem State.unreserve_wau (s : State) (n : Nat) : (s.unreserve n).wau = s.wau := by
  rfl
@[simp] theorem State.unreserve_jcu (s : State) (n : Nat) : (s.unreserve n).jcu = s.jcu := by
  rfl
@[simp] theorem State.unreserve_olc (s : State) (n : Nat) : (s.unreserve n).olc = s.olc := by
  rfl
@[simp] theorem State.unreserve_rsv (s : State) (n : Nat) : (s.unreserve n).rsv = s.rsv := by
  rfl
@[simp] theorem State.unreserve_pending (s : State) (n : Nat) : (s.unreserve n).pending = s.pending := by
  rfl

/-! ### consume -/

@[simp] theorem State.consume_pln (s : State) (n : Nat) : (s.consume n).pln = s.pln := by
  rfl
@[simp] theorem State.consume_sdp (s : State) (n : Nat) : (s.consume n).sdp = s.sdp := by
  rfl
@[simp] theorem State.consume_bld (s : State) (n : Nat) : (s.consume n).bld = s.bld := by
  rfl
@[simp] theorem State.consume_pmn (s : State) (n : Nat) : (s.consume n).pmn = s.pmn := by
  rfl
@[simp] theorem State.consume_wau (s : State) (n : Nat) : (s.consume n).wau = s.wau := by
  rfl
@[simp] theorem State.consume_jcu (s : State) (n : Nat) : (s.consume n).jcu = s.jcu := by
  rfl
@[simp] theorem State.consume_olc (s : State) (n : Nat) : (s.consume n).olc = s.olc := by
  rfl
@[simp] theorem State.consume_rsv (s : State) (n : Nat) : (s.consume n).rsv = s.rsv := by
  rfl
@[simp] theorem State.consume_pending (s : State) (n : Nat) : (s.consume n).pending = s.pending := by
  rfl

/-! ### scrapOnAbandon -/

@[simp] theorem State.scrapOnAbandon_pln (s : State) (n : Nat) : (s.scrapOnAbandon n).pln = s.pln := by
  rfl
@[simp] theorem State.scrapOnAbandon_sdp (s : State) (n : Nat) : (s.scrapOnAbandon n).sdp = s.sdp := by
  rfl
@[simp] theorem State.scrapOnAbandon_bld (s : State) (n : Nat) : (s.scrapOnAbandon n).bld = s.bld := by
  rfl
@[simp] theorem State.scrapOnAbandon_pmn (s : State) (n : Nat) : (s.scrapOnAbandon n).pmn = s.pmn := by
  rfl
@[simp] theorem State.scrapOnAbandon_wau (s : State) (n : Nat) : (s.scrapOnAbandon n).wau = s.wau := by
  rfl
@[simp] theorem State.scrapOnAbandon_jcu (s : State) (n : Nat) : (s.scrapOnAbandon n).jcu = s.jcu := by
  rfl
@[simp] theorem State.scrapOnAbandon_olc (s : State) (n : Nat) : (s.scrapOnAbandon n).olc = s.olc := by
  rfl
@[simp] theorem State.scrapOnAbandon_rsv (s : State) (n : Nat) : (s.scrapOnAbandon n).rsv = s.rsv := by
  rfl
@[simp] theorem State.scrapOnAbandon_pending (s : State) (n : Nat) : (s.scrapOnAbandon n).pending = s.pending := by
  rfl

/-! ### setPlace -/

@[simp] theorem State.setPlace_pln (s : State) (n : Nat) (t : Option Place) : (s.setPlace n t).pln = s.pln := by
  unfold State.setPlace; split
  · rfl
  · cases t <;> simp <;> (cases ‹Slab›.place <;> simp)
@[simp] theorem State.setPlace_sdp (s : State) (n : Nat) (t : Option Place) : (s.setPlace n t).sdp = s.sdp := by
  unfold State.setPlace; split
  · rfl
  · cases t <;> simp <;> (cases ‹Slab›.place <;> simp)
@[simp] theorem State.setPlace_bld (s : State) (n : Nat) (t : Option Place) : (s.setPlace n t).bld = s.bld := by
  unfold State.setPlace; split
  · rfl
  · cases t <;> simp <;> (cases ‹Slab›.place <;> simp)
@[simp] theorem State.setPlace_pmn (s : State) (n : Nat) (t : Option Place) : (s.setPlace n t).pmn = s.pmn := by
  unfold State.setPlace; split
  · rfl
  · cases t <;> simp <;> (cases ‹Slab›.place <;> simp)
@[simp] theorem State.setPlace_wau (s : State) (n : Nat) (t : Option Place) : (s.setPlace n t).wau = s.wau := by
  unfold State.setPlace; split
  · rfl
  · cases t <;> simp <;> (cases ‹Slab›.place <;> simp)
@[simp] theorem State.setPlace_jcu (s : State) (n : Nat) (t : Option Place) : (s.setPlace n t).jcu = s.jcu := by
  unfold State.setPlace; split
  · rfl
  · cases t <;> simp <;> (cases ‹Slab›.place <;> simp)
@[simp] theorem State.setPlace_olc (s : State) (n : Nat) (t : Option Place) : (s.setPlace n t).olc = s.olc := by
  unfold State.setPlace; split
  · rfl
  · cases t <;> simp <;> (cases ‹Slab›.place <;> simp)
@[simp] theorem State.setPlace_rsv (s : State) (n : Nat) (t : Option Place) : (s.setPlace n t).rsv = s.rsv := by
  unfold State.setPlace; split
  · rfl
  · cases t <;> simp <;> (cases ‹Slab›.place <;> simp)
@[simp] theorem State.setPlace_pending (s : State) (n : Nat) (t : Option Place) : (s.setPlace n t).pending = s.pending := by
  unfold State.setPlace; split
  · rfl
  · cases t <;> simp <;> (cases ‹Slab›.place <;> simp)

/-! ### unmark -/

@[simp] theorem State.unmark_pln (s : State) (n v : Nat) : (s.unmark n v).pln = s.pln := by
  unfold State.unmark; (repeat' split) <;> simp
@[simp] theorem State.unmark_sdp (s : State) (n v : Nat) : (s.unmark n v).sdp = s.sdp := by
  unfold State.unmark; (repeat' split) <;> simp
@[simp] theorem State.unmark_bld (s : State) (n v : Nat) : (s.unmark n v).bld = s.bld := by
  unfold State.unmark; (repeat' split) <;> simp
@[simp] theorem State.unmark_pmn (s : State) (n v : Nat) : (s.unmark n v).pmn = s.pmn := by
  unfold State.unmark; (repeat' split) <;> simp
@[simp] theorem State.unmark_wau (s : State) (n v : Nat) : (s.unmark n v).wau = s.wau := by
  unfold State.unmark; (repeat' split) <;> simp
@[simp] theorem State.unmark_jcu (s : State) (n v : Nat) : (s.unmark n v).jcu = s.jcu := by
  unfold State.unmark; (repeat' split) <;> simp
@[simp] theorem State.unmark_olc (s : State) (n v : Nat) : (s.unmark n v).olc = s.olc := by
  unfold State.unmark; (repeat' split) <;> simp
@[simp] theorem State.unmark_rsv (s : State) (n v : Nat) : (s.unmark n v).rsv = s.rsv := by
  unfold State.unmark; (repeat' split) <;> simp
@[simp] theorem State.unmark_pending (s : State) (n v : Nat) : (s.unmark n v).pending = s.pending := by
  unfold State.unmark; (repeat' split) <;> simp

/-! ### leaveAudit -/

@[simp] theorem State.leaveAudit_pln (s : State) (n : Nat) : (s.leaveAudit n).pln = s.pln := by
  simp [State.leaveAudit]
@[simp] theorem State.leaveAudit_sdp (s : State) (n : Nat) : (s.leaveAudit n).sdp = s.sdp := by
  simp [State.leaveAudit]
@[simp] theorem State.leaveAudit_bld (s : State) (n : Nat) : (s.leaveAudit n).bld = s.bld := by
  simp [State.leaveAudit]
@[simp] theorem State.leaveAudit_pmn (s : State) (n : Nat) : (s.leaveAudit n).pmn = s.pmn := by
  simp [State.leaveAudit]
@[simp] theorem State.leaveAudit_wau (s : State) (n : Nat) : (s.leaveAudit n).wau = s.wau := by
  simp [State.leaveAudit]
@[simp] theorem State.leaveAudit_jcu (s : State) (n : Nat) : (s.leaveAudit n).jcu = s.jcu := by
  simp [State.leaveAudit]
@[simp] theorem State.leaveAudit_olc (s : State) (n : Nat) : (s.leaveAudit n).olc = s.olc := by
  simp [State.leaveAudit]
@[simp] theorem State.leaveAudit_rsv (s : State) (n : Nat) : (s.leaveAudit n).rsv = s.rsv := by
  simp [State.leaveAudit]
@[simp] theorem State.leaveAudit_pending (s : State) (n : Nat) : (s.leaveAudit n).pending = s.pending := by
  simp [State.leaveAudit]

/-! ### sighted -/

@[simp] theorem State.sighted_pln (s : State) (n : Nat) : (s.sighted n).pln = s.pln := by
  simp [State.sighted]
@[simp] theorem State.sighted_sdp (s : State) (n : Nat) : (s.sighted n).sdp = s.sdp := by
  simp [State.sighted]
@[simp] theorem State.sighted_bld (s : State) (n : Nat) : (s.sighted n).bld = s.bld := by
  simp [State.sighted]
@[simp] theorem State.sighted_pmn (s : State) (n : Nat) : (s.sighted n).pmn = s.pmn := by
  simp [State.sighted]
@[simp] theorem State.sighted_wau (s : State) (n : Nat) : (s.sighted n).wau = s.wau := by
  simp [State.sighted]
@[simp] theorem State.sighted_jcu (s : State) (n : Nat) : (s.sighted n).jcu = s.jcu := by
  simp [State.sighted]
@[simp] theorem State.sighted_olc (s : State) (n : Nat) : (s.sighted n).olc = s.olc := by
  simp [State.sighted]
@[simp] theorem State.sighted_rsv (s : State) (n : Nat) : (s.sighted n).rsv = s.rsv := by
  simp [State.sighted]
@[simp] theorem State.sighted_pending (s : State) (n : Nat) : (s.sighted n).pending = s.pending := by
  simp [State.sighted]

/-! ### putOnSaw -/

@[simp] theorem State.putOnSaw_pln (s : State) (n : Nat) : (s.putOnSaw n).pln = s.pln := by
  unfold State.putOnSaw; (repeat' split) <;> simp
@[simp] theorem State.putOnSaw_sdp (s : State) (n : Nat) : (s.putOnSaw n).sdp = s.sdp := by
  unfold State.putOnSaw; (repeat' split) <;> simp
@[simp] theorem State.putOnSaw_bld (s : State) (n : Nat) : (s.putOnSaw n).bld = s.bld := by
  unfold State.putOnSaw; (repeat' split) <;> simp
@[simp] theorem State.putOnSaw_pmn (s : State) (n : Nat) : (s.putOnSaw n).pmn = s.pmn := by
  unfold State.putOnSaw; (repeat' split) <;> simp
@[simp] theorem State.putOnSaw_wau (s : State) (n : Nat) : (s.putOnSaw n).wau = s.wau := by
  unfold State.putOnSaw; (repeat' split) <;> simp
@[simp] theorem State.putOnSaw_jcu (s : State) (n : Nat) : (s.putOnSaw n).jcu = s.jcu := by
  unfold State.putOnSaw; (repeat' split) <;> simp
@[simp] theorem State.putOnSaw_olc (s : State) (n : Nat) : (s.putOnSaw n).olc = s.olc := by
  unfold State.putOnSaw; (repeat' split) <;> simp
@[simp] theorem State.putOnSaw_rsv (s : State) (n : Nat) : (s.putOnSaw n).rsv = s.rsv := by
  unfold State.putOnSaw; (repeat' split) <;> simp
@[simp] theorem State.putOnSaw_pending (s : State) (n : Nat) : (s.putOnSaw n).pending = s.pending := by
  unfold State.putOnSaw; (repeat' split) <;> simp

/-! ### createRemnant -/

@[simp] theorem State.createRemnant_pln (s : State) (n : Nat) (p : RemnantPart) : (s.createRemnant n p).2.pln = s.pln := by
  unfold State.createRemnant; split
  · rfl
  · dsimp only; split <;> rfl
@[simp] theorem State.createRemnant_sdp (s : State) (n : Nat) (p : RemnantPart) : (s.createRemnant n p).2.sdp = s.sdp := by
  unfold State.createRemnant; split
  · rfl
  · dsimp only; split <;> rfl
@[simp] theorem State.createRemnant_bld (s : State) (n : Nat) (p : RemnantPart) : (s.createRemnant n p).2.bld = s.bld := by
  unfold State.createRemnant; split
  · rfl
  · dsimp only; split <;> rfl
@[simp] theorem State.createRemnant_pmn (s : State) (n : Nat) (p : RemnantPart) : (s.createRemnant n p).2.pmn = s.pmn := by
  unfold State.createRemnant; split
  · rfl
  · dsimp only; split <;> rfl
@[simp] theorem State.createRemnant_wau (s : State) (n : Nat) (p : RemnantPart) : (s.createRemnant n p).2.wau = s.wau := by
  unfold State.createRemnant; split
  · rfl
  · dsimp only; split <;> rfl
@[simp] theorem State.createRemnant_jcu (s : State) (n : Nat) (p : RemnantPart) : (s.createRemnant n p).2.jcu = s.jcu := by
  unfold State.createRemnant; split
  · rfl
  · dsimp only; split <;> rfl
@[simp] theorem State.createRemnant_olc (s : State) (n : Nat) (p : RemnantPart) : (s.createRemnant n p).2.olc = s.olc := by
  unfold State.createRemnant; split
  · rfl
  · dsimp only; split <;> rfl
@[simp] theorem State.createRemnant_rsv (s : State) (n : Nat) (p : RemnantPart) : (s.createRemnant n p).2.rsv = s.rsv := by
  unfold State.createRemnant; split
  · rfl
  · dsimp only; split <;> rfl
@[simp] theorem State.createRemnant_pending (s : State) (n : Nat) (p : RemnantPart) : (s.createRemnant n p).2.pending = s.pending := by
  unfold State.createRemnant; split
  · rfl
  · dsimp only; split <;> rfl

/-! ### place -/

@[simp] theorem State.place_pln (s : State) (n : Nat) (t : Option Place) : (s.place n t).pln = s.pln := by
  simp [State.place]
@[simp] theorem State.place_sdp (s : State) (n : Nat) (t : Option Place) : (s.place n t).sdp = s.sdp := by
  simp [State.place]
@[simp] theorem State.place_bld (s : State) (n : Nat) (t : Option Place) : (s.place n t).bld = s.bld := by
  simp [State.place]
@[simp] theorem State.place_pmn (s : State) (n : Nat) (t : Option Place) : (s.place n t).pmn = s.pmn := by
  simp [State.place]
@[simp] theorem State.place_wau (s : State) (n : Nat) (t : Option Place) : (s.place n t).wau = s.wau := by
  simp [State.place]
@[simp] theorem State.place_jcu (s : State) (n : Nat) (t : Option Place) : (s.place n t).jcu = s.jcu := by
  simp [State.place]
@[simp] theorem State.place_olc (s : State) (n : Nat) (t : Option Place) : (s.place n t).olc = s.olc := by
  simp [State.place]
@[simp] theorem State.place_rsv (s : State) (n : Nat) (t : Option Place) : (s.place n t).rsv = s.rsv := by
  simp [State.place]
@[simp] theorem State.place_pending (s : State) (n : Nat) (t : Option Place) : (s.place n t).pending = s.pending := by
  simp [State.place]

/-! ### closeAudit -/

@[simp] theorem State.closeAudit_pln (s : State) : (s.closeAudit).pln = s.pln := by
  rfl
@[simp] theorem State.closeAudit_sdp (s : State) : (s.closeAudit).sdp = s.sdp := by
  rfl
@[simp] theorem State.closeAudit_bld (s : State) : (s.closeAudit).bld = s.bld := by
  rfl
@[simp] theorem State.closeAudit_pmn (s : State) : (s.closeAudit).pmn = s.pmn := by
  rfl
@[simp] theorem State.closeAudit_wau (s : State) : (s.closeAudit).wau = s.wau := by
  rfl
@[simp] theorem State.closeAudit_jcu (s : State) : (s.closeAudit).jcu = s.jcu := by
  rfl
@[simp] theorem State.closeAudit_olc (s : State) : (s.closeAudit).olc = s.olc := by
  rfl
@[simp] theorem State.closeAudit_rsv (s : State) : (s.closeAudit).rsv = s.rsv := by
  rfl
@[simp] theorem State.closeAudit_pending (s : State) : (s.closeAudit).pending = s.pending := by
  rfl

/-! ### openAudit -/

@[simp] theorem State.openAudit_pln (s : State) (p : List Span) : (s.openAudit p).pln = s.pln := by
  rfl
@[simp] theorem State.openAudit_sdp (s : State) (p : List Span) : (s.openAudit p).sdp = s.sdp := by
  rfl
@[simp] theorem State.openAudit_bld (s : State) (p : List Span) : (s.openAudit p).bld = s.bld := by
  rfl
@[simp] theorem State.openAudit_pmn (s : State) (p : List Span) : (s.openAudit p).pmn = s.pmn := by
  rfl
@[simp] theorem State.openAudit_wau (s : State) (p : List Span) : (s.openAudit p).wau = s.wau := by
  rfl
@[simp] theorem State.openAudit_jcu (s : State) (p : List Span) : (s.openAudit p).jcu = s.jcu := by
  rfl
@[simp] theorem State.openAudit_olc (s : State) (p : List Span) : (s.openAudit p).olc = s.olc := by
  rfl
@[simp] theorem State.openAudit_rsv (s : State) (p : List Span) : (s.openAudit p).rsv = s.rsv := by
  rfl
@[simp] theorem State.openAudit_pending (s : State) (p : List Span) : (s.openAudit p).pending = s.pending := by
  rfl

/-! ### declareMissing -/

@[simp] theorem State.declareMissing_pln (s : State) : (s.declareMissing).pln = s.pln := by
  rfl
@[simp] theorem State.declareMissing_sdp (s : State) : (s.declareMissing).sdp = s.sdp := by
  rfl
@[simp] theorem State.declareMissing_bld (s : State) : (s.declareMissing).bld = s.bld := by
  rfl
@[simp] theorem State.declareMissing_pmn (s : State) : (s.declareMissing).pmn = s.pmn := by
  rfl
@[simp] theorem State.declareMissing_wau (s : State) : (s.declareMissing).wau = s.wau := by
  rfl
@[simp] theorem State.declareMissing_jcu (s : State) : (s.declareMissing).jcu = s.jcu := by
  rfl
@[simp] theorem State.declareMissing_olc (s : State) : (s.declareMissing).olc = s.olc := by
  rfl
@[simp] theorem State.declareMissing_rsv (s : State) : (s.declareMissing).rsv = s.rsv := by
  rfl
@[simp] theorem State.declareMissing_pending (s : State) : (s.declareMissing).pending = s.pending := by
  rfl

/-! ### updatePlan -/

@[simp] theorem State.updatePlan_stk (s : State) (n : Nat) (f : Plan → Plan) : (s.updatePlan n f).stk = s.stk := by
  rfl
@[simp] theorem State.updatePlan_sdp (s : State) (n : Nat) (f : Plan → Plan) : (s.updatePlan n f).sdp = s.sdp := by
  rfl
@[simp] theorem State.updatePlan_bld (s : State) (n : Nat) (f : Plan → Plan) : (s.updatePlan n f).bld = s.bld := by
  rfl
@[simp] theorem State.updatePlan_pmn (s : State) (n : Nat) (f : Plan → Plan) : (s.updatePlan n f).pmn = s.pmn := by
  rfl
@[simp] theorem State.updatePlan_wau (s : State) (n : Nat) (f : Plan → Plan) : (s.updatePlan n f).wau = s.wau := by
  rfl
@[simp] theorem State.updatePlan_jcu (s : State) (n : Nat) (f : Plan → Plan) : (s.updatePlan n f).jcu = s.jcu := by
  rfl
@[simp] theorem State.updatePlan_olc (s : State) (n : Nat) (f : Plan → Plan) : (s.updatePlan n f).olc = s.olc := by
  rfl
@[simp] theorem State.updatePlan_rsv (s : State) (n : Nat) (f : Plan → Plan) : (s.updatePlan n f).rsv = s.rsv := by
  rfl
@[simp] theorem State.updatePlan_pending (s : State) (n : Nat) (f : Plan → Plan) : (s.updatePlan n f).pending = s.pending := by
  rfl

/-! ### updateJob -/

@[simp] theorem State.updateJob_stk (s : State) (n : Nat) (f : Job → Job) : (s.updateJob n f).stk = s.stk := by
  rfl
@[simp] theorem State.updateJob_pln (s : State) (n : Nat) (f : Job → Job) : (s.updateJob n f).pln = s.pln := by
  rfl
@[simp] theorem State.updateJob_sdp (s : State) (n : Nat) (f : Job → Job) : (s.updateJob n f).sdp = s.sdp := by
  rfl
@[simp] theorem State.updateJob_bld (s : State) (n : Nat) (f : Job → Job) : (s.updateJob n f).bld = s.bld := by
  rfl
@[simp] theorem State.updateJob_pmn (s : State) (n : Nat) (f : Job → Job) : (s.updateJob n f).pmn = s.pmn := by
  rfl
@[simp] theorem State.updateJob_wau (s : State) (n : Nat) (f : Job → Job) : (s.updateJob n f).wau = s.wau := by
  rfl
@[simp] theorem State.updateJob_olc (s : State) (n : Nat) (f : Job → Job) : (s.updateJob n f).olc = s.olc := by
  rfl
@[simp] theorem State.updateJob_rsv (s : State) (n : Nat) (f : Job → Job) : (s.updateJob n f).rsv = s.rsv := by
  rfl
@[simp] theorem State.updateJob_pending (s : State) (n : Nat) (f : Job → Job) : (s.updateJob n f).pending = s.pending := by
  rfl

/-! ### updateBlade -/

@[simp] theorem State.updateBlade_stk (s : State) (n : Nat) (f : Blade → Blade) : (s.updateBlade n f).stk = s.stk := by
  rfl
@[simp] theorem State.updateBlade_pln (s : State) (n : Nat) (f : Blade → Blade) : (s.updateBlade n f).pln = s.pln := by
  rfl
@[simp] theorem State.updateBlade_sdp (s : State) (n : Nat) (f : Blade → Blade) : (s.updateBlade n f).sdp = s.sdp := by
  rfl
@[simp] theorem State.updateBlade_pmn (s : State) (n : Nat) (f : Blade → Blade) : (s.updateBlade n f).pmn = s.pmn := by
  rfl
@[simp] theorem State.updateBlade_wau (s : State) (n : Nat) (f : Blade → Blade) : (s.updateBlade n f).wau = s.wau := by
  rfl
@[simp] theorem State.updateBlade_jcu (s : State) (n : Nat) (f : Blade → Blade) : (s.updateBlade n f).jcu = s.jcu := by
  rfl
@[simp] theorem State.updateBlade_olc (s : State) (n : Nat) (f : Blade → Blade) : (s.updateBlade n f).olc = s.olc := by
  rfl
@[simp] theorem State.updateBlade_rsv (s : State) (n : Nat) (f : Blade → Blade) : (s.updateBlade n f).rsv = s.rsv := by
  rfl
@[simp] theorem State.updateBlade_pending (s : State) (n : Nat) (f : Blade → Blade) : (s.updateBlade n f).pending = s.pending := by
  rfl

/-! ### setSawState -/

@[simp] theorem State.setSawState_stk (s : State) (w : Saw) (x : SawState) : (s.setSawState w x).stk = s.stk := by
  rfl
@[simp] theorem State.setSawState_pln (s : State) (w : Saw) (x : SawState) : (s.setSawState w x).pln = s.pln := by
  rfl
@[simp] theorem State.setSawState_bld (s : State) (w : Saw) (x : SawState) : (s.setSawState w x).bld = s.bld := by
  rfl
@[simp] theorem State.setSawState_pmn (s : State) (w : Saw) (x : SawState) : (s.setSawState w x).pmn = s.pmn := by
  rfl
@[simp] theorem State.setSawState_wau (s : State) (w : Saw) (x : SawState) : (s.setSawState w x).wau = s.wau := by
  rfl
@[simp] theorem State.setSawState_jcu (s : State) (w : Saw) (x : SawState) : (s.setSawState w x).jcu = s.jcu := by
  rfl
@[simp] theorem State.setSawState_olc (s : State) (w : Saw) (x : SawState) : (s.setSawState w x).olc = s.olc := by
  rfl
@[simp] theorem State.setSawState_rsv (s : State) (w : Saw) (x : SawState) : (s.setSawState w x).rsv = s.rsv := by
  rfl
@[simp] theorem State.setSawState_pending (s : State) (w : Saw) (x : SawState) : (s.setSawState w x).pending = s.pending := by
  rfl

/-! ### sawFrame -/

@[simp] theorem State.sawFrame_stk (s : State) (w : Saw) : (s.sawFrame w).stk = s.stk := by
  rfl
@[simp] theorem State.sawFrame_pln (s : State) (w : Saw) : (s.sawFrame w).pln = s.pln := by
  rfl
@[simp] theorem State.sawFrame_bld (s : State) (w : Saw) : (s.sawFrame w).bld = s.bld := by
  rfl
@[simp] theorem State.sawFrame_pmn (s : State) (w : Saw) : (s.sawFrame w).pmn = s.pmn := by
  rfl
@[simp] theorem State.sawFrame_wau (s : State) (w : Saw) : (s.sawFrame w).wau = s.wau := by
  rfl
@[simp] theorem State.sawFrame_jcu (s : State) (w : Saw) : (s.sawFrame w).jcu = s.jcu := by
  rfl
@[simp] theorem State.sawFrame_olc (s : State) (w : Saw) : (s.sawFrame w).olc = s.olc := by
  rfl
@[simp] theorem State.sawFrame_rsv (s : State) (w : Saw) : (s.sawFrame w).rsv = s.rsv := by
  rfl
@[simp] theorem State.sawFrame_pending (s : State) (w : Saw) : (s.sawFrame w).pending = s.pending := by
  rfl

/-! ### charge -/

@[simp] theorem State.charge_stk (s : State) (n : Nat) (f : Job → Job) : (s.charge n f).stk = s.stk := by
  unfold State.charge; (repeat' split) <;> simp
@[simp] theorem State.charge_pln (s : State) (n : Nat) (f : Job → Job) : (s.charge n f).pln = s.pln := by
  unfold State.charge; (repeat' split) <;> simp
@[simp] theorem State.charge_sdp (s : State) (n : Nat) (f : Job → Job) : (s.charge n f).sdp = s.sdp := by
  unfold State.charge; (repeat' split) <;> simp
@[simp] theorem State.charge_bld (s : State) (n : Nat) (f : Job → Job) : (s.charge n f).bld = s.bld := by
  unfold State.charge; (repeat' split) <;> simp
@[simp] theorem State.charge_pmn (s : State) (n : Nat) (f : Job → Job) : (s.charge n f).pmn = s.pmn := by
  unfold State.charge; (repeat' split) <;> simp
@[simp] theorem State.charge_wau (s : State) (n : Nat) (f : Job → Job) : (s.charge n f).wau = s.wau := by
  unfold State.charge; (repeat' split) <;> simp
@[simp] theorem State.charge_rsv (s : State) (n : Nat) (f : Job → Job) : (s.charge n f).rsv = s.rsv := by
  unfold State.charge; (repeat' split) <;> simp
@[simp] theorem State.charge_pending (s : State) (n : Nat) (f : Job → Job) : (s.charge n f).pending = s.pending := by
  unfold State.charge; (repeat' split) <;> simp

/-! ### testHealth -/

@[simp] theorem State.testHealth_stk (s : State) (n : Nat) : (s.testHealth n).stk = s.stk := by
  unfold State.testHealth; split <;> simp
@[simp] theorem State.testHealth_pln (s : State) (n : Nat) : (s.testHealth n).pln = s.pln := by
  unfold State.testHealth; split <;> simp
@[simp] theorem State.testHealth_sdp (s : State) (n : Nat) : (s.testHealth n).sdp = s.sdp := by
  unfold State.testHealth; split <;> simp
@[simp] theorem State.testHealth_pmn (s : State) (n : Nat) : (s.testHealth n).pmn = s.pmn := by
  unfold State.testHealth; split <;> simp
@[simp] theorem State.testHealth_wau (s : State) (n : Nat) : (s.testHealth n).wau = s.wau := by
  unfold State.testHealth; split <;> simp
@[simp] theorem State.testHealth_jcu (s : State) (n : Nat) : (s.testHealth n).jcu = s.jcu := by
  unfold State.testHealth; split <;> simp
@[simp] theorem State.testHealth_rsv (s : State) (n : Nat) : (s.testHealth n).rsv = s.rsv := by
  unfold State.testHealth; split <;> simp
@[simp] theorem State.testHealth_pending (s : State) (n : Nat) : (s.testHealth n).pending = s.pending := by
  unfold State.testHealth; split <;> simp

/-! ### accrueWear -/

@[simp] theorem State.accrueWear_stk (s : State) (n p h : Nat) : (s.accrueWear n p h).2.stk = s.stk := by
  unfold State.accrueWear; (repeat' split) <;> simp
@[simp] theorem State.accrueWear_pln (s : State) (n p h : Nat) : (s.accrueWear n p h).2.pln = s.pln := by
  unfold State.accrueWear; (repeat' split) <;> simp
@[simp] theorem State.accrueWear_sdp (s : State) (n p h : Nat) : (s.accrueWear n p h).2.sdp = s.sdp := by
  unfold State.accrueWear; (repeat' split) <;> simp
@[simp] theorem State.accrueWear_pmn (s : State) (n p h : Nat) : (s.accrueWear n p h).2.pmn = s.pmn := by
  unfold State.accrueWear; (repeat' split) <;> simp
@[simp] theorem State.accrueWear_wau (s : State) (n p h : Nat) : (s.accrueWear n p h).2.wau = s.wau := by
  unfold State.accrueWear; (repeat' split) <;> simp
@[simp] theorem State.accrueWear_jcu (s : State) (n p h : Nat) : (s.accrueWear n p h).2.jcu = s.jcu := by
  unfold State.accrueWear; (repeat' split) <;> simp
@[simp] theorem State.accrueWear_rsv (s : State) (n p h : Nat) : (s.accrueWear n p h).2.rsv = s.rsv := by
  unfold State.accrueWear; (repeat' split) <;> simp
@[simp] theorem State.accrueWear_pending (s : State) (n p h : Nat) : (s.accrueWear n p h).2.pending = s.pending := by
  unfold State.accrueWear; (repeat' split) <;> simp

/-! ### countOverload -/

@[simp] theorem State.countOverload_stk (s : State) (n : Nat) : (s.countOverload n).stk = s.stk := by
  simp [State.countOverload]
@[simp] theorem State.countOverload_pln (s : State) (n : Nat) : (s.countOverload n).pln = s.pln := by
  simp [State.countOverload]
@[simp] theorem State.countOverload_sdp (s : State) (n : Nat) : (s.countOverload n).sdp = s.sdp := by
  simp [State.countOverload]
@[simp] theorem State.countOverload_pmn (s : State) (n : Nat) : (s.countOverload n).pmn = s.pmn := by
  simp [State.countOverload]
@[simp] theorem State.countOverload_wau (s : State) (n : Nat) : (s.countOverload n).wau = s.wau := by
  simp [State.countOverload]
@[simp] theorem State.countOverload_jcu (s : State) (n : Nat) : (s.countOverload n).jcu = s.jcu := by
  simp [State.countOverload]
@[simp] theorem State.countOverload_rsv (s : State) (n : Nat) : (s.countOverload n).rsv = s.rsv := by
  simp [State.countOverload]
@[simp] theorem State.countOverload_pending (s : State) (n : Nat) : (s.countOverload n).pending = s.pending := by
  simp [State.countOverload]

/-! ### spareBlade -/

@[simp] theorem State.spareBlade_stk (s : State) (n : Nat) : (s.spareBlade n).stk = s.stk := by
  rfl
@[simp] theorem State.spareBlade_pln (s : State) (n : Nat) : (s.spareBlade n).pln = s.pln := by
  rfl
@[simp] theorem State.spareBlade_sdp (s : State) (n : Nat) : (s.spareBlade n).sdp = s.sdp := by
  rfl
@[simp] theorem State.spareBlade_pmn (s : State) (n : Nat) : (s.spareBlade n).pmn = s.pmn := by
  rfl
@[simp] theorem State.spareBlade_wau (s : State) (n : Nat) : (s.spareBlade n).wau = s.wau := by
  rfl
@[simp] theorem State.spareBlade_jcu (s : State) (n : Nat) : (s.spareBlade n).jcu = s.jcu := by
  rfl
@[simp] theorem State.spareBlade_olc (s : State) (n : Nat) : (s.spareBlade n).olc = s.olc := by
  rfl
@[simp] theorem State.spareBlade_rsv (s : State) (n : Nat) : (s.spareBlade n).rsv = s.rsv := by
  rfl
@[simp] theorem State.spareBlade_pending (s : State) (n : Nat) : (s.spareBlade n).pending = s.pending := by
  rfl

/-! ### updatePass -/

@[simp] theorem State.updatePass_stk (s : State) (n i : Nat) (f : Pass → Pass) : (s.updatePass n i f).stk = s.stk := by
  rfl
@[simp] theorem State.updatePass_sdp (s : State) (n i : Nat) (f : Pass → Pass) : (s.updatePass n i f).sdp = s.sdp := by
  rfl
@[simp] theorem State.updatePass_bld (s : State) (n i : Nat) (f : Pass → Pass) : (s.updatePass n i f).bld = s.bld := by
  rfl
@[simp] theorem State.updatePass_pmn (s : State) (n i : Nat) (f : Pass → Pass) : (s.updatePass n i f).pmn = s.pmn := by
  rfl
@[simp] theorem State.updatePass_wau (s : State) (n i : Nat) (f : Pass → Pass) : (s.updatePass n i f).wau = s.wau := by
  rfl
@[simp] theorem State.updatePass_jcu (s : State) (n i : Nat) (f : Pass → Pass) : (s.updatePass n i f).jcu = s.jcu := by
  rfl
@[simp] theorem State.updatePass_olc (s : State) (n i : Nat) (f : Pass → Pass) : (s.updatePass n i f).olc = s.olc := by
  rfl
@[simp] theorem State.updatePass_rsv (s : State) (n i : Nat) (f : Pass → Pass) : (s.updatePass n i f).rsv = s.rsv := by
  rfl
@[simp] theorem State.updatePass_pending (s : State) (n i : Nat) (f : Pass → Pass) : (s.updatePass n i f).pending = s.pending := by
  rfl

/-! ### reportReached -/

@[simp] theorem State.reportReached_stk (s : State) (w : Saw) (p : Nat) : (s.reportReached w p).stk = s.stk := by
  unfold State.reportReached; (repeat' split) <;> simp
@[simp] theorem State.reportReached_sdp (s : State) (w : Saw) (p : Nat) : (s.reportReached w p).sdp = s.sdp := by
  unfold State.reportReached; (repeat' split) <;> simp
@[simp] theorem State.reportReached_bld (s : State) (w : Saw) (p : Nat) : (s.reportReached w p).bld = s.bld := by
  unfold State.reportReached; (repeat' split) <;> simp
@[simp] theorem State.reportReached_pmn (s : State) (w : Saw) (p : Nat) : (s.reportReached w p).pmn = s.pmn := by
  unfold State.reportReached; (repeat' split) <;> simp
@[simp] theorem State.reportReached_wau (s : State) (w : Saw) (p : Nat) : (s.reportReached w p).wau = s.wau := by
  unfold State.reportReached; (repeat' split) <;> simp
@[simp] theorem State.reportReached_jcu (s : State) (w : Saw) (p : Nat) : (s.reportReached w p).jcu = s.jcu := by
  unfold State.reportReached; (repeat' split) <;> simp
@[simp] theorem State.reportReached_olc (s : State) (w : Saw) (p : Nat) : (s.reportReached w p).olc = s.olc := by
  unfold State.reportReached; (repeat' split) <;> simp
@[simp] theorem State.reportReached_rsv (s : State) (w : Saw) (p : Nat) : (s.reportReached w p).rsv = s.rsv := by
  unfold State.reportReached; (repeat' split) <;> simp
@[simp] theorem State.reportReached_pending (s : State) (w : Saw) (p : Nat) : (s.reportReached w p).pending = s.pending := by
  unfold State.reportReached; (repeat' split) <;> simp

/-! ### dropWindow -/

@[simp] theorem State.dropWindow_stk (s : State) (w : Saw) : (s.dropWindow w).stk = s.stk := by
  unfold State.dropWindow; (repeat' split) <;> simp
@[simp] theorem State.dropWindow_bld (s : State) (w : Saw) : (s.dropWindow w).bld = s.bld := by
  unfold State.dropWindow; (repeat' split) <;> simp
@[simp] theorem State.dropWindow_pmn (s : State) (w : Saw) : (s.dropWindow w).pmn = s.pmn := by
  unfold State.dropWindow; (repeat' split) <;> simp
@[simp] theorem State.dropWindow_wau (s : State) (w : Saw) : (s.dropWindow w).wau = s.wau := by
  unfold State.dropWindow; (repeat' split) <;> simp
@[simp] theorem State.dropWindow_jcu (s : State) (w : Saw) : (s.dropWindow w).jcu = s.jcu := by
  unfold State.dropWindow; (repeat' split) <;> simp
@[simp] theorem State.dropWindow_olc (s : State) (w : Saw) : (s.dropWindow w).olc = s.olc := by
  unfold State.dropWindow; (repeat' split) <;> simp
@[simp] theorem State.dropWindow_rsv (s : State) (w : Saw) : (s.dropWindow w).rsv = s.rsv := by
  unfold State.dropWindow; (repeat' split) <;> simp
@[simp] theorem State.dropWindow_pending (s : State) (w : Saw) : (s.dropWindow w).pending = s.pending := by
  unfold State.dropWindow; (repeat' split) <;> simp

/-! ### stagePass -/

@[simp] theorem State.stagePass_stk (s : State) (w : Saw) : (s.stagePass w).stk = s.stk := by
  unfold State.stagePass; (repeat' split) <;> simp
@[simp] theorem State.stagePass_bld (s : State) (w : Saw) : (s.stagePass w).bld = s.bld := by
  unfold State.stagePass; (repeat' split) <;> simp
@[simp] theorem State.stagePass_pmn (s : State) (w : Saw) : (s.stagePass w).pmn = s.pmn := by
  unfold State.stagePass; (repeat' split) <;> simp
@[simp] theorem State.stagePass_wau (s : State) (w : Saw) : (s.stagePass w).wau = s.wau := by
  unfold State.stagePass; (repeat' split) <;> simp
@[simp] theorem State.stagePass_jcu (s : State) (w : Saw) : (s.stagePass w).jcu = s.jcu := by
  unfold State.stagePass; (repeat' split) <;> simp
@[simp] theorem State.stagePass_olc (s : State) (w : Saw) : (s.stagePass w).olc = s.olc := by
  unfold State.stagePass; (repeat' split) <;> simp
@[simp] theorem State.stagePass_rsv (s : State) (w : Saw) : (s.stagePass w).rsv = s.rsv := by
  unfold State.stagePass; (repeat' split) <;> simp
@[simp] theorem State.stagePass_pending (s : State) (w : Saw) : (s.stagePass w).pending = s.pending := by
  unfold State.stagePass; (repeat' split) <;> simp

/-! ### refill -/

@[simp] theorem State.refill_stk (s : State) (w : Saw) : (s.refill w).stk = s.stk := by
  unfold State.refill; (repeat' split) <;> simp
@[simp] theorem State.refill_bld (s : State) (w : Saw) : (s.refill w).bld = s.bld := by
  unfold State.refill; (repeat' split) <;> simp
@[simp] theorem State.refill_pmn (s : State) (w : Saw) : (s.refill w).pmn = s.pmn := by
  unfold State.refill; (repeat' split) <;> simp
@[simp] theorem State.refill_wau (s : State) (w : Saw) : (s.refill w).wau = s.wau := by
  unfold State.refill; (repeat' split) <;> simp
@[simp] theorem State.refill_jcu (s : State) (w : Saw) : (s.refill w).jcu = s.jcu := by
  unfold State.refill; (repeat' split) <;> simp
@[simp] theorem State.refill_olc (s : State) (w : Saw) : (s.refill w).olc = s.olc := by
  unfold State.refill; (repeat' split) <;> simp
@[simp] theorem State.refill_rsv (s : State) (w : Saw) : (s.refill w).rsv = s.rsv := by
  unfold State.refill; (repeat' split) <;> simp
@[simp] theorem State.refill_pending (s : State) (w : Saw) : (s.refill w).pending = s.pending := by
  unfold State.refill; (repeat' split) <;> simp

/-! ### openSegment -/

@[simp] theorem State.openSegment_stk (s : State) (w : Saw) : (s.openSegment w).stk = s.stk := by
  rfl
@[simp] theorem State.openSegment_pln (s : State) (w : Saw) : (s.openSegment w).pln = s.pln := by
  rfl
@[simp] theorem State.openSegment_bld (s : State) (w : Saw) : (s.openSegment w).bld = s.bld := by
  rfl
@[simp] theorem State.openSegment_pmn (s : State) (w : Saw) : (s.openSegment w).pmn = s.pmn := by
  rfl
@[simp] theorem State.openSegment_wau (s : State) (w : Saw) : (s.openSegment w).wau = s.wau := by
  rfl
@[simp] theorem State.openSegment_jcu (s : State) (w : Saw) : (s.openSegment w).jcu = s.jcu := by
  rfl
@[simp] theorem State.openSegment_olc (s : State) (w : Saw) : (s.openSegment w).olc = s.olc := by
  rfl
@[simp] theorem State.openSegment_rsv (s : State) (w : Saw) : (s.openSegment w).rsv = s.rsv := by
  rfl
@[simp] theorem State.openSegment_pending (s : State) (w : Saw) : (s.openSegment w).pending = s.pending := by
  rfl

/-! ### chargeHead -/

@[simp] theorem State.chargeHead_stk (s : State) (w : Saw) (f : Job → Job) : (s.chargeHead w f).stk = s.stk := by
  unfold State.chargeHead; (repeat' split) <;> simp
@[simp] theorem State.chargeHead_pln (s : State) (w : Saw) (f : Job → Job) : (s.chargeHead w f).pln = s.pln := by
  unfold State.chargeHead; (repeat' split) <;> simp
@[simp] theorem State.chargeHead_sdp (s : State) (w : Saw) (f : Job → Job) : (s.chargeHead w f).sdp = s.sdp := by
  unfold State.chargeHead; (repeat' split) <;> simp
@[simp] theorem State.chargeHead_bld (s : State) (w : Saw) (f : Job → Job) : (s.chargeHead w f).bld = s.bld := by
  unfold State.chargeHead; (repeat' split) <;> simp
@[simp] theorem State.chargeHead_pmn (s : State) (w : Saw) (f : Job → Job) : (s.chargeHead w f).pmn = s.pmn := by
  unfold State.chargeHead; (repeat' split) <;> simp
@[simp] theorem State.chargeHead_wau (s : State) (w : Saw) (f : Job → Job) : (s.chargeHead w f).wau = s.wau := by
  unfold State.chargeHead; (repeat' split) <;> simp
@[simp] theorem State.chargeHead_rsv (s : State) (w : Saw) (f : Job → Job) : (s.chargeHead w f).rsv = s.rsv := by
  unfold State.chargeHead; (repeat' split) <;> simp
@[simp] theorem State.chargeHead_pending (s : State) (w : Saw) (f : Job → Job) : (s.chargeHead w f).pending = s.pending := by
  unfold State.chargeHead; (repeat' split) <;> simp

/-! ### chargeWear -/

@[simp] theorem State.chargeWear_stk (s : State) (w : Saw) (p : Nat) : (s.chargeWear w p).stk = s.stk := by
  unfold State.chargeWear; (repeat' split) <;> simp
@[simp] theorem State.chargeWear_pln (s : State) (w : Saw) (p : Nat) : (s.chargeWear w p).pln = s.pln := by
  unfold State.chargeWear; (repeat' split) <;> simp
@[simp] theorem State.chargeWear_sdp (s : State) (w : Saw) (p : Nat) : (s.chargeWear w p).sdp = s.sdp := by
  unfold State.chargeWear; (repeat' split) <;> simp
@[simp] theorem State.chargeWear_pmn (s : State) (w : Saw) (p : Nat) : (s.chargeWear w p).pmn = s.pmn := by
  unfold State.chargeWear; (repeat' split) <;> simp
@[simp] theorem State.chargeWear_wau (s : State) (w : Saw) (p : Nat) : (s.chargeWear w p).wau = s.wau := by
  unfold State.chargeWear; (repeat' split) <;> simp
@[simp] theorem State.chargeWear_rsv (s : State) (w : Saw) (p : Nat) : (s.chargeWear w p).rsv = s.rsv := by
  unfold State.chargeWear; (repeat' split) <;> simp
@[simp] theorem State.chargeWear_pending (s : State) (w : Saw) (p : Nat) : (s.chargeWear w p).pending = s.pending := by
  unfold State.chargeWear; (repeat' split) <;> simp

/-! ### closeSegment -/

@[simp] theorem State.closeSegment_stk (s : State) (w : Saw) (p : Nat) : (s.closeSegment w p).stk = s.stk := by
  simp [State.closeSegment]
@[simp] theorem State.closeSegment_pln (s : State) (w : Saw) (p : Nat) : (s.closeSegment w p).pln = s.pln := by
  simp [State.closeSegment]
@[simp] theorem State.closeSegment_pmn (s : State) (w : Saw) (p : Nat) : (s.closeSegment w p).pmn = s.pmn := by
  simp [State.closeSegment]
@[simp] theorem State.closeSegment_wau (s : State) (w : Saw) (p : Nat) : (s.closeSegment w p).wau = s.wau := by
  simp [State.closeSegment]
@[simp] theorem State.closeSegment_rsv (s : State) (w : Saw) (p : Nat) : (s.closeSegment w p).rsv = s.rsv := by
  simp [State.closeSegment]
@[simp] theorem State.closeSegment_pending (s : State) (w : Saw) (p : Nat) : (s.closeSegment w p).pending = s.pending := by
  simp [State.closeSegment]

/-! ### writeContext -/

@[simp] theorem State.writeContext_stk (s : State) (w : Saw) (k : ContextKind) (c : Option Cause) (n : Nat) : (s.writeContext w k c n).stk = s.stk := by
  rfl
@[simp] theorem State.writeContext_pln (s : State) (w : Saw) (k : ContextKind) (c : Option Cause) (n : Nat) : (s.writeContext w k c n).pln = s.pln := by
  rfl
@[simp] theorem State.writeContext_bld (s : State) (w : Saw) (k : ContextKind) (c : Option Cause) (n : Nat) : (s.writeContext w k c n).bld = s.bld := by
  rfl
@[simp] theorem State.writeContext_pmn (s : State) (w : Saw) (k : ContextKind) (c : Option Cause) (n : Nat) : (s.writeContext w k c n).pmn = s.pmn := by
  rfl
@[simp] theorem State.writeContext_wau (s : State) (w : Saw) (k : ContextKind) (c : Option Cause) (n : Nat) : (s.writeContext w k c n).wau = s.wau := by
  rfl
@[simp] theorem State.writeContext_jcu (s : State) (w : Saw) (k : ContextKind) (c : Option Cause) (n : Nat) : (s.writeContext w k c n).jcu = s.jcu := by
  rfl
@[simp] theorem State.writeContext_olc (s : State) (w : Saw) (k : ContextKind) (c : Option Cause) (n : Nat) : (s.writeContext w k c n).olc = s.olc := by
  rfl
@[simp] theorem State.writeContext_rsv (s : State) (w : Saw) (k : ContextKind) (c : Option Cause) (n : Nat) : (s.writeContext w k c n).rsv = s.rsv := by
  rfl
@[simp] theorem State.writeContext_pending (s : State) (w : Saw) (k : ContextKind) (c : Option Cause) (n : Nat) : (s.writeContext w k c n).pending = s.pending := by
  rfl

/-! ### admitSaw -/

@[simp] theorem State.admit_stk (s : State) (w : Saw) : (s.admitSaw w).stk = s.stk := by
  rfl
@[simp] theorem State.admit_pln (s : State) (w : Saw) : (s.admitSaw w).pln = s.pln := by
  rfl
@[simp] theorem State.admit_sdp (s : State) (w : Saw) : (s.admitSaw w).sdp = s.sdp := by
  rfl
@[simp] theorem State.admit_bld (s : State) (w : Saw) : (s.admitSaw w).bld = s.bld := by
  rfl
@[simp] theorem State.admit_pmn (s : State) (w : Saw) : (s.admitSaw w).pmn = s.pmn := by
  rfl
@[simp] theorem State.admit_jcu (s : State) (w : Saw) : (s.admitSaw w).jcu = s.jcu := by
  rfl
@[simp] theorem State.admit_olc (s : State) (w : Saw) : (s.admitSaw w).olc = s.olc := by
  rfl
@[simp] theorem State.admit_rsv (s : State) (w : Saw) : (s.admitSaw w).rsv = s.rsv := by
  rfl
@[simp] theorem State.admit_pending (s : State) (w : Saw) : (s.admitSaw w).pending = s.pending := by
  rfl

/-! ### grantGo -/

@[simp] theorem State.grantGo_stk (s : State) (w : Saw) : (s.grantGo w).stk = s.stk := by
  unfold State.grantGo; (repeat' split) <;> simp
@[simp] theorem State.grantGo_bld (s : State) (w : Saw) : (s.grantGo w).bld = s.bld := by
  unfold State.grantGo; (repeat' split) <;> simp
@[simp] theorem State.grantGo_pmn (s : State) (w : Saw) : (s.grantGo w).pmn = s.pmn := by
  unfold State.grantGo; (repeat' split) <;> simp
@[simp] theorem State.grantGo_wau (s : State) (w : Saw) : (s.grantGo w).wau = s.wau := by
  unfold State.grantGo; (repeat' split) <;> simp
@[simp] theorem State.grantGo_jcu (s : State) (w : Saw) : (s.grantGo w).jcu = s.jcu := by
  unfold State.grantGo; (repeat' split) <;> simp
@[simp] theorem State.grantGo_olc (s : State) (w : Saw) : (s.grantGo w).olc = s.olc := by
  unfold State.grantGo; (repeat' split) <;> simp
@[simp] theorem State.grantGo_rsv (s : State) (w : Saw) : (s.grantGo w).rsv = s.rsv := by
  unfold State.grantGo; (repeat' split) <;> simp
@[simp] theorem State.grantGo_pending (s : State) (w : Saw) : (s.grantGo w).pending = s.pending := by
  unfold State.grantGo; (repeat' split) <;> simp

/-! ### tagActive -/

@[simp] theorem State.tagActive_stk (s : State) (w : Saw) (q : Pass) : (s.tagActive w q).2.stk = s.stk := by
  unfold State.tagActive; (repeat' split) <;> simp
@[simp] theorem State.tagActive_pln (s : State) (w : Saw) (q : Pass) : (s.tagActive w q).2.pln = s.pln := by
  unfold State.tagActive; (repeat' split) <;> simp
@[simp] theorem State.tagActive_bld (s : State) (w : Saw) (q : Pass) : (s.tagActive w q).2.bld = s.bld := by
  unfold State.tagActive; (repeat' split) <;> simp
@[simp] theorem State.tagActive_pmn (s : State) (w : Saw) (q : Pass) : (s.tagActive w q).2.pmn = s.pmn := by
  unfold State.tagActive; (repeat' split) <;> simp
@[simp] theorem State.tagActive_wau (s : State) (w : Saw) (q : Pass) : (s.tagActive w q).2.wau = s.wau := by
  unfold State.tagActive; (repeat' split) <;> simp
@[simp] theorem State.tagActive_jcu (s : State) (w : Saw) (q : Pass) : (s.tagActive w q).2.jcu = s.jcu := by
  unfold State.tagActive; (repeat' split) <;> simp
@[simp] theorem State.tagActive_olc (s : State) (w : Saw) (q : Pass) : (s.tagActive w q).2.olc = s.olc := by
  unfold State.tagActive; (repeat' split) <;> simp
@[simp] theorem State.tagActive_rsv (s : State) (w : Saw) (q : Pass) : (s.tagActive w q).2.rsv = s.rsv := by
  unfold State.tagActive; (repeat' split) <;> simp
@[simp] theorem State.tagActive_pending (s : State) (w : Saw) (q : Pass) : (s.tagActive w q).2.pending = s.pending := by
  unfold State.tagActive; (repeat' split) <;> simp

/-! ### sendResume -/

@[simp] theorem State.sendResume_stk (s : State) (w : Saw) (p : Plan) (q : Pass) : (s.sendResume w p q).stk = s.stk := by
  simp [State.sendResume]
@[simp] theorem State.sendResume_pln (s : State) (w : Saw) (p : Plan) (q : Pass) : (s.sendResume w p q).pln = s.pln := by
  simp [State.sendResume]
@[simp] theorem State.sendResume_bld (s : State) (w : Saw) (p : Plan) (q : Pass) : (s.sendResume w p q).bld = s.bld := by
  simp [State.sendResume]
@[simp] theorem State.sendResume_pmn (s : State) (w : Saw) (p : Plan) (q : Pass) : (s.sendResume w p q).pmn = s.pmn := by
  simp [State.sendResume]
@[simp] theorem State.sendResume_wau (s : State) (w : Saw) (p : Plan) (q : Pass) : (s.sendResume w p q).wau = s.wau := by
  simp [State.sendResume]
@[simp] theorem State.sendResume_jcu (s : State) (w : Saw) (p : Plan) (q : Pass) : (s.sendResume w p q).jcu = s.jcu := by
  simp [State.sendResume]
@[simp] theorem State.sendResume_olc (s : State) (w : Saw) (p : Plan) (q : Pass) : (s.sendResume w p q).olc = s.olc := by
  simp [State.sendResume]
@[simp] theorem State.sendResume_rsv (s : State) (w : Saw) (p : Plan) (q : Pass) : (s.sendResume w p q).rsv = s.rsv := by
  simp [State.sendResume]
@[simp] theorem State.sendResume_pending (s : State) (w : Saw) (p : Plan) (q : Pass) : (s.sendResume w p q).pending = s.pending := by
  simp [State.sendResume]

/-! ### resumeCut -/

@[simp] theorem State.resumeCut_stk (s : State) (w : Saw) : (s.resumeCut w).stk = s.stk := by
  unfold State.resumeCut; (repeat' split) <;> simp
@[simp] theorem State.resumeCut_bld (s : State) (w : Saw) : (s.resumeCut w).bld = s.bld := by
  unfold State.resumeCut; (repeat' split) <;> simp
@[simp] theorem State.resumeCut_pmn (s : State) (w : Saw) : (s.resumeCut w).pmn = s.pmn := by
  unfold State.resumeCut; (repeat' split) <;> simp
@[simp] theorem State.resumeCut_wau (s : State) (w : Saw) : (s.resumeCut w).wau = s.wau := by
  unfold State.resumeCut; (repeat' split) <;> simp
@[simp] theorem State.resumeCut_jcu (s : State) (w : Saw) : (s.resumeCut w).jcu = s.jcu := by
  unfold State.resumeCut; (repeat' split) <;> simp
@[simp] theorem State.resumeCut_olc (s : State) (w : Saw) : (s.resumeCut w).olc = s.olc := by
  unfold State.resumeCut; (repeat' split) <;> simp
@[simp] theorem State.resumeCut_rsv (s : State) (w : Saw) : (s.resumeCut w).rsv = s.rsv := by
  unfold State.resumeCut; (repeat' split) <;> simp
@[simp] theorem State.resumeCut_pending (s : State) (w : Saw) : (s.resumeCut w).pending = s.pending := by
  unfold State.resumeCut; (repeat' split) <;> simp

/-! ### enterCut -/

@[simp] theorem State.enterCut_stk (s : State) (w : Saw) : (s.enterCut w).stk = s.stk := by
  unfold State.enterCut; (repeat' split) <;> simp
@[simp] theorem State.enterCut_bld (s : State) (w : Saw) : (s.enterCut w).bld = s.bld := by
  unfold State.enterCut; (repeat' split) <;> simp
@[simp] theorem State.enterCut_pmn (s : State) (w : Saw) : (s.enterCut w).pmn = s.pmn := by
  unfold State.enterCut; (repeat' split) <;> simp
@[simp] theorem State.enterCut_wau (s : State) (w : Saw) : (s.enterCut w).wau = s.wau := by
  unfold State.enterCut; (repeat' split) <;> simp
@[simp] theorem State.enterCut_jcu (s : State) (w : Saw) : (s.enterCut w).jcu = s.jcu := by
  unfold State.enterCut; (repeat' split) <;> simp
@[simp] theorem State.enterCut_olc (s : State) (w : Saw) : (s.enterCut w).olc = s.olc := by
  unfold State.enterCut; (repeat' split) <;> simp
@[simp] theorem State.enterCut_rsv (s : State) (w : Saw) : (s.enterCut w).rsv = s.rsv := by
  unfold State.enterCut; (repeat' split) <;> simp
@[simp] theorem State.enterCut_pending (s : State) (w : Saw) : (s.enterCut w).pending = s.pending := by
  unfold State.enterCut; (repeat' split) <;> simp

/-! ### orderHold -/

@[simp] theorem State.orderHold_stk (s : State) (w : Saw) : (s.orderHold w).stk = s.stk := by
  rfl
@[simp] theorem State.orderHold_pln (s : State) (w : Saw) : (s.orderHold w).pln = s.pln := by
  rfl
@[simp] theorem State.orderHold_bld (s : State) (w : Saw) : (s.orderHold w).bld = s.bld := by
  rfl
@[simp] theorem State.orderHold_pmn (s : State) (w : Saw) : (s.orderHold w).pmn = s.pmn := by
  rfl
@[simp] theorem State.orderHold_wau (s : State) (w : Saw) : (s.orderHold w).wau = s.wau := by
  rfl
@[simp] theorem State.orderHold_jcu (s : State) (w : Saw) : (s.orderHold w).jcu = s.jcu := by
  rfl
@[simp] theorem State.orderHold_olc (s : State) (w : Saw) : (s.orderHold w).olc = s.olc := by
  rfl
@[simp] theorem State.orderHold_rsv (s : State) (w : Saw) : (s.orderHold w).rsv = s.rsv := by
  rfl
@[simp] theorem State.orderHold_pending (s : State) (w : Saw) : (s.orderHold w).pending = s.pending := by
  rfl

/-! ### faultBlade -/

@[simp] theorem State.faultBlade_stk (s : State) (w : Saw) (c : Cause) : (s.faultBlade w c).stk = s.stk := by
  unfold State.faultBlade; (repeat' split) <;> simp
@[simp] theorem State.faultBlade_pln (s : State) (w : Saw) (c : Cause) : (s.faultBlade w c).pln = s.pln := by
  unfold State.faultBlade; (repeat' split) <;> simp
@[simp] theorem State.faultBlade_sdp (s : State) (w : Saw) (c : Cause) : (s.faultBlade w c).sdp = s.sdp := by
  unfold State.faultBlade; (repeat' split) <;> simp
@[simp] theorem State.faultBlade_pmn (s : State) (w : Saw) (c : Cause) : (s.faultBlade w c).pmn = s.pmn := by
  unfold State.faultBlade; (repeat' split) <;> simp
@[simp] theorem State.faultBlade_wau (s : State) (w : Saw) (c : Cause) : (s.faultBlade w c).wau = s.wau := by
  unfold State.faultBlade; (repeat' split) <;> simp
@[simp] theorem State.faultBlade_jcu (s : State) (w : Saw) (c : Cause) : (s.faultBlade w c).jcu = s.jcu := by
  unfold State.faultBlade; (repeat' split) <;> simp
@[simp] theorem State.faultBlade_rsv (s : State) (w : Saw) (c : Cause) : (s.faultBlade w c).rsv = s.rsv := by
  unfold State.faultBlade; (repeat' split) <;> simp
@[simp] theorem State.faultBlade_pending (s : State) (w : Saw) (c : Cause) : (s.faultBlade w c).pending = s.pending := by
  unfold State.faultBlade; (repeat' split) <;> simp

theorem State.leaveWater_stk (pass : State → State) (hp : ∀ s, (pass s).stk = s.stk) (s : State) (w : Saw) :
    (s.leaveWater pass w).stk = s.stk := by
  unfold State.leaveWater; split <;> simp [hp]
theorem State.faultInCut_stk (pass : State → State) (hp : ∀ s, (pass s).stk = s.stk) (s : State) (w : Saw) (p : Nat)
    (c : Cause) : (s.faultInCut pass w p c).stk = s.stk := by
  simp [State.faultInCut, State.leaveWater_stk pass hp]
theorem State.settleInterlock_stk (pass : State → State) (hp : ∀ s, (pass s).stk = s.stk) (s : State) (w : Saw) :
    (s.settleInterlock pass w).stk = s.stk := by
  unfold State.settleInterlock; split <;> simp [State.faultInCut_stk pass hp]
@[simp] theorem admissionPass_stk (n : Nat) : ∀ s : State, (admissionPass n s).stk = s.stk := by
  induction n with
  | zero => exact fun s => rfl
  | succ n ih =>
    intro s
    unfold admissionPass
    split
    · rfl
    · split <;> simp [ih, State.settleInterlock_stk _ ih]
@[simp] theorem State.runPass_stk (s : State) : s.runPass.stk = s.stk := by simp [State.runPass]
@[simp] theorem State.leaveWater_runPass_stk (s : State) (w : Saw) : (s.leaveWater State.runPass w).stk = s.stk :=
  State.leaveWater_stk _ State.runPass_stk s w
@[simp] theorem State.faultInCut_runPass_stk (s : State) (w : Saw) (p : Nat) (c : Cause) :
    (s.faultInCut State.runPass w p c).stk = s.stk := State.faultInCut_stk _ State.runPass_stk s w p c
@[simp] theorem State.settleInterlock_runPass_stk (s : State) (w : Saw) :
    (s.settleInterlock State.runPass w).stk = s.stk := State.settleInterlock_stk _ State.runPass_stk s w

theorem State.leaveWater_pmn (pass : State → State) (hp : ∀ s, (pass s).pmn = s.pmn) (s : State) (w : Saw) :
    (s.leaveWater pass w).pmn = s.pmn := by
  unfold State.leaveWater; split <;> simp [hp]
theorem State.faultInCut_pmn (pass : State → State) (hp : ∀ s, (pass s).pmn = s.pmn) (s : State) (w : Saw) (p : Nat)
    (c : Cause) : (s.faultInCut pass w p c).pmn = s.pmn := by
  simp [State.faultInCut, State.leaveWater_pmn pass hp]
theorem State.settleInterlock_pmn (pass : State → State) (hp : ∀ s, (pass s).pmn = s.pmn) (s : State) (w : Saw) :
    (s.settleInterlock pass w).pmn = s.pmn := by
  unfold State.settleInterlock; split <;> simp [State.faultInCut_pmn pass hp]
@[simp] theorem admissionPass_pmn (n : Nat) : ∀ s : State, (admissionPass n s).pmn = s.pmn := by
  induction n with
  | zero => exact fun s => rfl
  | succ n ih =>
    intro s
    unfold admissionPass
    split
    · rfl
    · split <;> simp [ih, State.settleInterlock_pmn _ ih]
@[simp] theorem State.runPass_pmn (s : State) : s.runPass.pmn = s.pmn := by simp [State.runPass]
@[simp] theorem State.leaveWater_runPass_pmn (s : State) (w : Saw) : (s.leaveWater State.runPass w).pmn = s.pmn :=
  State.leaveWater_pmn _ State.runPass_pmn s w
@[simp] theorem State.faultInCut_runPass_pmn (s : State) (w : Saw) (p : Nat) (c : Cause) :
    (s.faultInCut State.runPass w p c).pmn = s.pmn := State.faultInCut_pmn _ State.runPass_pmn s w p c
@[simp] theorem State.settleInterlock_runPass_pmn (s : State) (w : Saw) :
    (s.settleInterlock State.runPass w).pmn = s.pmn := State.settleInterlock_pmn _ State.runPass_pmn s w

theorem State.leaveWater_rsv (pass : State → State) (hp : ∀ s, (pass s).rsv = s.rsv) (s : State) (w : Saw) :
    (s.leaveWater pass w).rsv = s.rsv := by
  unfold State.leaveWater; split <;> simp [hp]
theorem State.faultInCut_rsv (pass : State → State) (hp : ∀ s, (pass s).rsv = s.rsv) (s : State) (w : Saw) (p : Nat)
    (c : Cause) : (s.faultInCut pass w p c).rsv = s.rsv := by
  simp [State.faultInCut, State.leaveWater_rsv pass hp]
theorem State.settleInterlock_rsv (pass : State → State) (hp : ∀ s, (pass s).rsv = s.rsv) (s : State) (w : Saw) :
    (s.settleInterlock pass w).rsv = s.rsv := by
  unfold State.settleInterlock; split <;> simp [State.faultInCut_rsv pass hp]
@[simp] theorem admissionPass_rsv (n : Nat) : ∀ s : State, (admissionPass n s).rsv = s.rsv := by
  induction n with
  | zero => exact fun s => rfl
  | succ n ih =>
    intro s
    unfold admissionPass
    split
    · rfl
    · split <;> simp [ih, State.settleInterlock_rsv _ ih]
@[simp] theorem State.runPass_rsv (s : State) : s.runPass.rsv = s.rsv := by simp [State.runPass]
@[simp] theorem State.leaveWater_runPass_rsv (s : State) (w : Saw) : (s.leaveWater State.runPass w).rsv = s.rsv :=
  State.leaveWater_rsv _ State.runPass_rsv s w
@[simp] theorem State.faultInCut_runPass_rsv (s : State) (w : Saw) (p : Nat) (c : Cause) :
    (s.faultInCut State.runPass w p c).rsv = s.rsv := State.faultInCut_rsv _ State.runPass_rsv s w p c
@[simp] theorem State.settleInterlock_runPass_rsv (s : State) (w : Saw) :
    (s.settleInterlock State.runPass w).rsv = s.rsv := State.settleInterlock_rsv _ State.runPass_rsv s w

theorem State.leaveWater_pending (pass : State → State) (hp : ∀ s, (pass s).pending = s.pending) (s : State) (w : Saw) :
    (s.leaveWater pass w).pending = s.pending := by
  unfold State.leaveWater; split <;> simp [hp]
theorem State.faultInCut_pending (pass : State → State) (hp : ∀ s, (pass s).pending = s.pending) (s : State) (w : Saw) (p : Nat)
    (c : Cause) : (s.faultInCut pass w p c).pending = s.pending := by
  simp [State.faultInCut, State.leaveWater_pending pass hp]
theorem State.settleInterlock_pending (pass : State → State) (hp : ∀ s, (pass s).pending = s.pending) (s : State) (w : Saw) :
    (s.settleInterlock pass w).pending = s.pending := by
  unfold State.settleInterlock; split <;> simp [State.faultInCut_pending pass hp]
@[simp] theorem admissionPass_pending (n : Nat) : ∀ s : State, (admissionPass n s).pending = s.pending := by
  induction n with
  | zero => exact fun s => rfl
  | succ n ih =>
    intro s
    unfold admissionPass
    split
    · rfl
    · split <;> simp [ih, State.settleInterlock_pending _ ih]
@[simp] theorem State.runPass_pending (s : State) : s.runPass.pending = s.pending := by simp [State.runPass]
@[simp] theorem State.leaveWater_runPass_pending (s : State) (w : Saw) : (s.leaveWater State.runPass w).pending = s.pending :=
  State.leaveWater_pending _ State.runPass_pending s w
@[simp] theorem State.faultInCut_runPass_pending (s : State) (w : Saw) (p : Nat) (c : Cause) :
    (s.faultInCut State.runPass w p c).pending = s.pending := State.faultInCut_pending _ State.runPass_pending s w p c
@[simp] theorem State.settleInterlock_runPass_pending (s : State) (w : Saw) :
    (s.settleInterlock State.runPass w).pending = s.pending := State.settleInterlock_pending _ State.runPass_pending s w

/-! ### removeFromLine -/

@[simp] theorem State.removeFromLine_stk (s : State) (w : Saw) : (s.removeFromLine w).stk = s.stk := by
  unfold State.removeFromLine; (repeat' split) <;> simp
@[simp] theorem State.removeFromLine_pmn (s : State) (w : Saw) : (s.removeFromLine w).pmn = s.pmn := by
  unfold State.removeFromLine; (repeat' split) <;> simp
@[simp] theorem State.removeFromLine_rsv (s : State) (w : Saw) : (s.removeFromLine w).rsv = s.rsv := by
  unfold State.removeFromLine; (repeat' split) <;> simp
@[simp] theorem State.removeFromLine_pending (s : State) (w : Saw) : (s.removeFromLine w).pending = s.pending := by
  unfold State.removeFromLine; (repeat' split) <;> simp

/-! ### revokeDown -/

@[simp] theorem revokeDown_stk (c : Nat) (ws : List Saw) : ∀ s : State, (revokeDown c ws s).stk = s.stk := by
  induction ws with
  | nil => exact fun s => rfl
  | cons w ws ih => intro s; unfold revokeDown; (repeat' split) <;> simp [ih]
@[simp] theorem revokeDown_pln (c : Nat) (ws : List Saw) : ∀ s : State, (revokeDown c ws s).pln = s.pln := by
  induction ws with
  | nil => exact fun s => rfl
  | cons w ws ih => intro s; unfold revokeDown; (repeat' split) <;> simp [ih]
@[simp] theorem revokeDown_bld (c : Nat) (ws : List Saw) : ∀ s : State, (revokeDown c ws s).bld = s.bld := by
  induction ws with
  | nil => exact fun s => rfl
  | cons w ws ih => intro s; unfold revokeDown; (repeat' split) <;> simp [ih]
@[simp] theorem revokeDown_pmn (c : Nat) (ws : List Saw) : ∀ s : State, (revokeDown c ws s).pmn = s.pmn := by
  induction ws with
  | nil => exact fun s => rfl
  | cons w ws ih => intro s; unfold revokeDown; (repeat' split) <;> simp [ih]
@[simp] theorem revokeDown_jcu (c : Nat) (ws : List Saw) : ∀ s : State, (revokeDown c ws s).jcu = s.jcu := by
  induction ws with
  | nil => exact fun s => rfl
  | cons w ws ih => intro s; unfold revokeDown; (repeat' split) <;> simp [ih]
@[simp] theorem revokeDown_olc (c : Nat) (ws : List Saw) : ∀ s : State, (revokeDown c ws s).olc = s.olc := by
  induction ws with
  | nil => exact fun s => rfl
  | cons w ws ih => intro s; unfold revokeDown; (repeat' split) <;> simp [ih]
@[simp] theorem revokeDown_rsv (c : Nat) (ws : List Saw) : ∀ s : State, (revokeDown c ws s).rsv = s.rsv := by
  induction ws with
  | nil => exact fun s => rfl
  | cons w ws ih => intro s; unfold revokeDown; (repeat' split) <;> simp [ih]
@[simp] theorem revokeDown_pending (c : Nat) (ws : List Saw) : ∀ s : State, (revokeDown c ws s).pending = s.pending := by
  induction ws with
  | nil => exact fun s => rfl
  | cons w ws ih => intro s; unfold revokeDown; (repeat' split) <;> simp [ih]

/-! ### evaluate -/

@[simp] theorem State.evaluate_stk (s : State) : (s.evaluate).stk = s.stk := by
  unfold State.evaluate; dsimp only; split <;> simp
@[simp] theorem State.evaluate_pmn (s : State) : (s.evaluate).pmn = s.pmn := by
  unfold State.evaluate; dsimp only; split <;> simp
@[simp] theorem State.evaluate_rsv (s : State) : (s.evaluate).rsv = s.rsv := by
  unfold State.evaluate; dsimp only; split <;> simp
@[simp] theorem State.evaluate_pending (s : State) : (s.evaluate).pending = s.pending := by
  unfold State.evaluate; dsimp only; split <;> simp

/-! ### loadHead -/

@[simp] theorem State.loadHead_stk (s : State) (w : Saw) : (s.loadHead w).stk = s.stk := by
  unfold State.loadHead; (repeat' split) <;> simp
@[simp] theorem State.loadHead_pln (s : State) (w : Saw) : (s.loadHead w).pln = s.pln := by
  unfold State.loadHead; (repeat' split) <;> simp
@[simp] theorem State.loadHead_bld (s : State) (w : Saw) : (s.loadHead w).bld = s.bld := by
  unfold State.loadHead; (repeat' split) <;> simp
@[simp] theorem State.loadHead_pmn (s : State) (w : Saw) : (s.loadHead w).pmn = s.pmn := by
  unfold State.loadHead; (repeat' split) <;> simp
@[simp] theorem State.loadHead_wau (s : State) (w : Saw) : (s.loadHead w).wau = s.wau := by
  unfold State.loadHead; (repeat' split) <;> simp
@[simp] theorem State.loadHead_jcu (s : State) (w : Saw) : (s.loadHead w).jcu = s.jcu := by
  unfold State.loadHead; (repeat' split) <;> simp
@[simp] theorem State.loadHead_olc (s : State) (w : Saw) : (s.loadHead w).olc = s.olc := by
  unfold State.loadHead; (repeat' split) <;> simp
@[simp] theorem State.loadHead_rsv (s : State) (w : Saw) : (s.loadHead w).rsv = s.rsv := by
  unfold State.loadHead; (repeat' split) <;> simp
@[simp] theorem State.loadHead_pending (s : State) (w : Saw) : (s.loadHead w).pending = s.pending := by
  unfold State.loadHead; (repeat' split) <;> simp

/-! ### goOn -/

@[simp] theorem State.goOn_stk (s : State) (w : Saw) : (s.goOn w).stk = s.stk := by
  simp [State.goOn]
@[simp] theorem State.goOn_pln (s : State) (w : Saw) : (s.goOn w).pln = s.pln := by
  simp [State.goOn]
@[simp] theorem State.goOn_bld (s : State) (w : Saw) : (s.goOn w).bld = s.bld := by
  simp [State.goOn]
@[simp] theorem State.goOn_pmn (s : State) (w : Saw) : (s.goOn w).pmn = s.pmn := by
  simp [State.goOn]
@[simp] theorem State.goOn_wau (s : State) (w : Saw) : (s.goOn w).wau = s.wau := by
  simp [State.goOn]
@[simp] theorem State.goOn_jcu (s : State) (w : Saw) : (s.goOn w).jcu = s.jcu := by
  simp [State.goOn]
@[simp] theorem State.goOn_olc (s : State) (w : Saw) : (s.goOn w).olc = s.olc := by
  simp [State.goOn]
@[simp] theorem State.goOn_rsv (s : State) (w : Saw) : (s.goOn w).rsv = s.rsv := by
  simp [State.goOn]
@[simp] theorem State.goOn_pending (s : State) (w : Saw) : (s.goOn w).pending = s.pending := by
  simp [State.goOn]

/-! ### unload -/

@[simp] theorem State.unload_stk (s : State) (w : Saw) (n : Nat) : (s.unload w n).stk = s.stk := by
  unfold State.unload; (repeat' split) <;> simp
@[simp] theorem State.unload_pln (s : State) (w : Saw) (n : Nat) : (s.unload w n).pln = s.pln := by
  unfold State.unload; (repeat' split) <;> simp
@[simp] theorem State.unload_bld (s : State) (w : Saw) (n : Nat) : (s.unload w n).bld = s.bld := by
  unfold State.unload; (repeat' split) <;> simp
@[simp] theorem State.unload_pmn (s : State) (w : Saw) (n : Nat) : (s.unload w n).pmn = s.pmn := by
  unfold State.unload; (repeat' split) <;> simp
@[simp] theorem State.unload_wau (s : State) (w : Saw) (n : Nat) : (s.unload w n).wau = s.wau := by
  unfold State.unload; (repeat' split) <;> simp
@[simp] theorem State.unload_jcu (s : State) (w : Saw) (n : Nat) : (s.unload w n).jcu = s.jcu := by
  unfold State.unload; (repeat' split) <;> simp
@[simp] theorem State.unload_olc (s : State) (w : Saw) (n : Nat) : (s.unload w n).olc = s.olc := by
  unfold State.unload; (repeat' split) <;> simp
@[simp] theorem State.unload_rsv (s : State) (w : Saw) (n : Nat) : (s.unload w n).rsv = s.rsv := by
  unfold State.unload; (repeat' split) <;> simp
@[simp] theorem State.unload_pending (s : State) (w : Saw) (n : Nat) : (s.unload w n).pending = s.pending := by
  unfold State.unload; (repeat' split) <;> simp

/-! ### leaveQueue -/

@[simp] theorem State.leaveQueue_stk (s : State) (w : Saw) (n : Nat) : (s.leaveQueue w n).stk = s.stk := by
  rfl
@[simp] theorem State.leaveQueue_bld (s : State) (w : Saw) (n : Nat) : (s.leaveQueue w n).bld = s.bld := by
  rfl
@[simp] theorem State.leaveQueue_pmn (s : State) (w : Saw) (n : Nat) : (s.leaveQueue w n).pmn = s.pmn := by
  rfl
@[simp] theorem State.leaveQueue_wau (s : State) (w : Saw) (n : Nat) : (s.leaveQueue w n).wau = s.wau := by
  rfl
@[simp] theorem State.leaveQueue_jcu (s : State) (w : Saw) (n : Nat) : (s.leaveQueue w n).jcu = s.jcu := by
  rfl
@[simp] theorem State.leaveQueue_olc (s : State) (w : Saw) (n : Nat) : (s.leaveQueue w n).olc = s.olc := by
  rfl
@[simp] theorem State.leaveQueue_rsv (s : State) (w : Saw) (n : Nat) : (s.leaveQueue w n).rsv = s.rsv := by
  rfl
@[simp] theorem State.leaveQueue_pending (s : State) (w : Saw) (n : Nat) : (s.leaveQueue w n).pending = s.pending := by
  rfl

/-! ### undoCheck -/

@[simp] theorem State.undoCheck_pln (s : State) (p : Plan) : (s.undoCheck p).pln = s.pln := by
  rfl
@[simp] theorem State.undoCheck_sdp (s : State) (p : Plan) : (s.undoCheck p).sdp = s.sdp := by
  rfl
@[simp] theorem State.undoCheck_bld (s : State) (p : Plan) : (s.undoCheck p).bld = s.bld := by
  rfl
@[simp] theorem State.undoCheck_pmn (s : State) (p : Plan) : (s.undoCheck p).pmn = s.pmn := by
  rfl
@[simp] theorem State.undoCheck_wau (s : State) (p : Plan) : (s.undoCheck p).wau = s.wau := by
  rfl
@[simp] theorem State.undoCheck_olc (s : State) (p : Plan) : (s.undoCheck p).olc = s.olc := by
  rfl
@[simp] theorem State.undoCheck_rsv (s : State) (p : Plan) : (s.undoCheck p).rsv = s.rsv := by
  rfl
@[simp] theorem State.undoCheck_pending (s : State) (p : Plan) : (s.undoCheck p).pending = s.pending := by
  rfl

/-! ### performCheck -/

@[simp] theorem State.performCheck_sdp (s : State) (p : Plan) (d : Derived) : (s.performCheck p d).sdp = s.sdp := by
  rfl
@[simp] theorem State.performCheck_bld (s : State) (p : Plan) (d : Derived) : (s.performCheck p d).bld = s.bld := by
  rfl
@[simp] theorem State.performCheck_pmn (s : State) (p : Plan) (d : Derived) : (s.performCheck p d).pmn = s.pmn := by
  rfl
@[simp] theorem State.performCheck_wau (s : State) (p : Plan) (d : Derived) : (s.performCheck p d).wau = s.wau := by
  rfl
@[simp] theorem State.performCheck_olc (s : State) (p : Plan) (d : Derived) : (s.performCheck p d).olc = s.olc := by
  rfl
@[simp] theorem State.performCheck_rsv (s : State) (p : Plan) (d : Derived) : (s.performCheck p d).rsv = s.rsv := by
  rfl
@[simp] theorem State.performCheck_pending (s : State) (p : Plan) (d : Derived) : (s.performCheck p d).pending = s.pending := by
  rfl

/-! ### cancelLoad -/

@[simp] theorem State.cancelLoad_stk (s : State) (w : Saw) (n : Nat) : (s.cancelLoad w n).stk = s.stk := by
  unfold State.cancelLoad; dsimp only; (repeat' split) <;> simp
@[simp] theorem State.cancelLoad_pln (s : State) (w : Saw) (n : Nat) : (s.cancelLoad w n).pln = s.pln := by
  unfold State.cancelLoad; dsimp only; (repeat' split) <;> simp
@[simp] theorem State.cancelLoad_bld (s : State) (w : Saw) (n : Nat) : (s.cancelLoad w n).bld = s.bld := by
  unfold State.cancelLoad; dsimp only; (repeat' split) <;> simp
@[simp] theorem State.cancelLoad_pmn (s : State) (w : Saw) (n : Nat) : (s.cancelLoad w n).pmn = s.pmn := by
  unfold State.cancelLoad; dsimp only; (repeat' split) <;> simp
@[simp] theorem State.cancelLoad_wau (s : State) (w : Saw) (n : Nat) : (s.cancelLoad w n).wau = s.wau := by
  unfold State.cancelLoad; dsimp only; (repeat' split) <;> simp
@[simp] theorem State.cancelLoad_jcu (s : State) (w : Saw) (n : Nat) : (s.cancelLoad w n).jcu = s.jcu := by
  unfold State.cancelLoad; dsimp only; (repeat' split) <;> simp
@[simp] theorem State.cancelLoad_olc (s : State) (w : Saw) (n : Nat) : (s.cancelLoad w n).olc = s.olc := by
  unfold State.cancelLoad; dsimp only; (repeat' split) <;> simp
@[simp] theorem State.cancelLoad_rsv (s : State) (w : Saw) (n : Nat) : (s.cancelLoad w n).rsv = s.rsv := by
  unfold State.cancelLoad; dsimp only; (repeat' split) <;> simp
@[simp] theorem State.cancelLoad_pending (s : State) (w : Saw) (n : Nat) : (s.cancelLoad w n).pending = s.pending := by
  unfold State.cancelLoad; dsimp only; (repeat' split) <;> simp

/-! ### writeOff -/

@[simp] theorem State.writeOff_sdp (s : State) (p : Plan) : (s.writeOff p).sdp = s.sdp := by
  simp [State.writeOff]
@[simp] theorem State.writeOff_bld (s : State) (p : Plan) : (s.writeOff p).bld = s.bld := by
  simp [State.writeOff]
@[simp] theorem State.writeOff_pmn (s : State) (p : Plan) : (s.writeOff p).pmn = s.pmn := by
  simp [State.writeOff]
@[simp] theorem State.writeOff_wau (s : State) (p : Plan) : (s.writeOff p).wau = s.wau := by
  simp [State.writeOff]
@[simp] theorem State.writeOff_rsv (s : State) (p : Plan) : (s.writeOff p).rsv = s.rsv := by
  simp [State.writeOff]
@[simp] theorem State.writeOff_pending (s : State) (p : Plan) : (s.writeOff p).pending = s.pending := by
  simp [State.writeOff]

/-! ### clearSaw -/

@[simp] theorem State.clearSaw_stk (s : State) (w : Saw) (n : Nat) : (s.clearSaw w n).stk = s.stk := by
  simp [State.clearSaw]
@[simp] theorem State.clearSaw_pmn (s : State) (w : Saw) (n : Nat) : (s.clearSaw w n).pmn = s.pmn := by
  simp [State.clearSaw]
@[simp] theorem State.clearSaw_rsv (s : State) (w : Saw) (n : Nat) : (s.clearSaw w n).rsv = s.rsv := by
  simp [State.clearSaw]
@[simp] theorem State.clearSaw_pending (s : State) (w : Saw) (n : Nat) : (s.clearSaw w n).pending = s.pending := by
  simp [State.clearSaw]

/-! ### goOnByLink -/

@[simp] theorem State.goOnByLink_stk (s : State) (w : Saw) : (s.goOnByLink w).stk = s.stk := by
  unfold State.goOnByLink; (repeat' split) <;> simp
@[simp] theorem State.goOnByLink_pln (s : State) (w : Saw) : (s.goOnByLink w).pln = s.pln := by
  unfold State.goOnByLink; (repeat' split) <;> simp
@[simp] theorem State.goOnByLink_bld (s : State) (w : Saw) : (s.goOnByLink w).bld = s.bld := by
  unfold State.goOnByLink; (repeat' split) <;> simp
@[simp] theorem State.goOnByLink_pmn (s : State) (w : Saw) : (s.goOnByLink w).pmn = s.pmn := by
  unfold State.goOnByLink; (repeat' split) <;> simp
@[simp] theorem State.goOnByLink_wau (s : State) (w : Saw) : (s.goOnByLink w).wau = s.wau := by
  unfold State.goOnByLink; (repeat' split) <;> simp
@[simp] theorem State.goOnByLink_jcu (s : State) (w : Saw) : (s.goOnByLink w).jcu = s.jcu := by
  unfold State.goOnByLink; (repeat' split) <;> simp
@[simp] theorem State.goOnByLink_olc (s : State) (w : Saw) : (s.goOnByLink w).olc = s.olc := by
  unfold State.goOnByLink; (repeat' split) <;> simp
@[simp] theorem State.goOnByLink_rsv (s : State) (w : Saw) : (s.goOnByLink w).rsv = s.rsv := by
  unfold State.goOnByLink; (repeat' split) <;> simp
@[simp] theorem State.goOnByLink_pending (s : State) (w : Saw) : (s.goOnByLink w).pending = s.pending := by
  unfold State.goOnByLink; (repeat' split) <;> simp

/-! ### reportLoad -/

@[simp] theorem State.reportLoad_sdp (s : State) (n : Nat) : (s.reportLoad n).sdp = s.sdp := by
  unfold State.reportLoad; (repeat' split) <;> simp
@[simp] theorem State.reportLoad_bld (s : State) (n : Nat) : (s.reportLoad n).bld = s.bld := by
  unfold State.reportLoad; (repeat' split) <;> simp
@[simp] theorem State.reportLoad_pmn (s : State) (n : Nat) : (s.reportLoad n).pmn = s.pmn := by
  unfold State.reportLoad; (repeat' split) <;> simp
@[simp] theorem State.reportLoad_wau (s : State) (n : Nat) : (s.reportLoad n).wau = s.wau := by
  unfold State.reportLoad; (repeat' split) <;> simp
@[simp] theorem State.reportLoad_jcu (s : State) (n : Nat) : (s.reportLoad n).jcu = s.jcu := by
  unfold State.reportLoad; (repeat' split) <;> simp
@[simp] theorem State.reportLoad_olc (s : State) (n : Nat) : (s.reportLoad n).olc = s.olc := by
  unfold State.reportLoad; (repeat' split) <;> simp
@[simp] theorem State.reportLoad_rsv (s : State) (n : Nat) : (s.reportLoad n).rsv = s.rsv := by
  unfold State.reportLoad; (repeat' split) <;> simp
@[simp] theorem State.reportLoad_pending (s : State) (n : Nat) : (s.reportLoad n).pending = s.pending := by
  unfold State.reportLoad; (repeat' split) <;> simp

/-! ### finishStrips -/

@[simp] theorem State.finishStrips_stk (s : State) (n : Nat) : (s.finishStrips n).stk = s.stk := by
  unfold State.finishStrips; (repeat' split) <;> simp
@[simp] theorem State.finishStrips_sdp (s : State) (n : Nat) : (s.finishStrips n).sdp = s.sdp := by
  unfold State.finishStrips; (repeat' split) <;> simp
@[simp] theorem State.finishStrips_bld (s : State) (n : Nat) : (s.finishStrips n).bld = s.bld := by
  unfold State.finishStrips; (repeat' split) <;> simp
@[simp] theorem State.finishStrips_pmn (s : State) (n : Nat) : (s.finishStrips n).pmn = s.pmn := by
  unfold State.finishStrips; (repeat' split) <;> simp
@[simp] theorem State.finishStrips_wau (s : State) (n : Nat) : (s.finishStrips n).wau = s.wau := by
  unfold State.finishStrips; (repeat' split) <;> simp
@[simp] theorem State.finishStrips_olc (s : State) (n : Nat) : (s.finishStrips n).olc = s.olc := by
  unfold State.finishStrips; (repeat' split) <;> simp
@[simp] theorem State.finishStrips_rsv (s : State) (n : Nat) : (s.finishStrips n).rsv = s.rsv := by
  unfold State.finishStrips; (repeat' split) <;> simp
@[simp] theorem State.finishStrips_pending (s : State) (n : Nat) : (s.finishStrips n).pending = s.pending := by
  unfold State.finishStrips; (repeat' split) <;> simp

/-! ### reportDone -/

@[simp] theorem State.reportDone_stk (s : State) (n i : Nat) : (s.reportDone n i).stk = s.stk := by
  simp [State.reportDone]
@[simp] theorem State.reportDone_sdp (s : State) (n i : Nat) : (s.reportDone n i).sdp = s.sdp := by
  simp [State.reportDone]
@[simp] theorem State.reportDone_bld (s : State) (n i : Nat) : (s.reportDone n i).bld = s.bld := by
  simp [State.reportDone]
@[simp] theorem State.reportDone_pmn (s : State) (n i : Nat) : (s.reportDone n i).pmn = s.pmn := by
  simp [State.reportDone]
@[simp] theorem State.reportDone_wau (s : State) (n i : Nat) : (s.reportDone n i).wau = s.wau := by
  simp [State.reportDone]
@[simp] theorem State.reportDone_olc (s : State) (n i : Nat) : (s.reportDone n i).olc = s.olc := by
  simp [State.reportDone]
@[simp] theorem State.reportDone_rsv (s : State) (n i : Nat) : (s.reportDone n i).rsv = s.rsv := by
  simp [State.reportDone]
@[simp] theorem State.reportDone_pending (s : State) (n i : Nat) : (s.reportDone n i).pending = s.pending := by
  simp [State.reportDone]

/-! ### settleRemnant -/

@[simp] theorem State.settleRemnant_sdp (s : State) (p : Plan) (d : Derived) : (s.settleRemnant p d).sdp = s.sdp := by
  unfold State.settleRemnant; split
  · simp
  · dsimp only; split <;> simp
@[simp] theorem State.settleRemnant_bld (s : State) (p : Plan) (d : Derived) : (s.settleRemnant p d).bld = s.bld := by
  unfold State.settleRemnant; split
  · simp
  · dsimp only; split <;> simp
@[simp] theorem State.settleRemnant_pmn (s : State) (p : Plan) (d : Derived) : (s.settleRemnant p d).pmn = s.pmn := by
  unfold State.settleRemnant; split
  · simp
  · dsimp only; split <;> simp
@[simp] theorem State.settleRemnant_wau (s : State) (p : Plan) (d : Derived) : (s.settleRemnant p d).wau = s.wau := by
  unfold State.settleRemnant; split
  · simp
  · dsimp only; split <;> simp
@[simp] theorem State.settleRemnant_rsv (s : State) (p : Plan) (d : Derived) : (s.settleRemnant p d).rsv = s.rsv := by
  unfold State.settleRemnant; split
  · simp
  · dsimp only; split <;> simp
@[simp] theorem State.settleRemnant_pending (s : State) (p : Plan) (d : Derived) : (s.settleRemnant p d).pending = s.pending := by
  unfold State.settleRemnant; split
  · simp
  · dsimp only; split <;> simp

/-! ### complete -/

@[simp] theorem State.complete_bld (s : State) (w : Saw) (p : Plan) : (s.complete w p).bld = s.bld := by
  unfold State.complete; cases p.derived <;> simp
@[simp] theorem State.complete_pmn (s : State) (w : Saw) (p : Plan) : (s.complete w p).pmn = s.pmn := by
  unfold State.complete; cases p.derived <;> simp
@[simp] theorem State.complete_wau (s : State) (w : Saw) (p : Plan) : (s.complete w p).wau = s.wau := by
  unfold State.complete; cases p.derived <;> simp
@[simp] theorem State.complete_rsv (s : State) (w : Saw) (p : Plan) : (s.complete w p).rsv = s.rsv := by
  unfold State.complete; cases p.derived <;> simp
@[simp] theorem State.complete_pending (s : State) (w : Saw) (p : Plan) : (s.complete w p).pending = s.pending := by
  unfold State.complete; cases p.derived <;> simp

/-! ### goOffline -/

@[simp] theorem State.goOffline_stk (s : State) (w : Saw) : (s.goOffline w).stk = s.stk := by
  simp [State.goOffline]
@[simp] theorem State.goOffline_bld (s : State) (w : Saw) : (s.goOffline w).bld = s.bld := by
  simp [State.goOffline]
@[simp] theorem State.goOffline_pmn (s : State) (w : Saw) : (s.goOffline w).pmn = s.pmn := by
  simp [State.goOffline]
@[simp] theorem State.goOffline_wau (s : State) (w : Saw) : (s.goOffline w).wau = s.wau := by
  simp [State.goOffline]
@[simp] theorem State.goOffline_jcu (s : State) (w : Saw) : (s.goOffline w).jcu = s.jcu := by
  simp [State.goOffline]
@[simp] theorem State.goOffline_olc (s : State) (w : Saw) : (s.goOffline w).olc = s.olc := by
  simp [State.goOffline]
@[simp] theorem State.goOffline_rsv (s : State) (w : Saw) : (s.goOffline w).rsv = s.rsv := by
  simp [State.goOffline]
@[simp] theorem State.goOffline_pending (s : State) (w : Saw) : (s.goOffline w).pending = s.pending := by
  simp [State.goOffline]

/-! ### linkContext -/

@[simp] theorem State.linkContext_stk (s : State) (w : Saw) : (s.linkContext w).stk = s.stk := by
  simp [State.linkContext]
@[simp] theorem State.linkContext_bld (s : State) (w : Saw) : (s.linkContext w).bld = s.bld := by
  simp [State.linkContext]
@[simp] theorem State.linkContext_pmn (s : State) (w : Saw) : (s.linkContext w).pmn = s.pmn := by
  simp [State.linkContext]
@[simp] theorem State.linkContext_wau (s : State) (w : Saw) : (s.linkContext w).wau = s.wau := by
  simp [State.linkContext]
@[simp] theorem State.linkContext_jcu (s : State) (w : Saw) : (s.linkContext w).jcu = s.jcu := by
  simp [State.linkContext]
@[simp] theorem State.linkContext_olc (s : State) (w : Saw) : (s.linkContext w).olc = s.olc := by
  simp [State.linkContext]
@[simp] theorem State.linkContext_rsv (s : State) (w : Saw) : (s.linkContext w).rsv = s.rsv := by
  simp [State.linkContext]
@[simp] theorem State.linkContext_pending (s : State) (w : Saw) : (s.linkContext w).pending = s.pending := by
  simp [State.linkContext]

/-! ### stopCut -/

@[simp] theorem State.stopCut_stk (s : State) (w : Saw) : (s.stopCut w).stk = s.stk := by
  simp [State.stopCut]
@[simp] theorem State.stopCut_pmn (s : State) (w : Saw) : (s.stopCut w).pmn = s.pmn := by
  simp [State.stopCut]
@[simp] theorem State.stopCut_rsv (s : State) (w : Saw) : (s.stopCut w).rsv = s.rsv := by
  simp [State.stopCut]
@[simp] theorem State.stopCut_pending (s : State) (w : Saw) : (s.stopCut w).pending = s.pending := by
  simp [State.stopCut]

/-! ### loseLink -/

@[simp] theorem State.loseLink_stk (s : State) (w : Saw) : (s.loseLink w).stk = s.stk := by
  unfold State.loseLink; dsimp only; split <;> simp
@[simp] theorem State.loseLink_pmn (s : State) (w : Saw) : (s.loseLink w).pmn = s.pmn := by
  unfold State.loseLink; dsimp only; split <;> simp
@[simp] theorem State.loseLink_rsv (s : State) (w : Saw) : (s.loseLink w).rsv = s.rsv := by
  unfold State.loseLink; dsimp only; split <;> simp
@[simp] theorem State.loseLink_pending (s : State) (w : Saw) : (s.loseLink w).pending = s.pending := by
  unfold State.loseLink; dsimp only; split <;> simp

/-! ### wake -/

@[simp] theorem State.wake_stk (s : State) (w : Saw) : (s.wake w).stk = s.stk := by
  unfold State.wake; dsimp only; (repeat' split) <;> simp
@[simp] theorem State.wake_pln (s : State) (w : Saw) : (s.wake w).pln = s.pln := by
  unfold State.wake; dsimp only; (repeat' split) <;> simp
@[simp] theorem State.wake_bld (s : State) (w : Saw) : (s.wake w).bld = s.bld := by
  unfold State.wake; dsimp only; (repeat' split) <;> simp
@[simp] theorem State.wake_pmn (s : State) (w : Saw) : (s.wake w).pmn = s.pmn := by
  unfold State.wake; dsimp only; (repeat' split) <;> simp
@[simp] theorem State.wake_wau (s : State) (w : Saw) : (s.wake w).wau = s.wau := by
  unfold State.wake; dsimp only; (repeat' split) <;> simp
@[simp] theorem State.wake_jcu (s : State) (w : Saw) : (s.wake w).jcu = s.jcu := by
  unfold State.wake; dsimp only; (repeat' split) <;> simp
@[simp] theorem State.wake_olc (s : State) (w : Saw) : (s.wake w).olc = s.olc := by
  unfold State.wake; dsimp only; (repeat' split) <;> simp
@[simp] theorem State.wake_rsv (s : State) (w : Saw) : (s.wake w).rsv = s.rsv := by
  unfold State.wake; dsimp only; (repeat' split) <;> simp
@[simp] theorem State.wake_pending (s : State) (w : Saw) : (s.wake w).pending = s.pending := by
  unfold State.wake; dsimp only; (repeat' split) <;> simp

/-! ### linkUp -/

@[simp] theorem State.linkUp_stk (s : State) (w : Saw) : (s.linkUp w).stk = s.stk := by
  unfold State.linkUp; dsimp only; (repeat' split) <;> simp
@[simp] theorem State.linkUp_pln (s : State) (w : Saw) : (s.linkUp w).pln = s.pln := by
  unfold State.linkUp; dsimp only; (repeat' split) <;> simp
@[simp] theorem State.linkUp_bld (s : State) (w : Saw) : (s.linkUp w).bld = s.bld := by
  unfold State.linkUp; dsimp only; (repeat' split) <;> simp
@[simp] theorem State.linkUp_pmn (s : State) (w : Saw) : (s.linkUp w).pmn = s.pmn := by
  unfold State.linkUp; dsimp only; (repeat' split) <;> simp
@[simp] theorem State.linkUp_wau (s : State) (w : Saw) : (s.linkUp w).wau = s.wau := by
  unfold State.linkUp; dsimp only; (repeat' split) <;> simp
@[simp] theorem State.linkUp_jcu (s : State) (w : Saw) : (s.linkUp w).jcu = s.jcu := by
  unfold State.linkUp; dsimp only; (repeat' split) <;> simp
@[simp] theorem State.linkUp_rsv (s : State) (w : Saw) : (s.linkUp w).rsv = s.rsv := by
  unfold State.linkUp; dsimp only; (repeat' split) <;> simp
@[simp] theorem State.linkUp_pending (s : State) (w : Saw) : (s.linkUp w).pending = s.pending := by
  unfold State.linkUp; dsimp only; (repeat' split) <;> simp

/-! ### seekResume -/

@[simp] theorem State.seekResume_stk (s : State) (w : Saw) : (s.seekResume w).stk = s.stk := by
  unfold State.seekResume; split <;> simp
@[simp] theorem State.seekResume_pmn (s : State) (w : Saw) : (s.seekResume w).pmn = s.pmn := by
  unfold State.seekResume; split <;> simp
@[simp] theorem State.seekResume_rsv (s : State) (w : Saw) : (s.seekResume w).rsv = s.rsv := by
  unfold State.seekResume; split <;> simp
@[simp] theorem State.seekResume_pending (s : State) (w : Saw) : (s.seekResume w).pending = s.pending := by
  unfold State.seekResume; split <;> simp

/-! ### resumeNormal -/

@[simp] theorem State.resumeNormal_stk (s : State) (w : Saw) : (s.resumeNormal w).stk = s.stk := by
  unfold State.resumeNormal; (repeat' split) <;> simp
@[simp] theorem State.resumeNormal_pln (s : State) (w : Saw) : (s.resumeNormal w).pln = s.pln := by
  unfold State.resumeNormal; (repeat' split) <;> simp
@[simp] theorem State.resumeNormal_bld (s : State) (w : Saw) : (s.resumeNormal w).bld = s.bld := by
  unfold State.resumeNormal; (repeat' split) <;> simp
@[simp] theorem State.resumeNormal_pmn (s : State) (w : Saw) : (s.resumeNormal w).pmn = s.pmn := by
  unfold State.resumeNormal; (repeat' split) <;> simp
@[simp] theorem State.resumeNormal_wau (s : State) (w : Saw) : (s.resumeNormal w).wau = s.wau := by
  unfold State.resumeNormal; (repeat' split) <;> simp
@[simp] theorem State.resumeNormal_jcu (s : State) (w : Saw) : (s.resumeNormal w).jcu = s.jcu := by
  unfold State.resumeNormal; (repeat' split) <;> simp
@[simp] theorem State.resumeNormal_olc (s : State) (w : Saw) : (s.resumeNormal w).olc = s.olc := by
  unfold State.resumeNormal; (repeat' split) <;> simp
@[simp] theorem State.resumeNormal_rsv (s : State) (w : Saw) : (s.resumeNormal w).rsv = s.rsv := by
  unfold State.resumeNormal; (repeat' split) <;> simp
@[simp] theorem State.resumeNormal_pending (s : State) (w : Saw) : (s.resumeNormal w).pending = s.pending := by
  unfold State.resumeNormal; (repeat' split) <;> simp

/-! ### resumeSaw -/

@[simp] theorem State.resumeSaw_stk (s : State) (w : Saw) (c : Context) : (s.resumeSaw w c).stk = s.stk := by
  unfold State.resumeSaw; dsimp only; split <;> simp
@[simp] theorem State.resumeSaw_pmn (s : State) (w : Saw) (c : Context) : (s.resumeSaw w c).pmn = s.pmn := by
  unfold State.resumeSaw; dsimp only; split <;> simp
@[simp] theorem State.resumeSaw_rsv (s : State) (w : Saw) (c : Context) : (s.resumeSaw w c).rsv = s.rsv := by
  unfold State.resumeSaw; dsimp only; split <;> simp
@[simp] theorem State.resumeSaw_pending (s : State) (w : Saw) (c : Context) : (s.resumeSaw w c).pending = s.pending := by
  unfold State.resumeSaw; dsimp only; split <;> simp

/-! ### finishPass -/

@[simp] theorem State.finishPass_stk (s : State) (w : Saw) (p : Plan) (q : Pass) : (s.finishPass w p q).stk = s.stk := by
  simp [State.finishPass]
@[simp] theorem State.finishPass_pmn (s : State) (w : Saw) (p : Plan) (q : Pass) : (s.finishPass w p q).pmn = s.pmn := by
  simp [State.finishPass]
@[simp] theorem State.finishPass_rsv (s : State) (w : Saw) (p : Plan) (q : Pass) : (s.finishPass w p q).rsv = s.rsv := by
  simp [State.finishPass]
@[simp] theorem State.finishPass_pending (s : State) (w : Saw) (p : Plan) (q : Pass) : (s.finishPass w p q).pending = s.pending := by
  simp [State.finishPass]

/-! ### faultOutside -/

@[simp] theorem State.faultOutside_stk (s : State) (w : Saw) (c : Cause) : (s.faultOutside w c).stk = s.stk := by
  simp [State.faultOutside]
@[simp] theorem State.faultOutside_pln (s : State) (w : Saw) (c : Cause) : (s.faultOutside w c).pln = s.pln := by
  simp [State.faultOutside]
@[simp] theorem State.faultOutside_bld (s : State) (w : Saw) (c : Cause) : (s.faultOutside w c).bld = s.bld := by
  simp [State.faultOutside]
@[simp] theorem State.faultOutside_pmn (s : State) (w : Saw) (c : Cause) : (s.faultOutside w c).pmn = s.pmn := by
  simp [State.faultOutside]
@[simp] theorem State.faultOutside_wau (s : State) (w : Saw) (c : Cause) : (s.faultOutside w c).wau = s.wau := by
  simp [State.faultOutside]
@[simp] theorem State.faultOutside_jcu (s : State) (w : Saw) (c : Cause) : (s.faultOutside w c).jcu = s.jcu := by
  simp [State.faultOutside]
@[simp] theorem State.faultOutside_rsv (s : State) (w : Saw) (c : Cause) : (s.faultOutside w c).rsv = s.rsv := by
  simp [State.faultOutside]
@[simp] theorem State.faultOutside_pending (s : State) (w : Saw) (c : Cause) : (s.faultOutside w c).pending = s.pending := by
  simp [State.faultOutside]

/-! ### putChannel -/

@[simp] theorem State.putChannel_stk (s : State) (c : Chan) (r : Channel) : (s.putChannel c r).stk = s.stk := by
  unfold State.putChannel; (repeat' split) <;> simp
@[simp] theorem State.putChannel_pln (s : State) (c : Chan) (r : Channel) : (s.putChannel c r).pln = s.pln := by
  unfold State.putChannel; (repeat' split) <;> simp
@[simp] theorem State.putChannel_sdp (s : State) (c : Chan) (r : Channel) : (s.putChannel c r).sdp = s.sdp := by
  unfold State.putChannel; (repeat' split) <;> simp
@[simp] theorem State.putChannel_bld (s : State) (c : Chan) (r : Channel) : (s.putChannel c r).bld = s.bld := by
  unfold State.putChannel; (repeat' split) <;> simp
@[simp] theorem State.putChannel_wau (s : State) (c : Chan) (r : Channel) : (s.putChannel c r).wau = s.wau := by
  unfold State.putChannel; (repeat' split) <;> simp
@[simp] theorem State.putChannel_jcu (s : State) (c : Chan) (r : Channel) : (s.putChannel c r).jcu = s.jcu := by
  unfold State.putChannel; (repeat' split) <;> simp
@[simp] theorem State.putChannel_rsv (s : State) (c : Chan) (r : Channel) : (s.putChannel c r).rsv = s.rsv := by
  unfold State.putChannel; (repeat' split) <;> simp
@[simp] theorem State.putChannel_pending (s : State) (c : Chan) (r : Channel) : (s.putChannel c r).pending = s.pending := by
  unfold State.putChannel; (repeat' split) <;> simp

/-! ### eachChannel -/

@[simp] theorem State.eachChannel_stk (cs : List Chan) (f : Chan → Channel → Channel) :
    ∀ s : State, (s.eachChannel cs f).stk = s.stk := by
  induction cs with
  | nil => exact fun s => rfl
  | cons c cs ih => intro s; simp only [State.eachChannel, List.foldl_cons] at ih ⊢; rw [ih]; simp
@[simp] theorem State.eachChannel_pln (cs : List Chan) (f : Chan → Channel → Channel) :
    ∀ s : State, (s.eachChannel cs f).pln = s.pln := by
  induction cs with
  | nil => exact fun s => rfl
  | cons c cs ih => intro s; simp only [State.eachChannel, List.foldl_cons] at ih ⊢; rw [ih]; simp
@[simp] theorem State.eachChannel_sdp (cs : List Chan) (f : Chan → Channel → Channel) :
    ∀ s : State, (s.eachChannel cs f).sdp = s.sdp := by
  induction cs with
  | nil => exact fun s => rfl
  | cons c cs ih => intro s; simp only [State.eachChannel, List.foldl_cons] at ih ⊢; rw [ih]; simp
@[simp] theorem State.eachChannel_bld (cs : List Chan) (f : Chan → Channel → Channel) :
    ∀ s : State, (s.eachChannel cs f).bld = s.bld := by
  induction cs with
  | nil => exact fun s => rfl
  | cons c cs ih => intro s; simp only [State.eachChannel, List.foldl_cons] at ih ⊢; rw [ih]; simp
@[simp] theorem State.eachChannel_wau (cs : List Chan) (f : Chan → Channel → Channel) :
    ∀ s : State, (s.eachChannel cs f).wau = s.wau := by
  induction cs with
  | nil => exact fun s => rfl
  | cons c cs ih => intro s; simp only [State.eachChannel, List.foldl_cons] at ih ⊢; rw [ih]; simp
@[simp] theorem State.eachChannel_jcu (cs : List Chan) (f : Chan → Channel → Channel) :
    ∀ s : State, (s.eachChannel cs f).jcu = s.jcu := by
  induction cs with
  | nil => exact fun s => rfl
  | cons c cs ih => intro s; simp only [State.eachChannel, List.foldl_cons] at ih ⊢; rw [ih]; simp
@[simp] theorem State.eachChannel_rsv (cs : List Chan) (f : Chan → Channel → Channel) :
    ∀ s : State, (s.eachChannel cs f).rsv = s.rsv := by
  induction cs with
  | nil => exact fun s => rfl
  | cons c cs ih => intro s; simp only [State.eachChannel, List.foldl_cons] at ih ⊢; rw [ih]; simp
@[simp] theorem State.eachChannel_pending (cs : List Chan) (f : Chan → Channel → Channel) :
    ∀ s : State, (s.eachChannel cs f).pending = s.pending := by
  induction cs with
  | nil => exact fun s => rfl
  | cons c cs ih => intro s; simp only [State.eachChannel, List.foldl_cons] at ih ⊢; rw [ih]; simp

/-! ### markEstimated -/

@[simp] theorem State.markEstimated_stk (s : State) (w : Saw) : (s.markEstimated w).stk = s.stk := by
  unfold State.markEstimated; (repeat' split) <;> simp
@[simp] theorem State.markEstimated_pln (s : State) (w : Saw) : (s.markEstimated w).pln = s.pln := by
  unfold State.markEstimated; (repeat' split) <;> simp
@[simp] theorem State.markEstimated_sdp (s : State) (w : Saw) : (s.markEstimated w).sdp = s.sdp := by
  unfold State.markEstimated; (repeat' split) <;> simp
@[simp] theorem State.markEstimated_bld (s : State) (w : Saw) : (s.markEstimated w).bld = s.bld := by
  unfold State.markEstimated; (repeat' split) <;> simp
@[simp] theorem State.markEstimated_pmn (s : State) (w : Saw) : (s.markEstimated w).pmn = s.pmn := by
  unfold State.markEstimated; (repeat' split) <;> simp
@[simp] theorem State.markEstimated_wau (s : State) (w : Saw) : (s.markEstimated w).wau = s.wau := by
  unfold State.markEstimated; (repeat' split) <;> simp
@[simp] theorem State.markEstimated_olc (s : State) (w : Saw) : (s.markEstimated w).olc = s.olc := by
  unfold State.markEstimated; (repeat' split) <;> simp
@[simp] theorem State.markEstimated_rsv (s : State) (w : Saw) : (s.markEstimated w).rsv = s.rsv := by
  unfold State.markEstimated; (repeat' split) <;> simp
@[simp] theorem State.markEstimated_pending (s : State) (w : Saw) : (s.markEstimated w).pending = s.pending := by
  unfold State.markEstimated; (repeat' split) <;> simp

/-! ### goSilent -/

@[simp] theorem State.goSilent_stk (s : State) (c : LossCause) (b : Bool) : (s.goSilent c b).stk = s.stk := rfl
@[simp] theorem State.goSilent_pln (s : State) (c : LossCause) (b : Bool) : (s.goSilent c b).pln = s.pln := rfl
@[simp] theorem State.goSilent_sdp (s : State) (c : LossCause) (b : Bool) : (s.goSilent c b).sdp = s.sdp := rfl
@[simp] theorem State.goSilent_bld (s : State) (c : LossCause) (b : Bool) : (s.goSilent c b).bld = s.bld := rfl
@[simp] theorem State.goSilent_pmn (s : State) (c : LossCause) (b : Bool) : (s.goSilent c b).pmn = s.pmn := rfl
@[simp] theorem State.goSilent_jcu (s : State) (c : LossCause) (b : Bool) : (s.goSilent c b).jcu = s.jcu := rfl
@[simp] theorem State.goSilent_pending (s : State) (c : LossCause) (b : Bool) : (s.goSilent c b).pending = s.pending := rfl
@[simp] theorem State.goSilent_rsv (s : State) (c : LossCause) (b : Bool) : (s.goSilent c b).rsv = s.rsv.lose c b := rfl

/-- A part gone silent does not run, whatever the cause. -/
@[simp] theorem State.goSilent_running (s : State) (c : LossCause) (b : Bool) : (s.goSilent c b).running = false := by
  cases c <;> simp [State.running, Retention.lose]

/-- What a start can do: made whole, or silent after it with the mark kept only by a warm start. -/
theorem State.startOrCut_cases (s : State) (inputs : Inputs) :
    s.startOrCut inputs = s.start inputs ∨
      s.startOrCut inputs = (s.start inputs).goSilent .mainPower ((s.start inputs).rsv.startKind == .cold) := by
  unfold State.startOrCut
  cases inputs.cut
  · exact .inl rfl
  · exact .inr rfl

end Sys2Proof.Machine
end

