-- ==== Sys2Proof/Laws/PerInstr.lean ====
section
/-! SUPPORT. A law of every command as it is written: the frame of a command that can be sent fits the length byte, 1 to 240
(R209, R216). -/

namespace Sys2Proof

set_option linter.unusedSimpArgs false

theorem length_bytesU8 (n : Nat) : (bytesU8 n).length = 1 := rfl
theorem length_bytesU16 (n : Nat) : (bytesU16 n).length = 2 := rfl
theorem length_bytesU32 (n : Nat) : (bytesU32 n).length = 4 := rfl
theorem length_bytesS16 (i : Int) : (bytesS16 i).length = 2 := rfl

/-- A list of items of at most `k` bytes each takes its count byte and at most `k` bytes an item. -/
theorem length_bytesList_le {α : Type} (item : α → List Byte) (k : Nat) (xs : List α)
    (h : ∀ x ∈ xs, (item x).length ≤ k) : (bytesList item xs).length ≤ 1 + k * xs.length := by
  have fold : ∀ ys : List α, (∀ y ∈ ys, (item y).length ≤ k) → (ys.flatMap item).length ≤ k * ys.length := by
    intro ys
    induction ys with
    | nil => intro _; exact Nat.le_refl _
    | cons y ys ih =>
      intro hy
      have := ih fun z hz => hy z (List.mem_cons_of_mem _ hz)
      have := hy y List.mem_cons_self
      simp only [List.flatMap_cons, List.length_append, List.length_cons, Nat.mul_succ]
      omega
  have := fold xs h
  simp only [bytesList, List.length_append, length_bytesU8]
  omega

/-- At most 4 flaws take at most 33 bytes. -/
theorem length_flaws_le {fs : List Flaw} (h : wfFlaws fs = true) : (bytesList Flaw.bytes fs).length ≤ 33 := by
  have := length_bytesList_le Flaw.bytes 8 fs fun f _ => Nat.le_refl 8
  simp only [wfFlaws, Bool.and_eq_true, decide_eq_true_eq] at h
  omega

/-- A strip takes at most 27 bytes. -/
theorem length_strip_le {t : Strip} (h : t.wf = true) : t.bytes.length ≤ 27 := by
  have := length_bytesList_le Piece.bytes 4 t.pieces fun p _ => Nat.le_refl 4
  simp only [Strip.wf, Bool.and_eq_true, decide_eq_true_eq] at h
  simp only [Strip.bytes, List.length_append, length_bytesU16]
  omega

/-- At most 8 strips take at most 217 bytes. -/
theorem length_strips_le {ss : List Strip} (h : wfStrips ss = true) : (bytesList Strip.bytes ss).length ≤ 217 := by
  simp only [wfStrips, Bool.and_eq_true, decide_eq_true_eq, List.all_eq_true] at h
  have := length_bytesList_le Strip.bytes 27 ss fun t ht => length_strip_le (h.2 t ht)
  omega

/-- At most 3 spans take at most 7 bytes. -/
theorem length_spans_le {ss : List Span} (h : ss.length ≤ 3) : (bytesList Span.bytes ss).length ≤ 7 := by
  have := length_bytesList_le Span.bytes 2 ss fun f _ => Nat.le_refl 2
  omega

/-- A channel set takes at most 8 bytes. -/
theorem length_set_le {s : List Nat} (h : wfSet s = true) : (bytesList bytesU8 s).length ≤ 8 := by
  have := length_bytesList_le bytesU8 1 s fun f _ => Nat.le_refl 1
  simp only [wfSet, Bool.and_eq_true, decide_eq_true_eq] at h
  omega

namespace Laws.Framing

/-- The body of a command that can be sent fits one frame. -/
def Statement (i : Instr) : Prop := i.wf = true → i.body.length ≤ 240

theorem defineMaterial (code hardness feed : Nat) : Statement (.defineMaterial code hardness feed) := by
  intro _; exact Nat.le_of_ble_eq_true rfl

theorem dropMaterial (code : Nat) : Statement (.dropMaterial code) := by
  intro _; exact Nat.le_of_ble_eq_true rfl

theorem readMaterial (code : Nat) : Statement (.readMaterial code) := by
  intro _; exact Nat.le_of_ble_eq_true rfl

theorem createSlab (number material thickness lotNumber lotSeq length width basis : Nat) (flaws : List Flaw) : Statement (.createSlab number material thickness lotNumber lotSeq length width basis flaws) := by
  intro h
  simp only [Instr.wf, Bool.and_eq_true, decide_eq_true_eq] at h
  have := length_flaws_le h.2
  simp only [Instr.body, List.length_cons, List.length_append, length_bytesU8, length_bytesU16, length_bytesU32]
  omega

theorem amendSlab (number material thickness lotNumber lotSeq basis : Nat) (flaws : List Flaw) : Statement (.amendSlab number material thickness lotNumber lotSeq basis flaws) := by
  intro h
  simp only [Instr.wf, Bool.and_eq_true, decide_eq_true_eq] at h
  have := length_flaws_le h.2
  simp only [Instr.body, List.length_cons, List.length_append, length_bytesU8, length_bytesU16, length_bytesU32]
  omega

theorem scrapSlab (number : Nat) : Statement (.scrapSlab number) := by
  intro _; exact Nat.le_of_ble_eq_true rfl

theorem retireSlab (number : Nat) : Statement (.retireSlab number) := by
  intro _; exact Nat.le_of_ble_eq_true rfl

theorem readSlab (number : Nat) : Statement (.readSlab number) := by
  intro _; exact Nat.le_of_ble_eq_true rfl

theorem findSlabs (material thickness minLength minWidth lotNumber : Nat) : Statement (.findSlabs material thickness minLength minWidth lotNumber) := by
  intro _; exact Nat.le_of_ble_eq_true rfl

theorem readRack (rack : Nat) : Statement (.readRack rack) := by
  intro _; exact Nat.le_of_ble_eq_true rfl

theorem moveSlab (number rack position : Nat) : Statement (.moveSlab number rack position) := by
  intro _; exact Nat.le_of_ble_eq_true rfl

theorem startAudit (spans : List Span) : Statement (.startAudit spans) := by
  intro h
  simp only [Instr.wf, Bool.and_eq_true, decide_eq_true_eq] at h
  have := length_spans_le h.1
  simp only [Instr.body, List.length_cons, List.length_append, length_bytesU8, length_bytesU16, length_bytesU32]
  omega

theorem verifySlab (number rack position : Nat) : Statement (.verifySlab number rack position) := by
  intro _; exact Nat.le_of_ble_eq_true rfl

theorem endAudit : Statement .endAudit := by
  intro _; exact Nat.le_of_ble_eq_true rfl

theorem abortAudit : Statement .abortAudit := by
  intro _; exact Nat.le_of_ble_eq_true rfl

theorem readAudit : Statement .readAudit := by
  intro _; exact Nat.le_of_ble_eq_true rfl

theorem createPlan (number job slab kerf : Nat) (strips : List Strip) : Statement (.createPlan number job slab kerf strips) := by
  intro h
  simp only [Instr.wf, Bool.and_eq_true, decide_eq_true_eq] at h
  have := length_strips_le h.2
  simp only [Instr.body, List.length_cons, List.length_append, length_bytesU8, length_bytesU16, length_bytesU32]
  omega

theorem revisePlan (number kerf : Nat) (strips : List Strip) : Statement (.revisePlan number kerf strips) := by
  intro h
  simp only [Instr.wf, Bool.and_eq_true, decide_eq_true_eq] at h
  have := length_strips_le h.2
  simp only [Instr.body, List.length_cons, List.length_append, length_bytesU8, length_bytesU16, length_bytesU32]
  omega

theorem checkPlan (number : Nat) : Statement (.checkPlan number) := by
  intro _; exact Nat.le_of_ble_eq_true rfl

theorem releasePlan (number saw : Nat) : Statement (.releasePlan number saw) := by
  intro _; exact Nat.le_of_ble_eq_true rfl

theorem cancelPlan (number : Nat) : Statement (.cancelPlan number) := by
  intro _; exact Nat.le_of_ble_eq_true rfl

theorem abandonPlan (number : Nat) : Statement (.abandonPlan number) := by
  intro _; exact Nat.le_of_ble_eq_true rfl

theorem readPlan (number : Nat) : Statement (.readPlan number) := by
  intro _; exact Nat.le_of_ble_eq_true rfl

theorem readPassList (number : Nat) : Statement (.readPassList number) := by
  intro _; exact Nat.le_of_ble_eq_true rfl

theorem retirePlan (number : Nat) : Statement (.retirePlan number) := by
  intro _; exact Nat.le_of_ble_eq_true rfl

theorem configureSaw (saw demand rate : Nat) : Statement (.configureSaw saw demand rate) := by
  intro _; exact Nat.le_of_ble_eq_true rfl

theorem readSaw (saw : Nat) : Statement (.readSaw saw) := by
  intro _; exact Nat.le_of_ble_eq_true rfl

theorem readContext (saw : Nat) : Statement (.readContext saw) := by
  intro _; exact Nat.le_of_ble_eq_true rfl

theorem resumeSaw (saw : Nat) : Statement (.resumeSaw saw) := by
  intro _; exact Nat.le_of_ble_eq_true rfl

theorem addBlade (number kerf price life : Nat) : Statement (.addBlade number kerf price life) := by
  intro _; exact Nat.le_of_ble_eq_true rfl

theorem amendBlade (number price life : Nat) : Statement (.amendBlade number price life) := by
  intro _; exact Nat.le_of_ble_eq_true rfl

theorem fitBlade (number saw : Nat) : Statement (.fitBlade number saw) := by
  intro _; exact Nat.le_of_ble_eq_true rfl

theorem removeBlade (saw : Nat) : Statement (.removeBlade saw) := by
  intro _; exact Nat.le_of_ble_eq_true rfl

theorem retireBlade (number : Nat) : Statement (.retireBlade number) := by
  intro _; exact Nat.le_of_ble_eq_true rfl

theorem readBlade (number : Nat) : Statement (.readBlade number) := by
  intro _; exact Nat.le_of_ble_eq_true rfl

theorem setChannel (channel range filter : Nat) (low high : Int) (raw : Int) : Statement (.setChannel channel range filter low high raw) := by
  intro _; exact Nat.le_of_ble_eq_true rfl

theorem readChannel (channel : Nat) : Statement (.readChannel channel) := by
  intro _; exact Nat.le_of_ble_eq_true rfl

theorem calBegin (set : List Nat) : Statement (.calBegin set) := by
  intro h
  simp only [Instr.wf, Bool.and_eq_true, decide_eq_true_eq] at h
  have := length_set_le h
  simp only [Instr.body, List.length_cons, List.length_append, length_bytesU8, length_bytesU16, length_bytesU32]
  omega

theorem calPoint (set : List Nat) (point : Nat) : Statement (.calPoint set point) := by
  intro h
  simp only [Instr.wf, Bool.and_eq_true, decide_eq_true_eq] at h
  have := length_set_le h.1
  simp only [Instr.body, List.length_cons, List.length_append, length_bytesU8, length_bytesU16, length_bytesU32]
  omega

theorem calEnd (set : List Nat) (mode : Nat) : Statement (.calEnd set mode) := by
  intro h
  simp only [Instr.wf, Bool.and_eq_true, decide_eq_true_eq] at h
  have := length_set_le h.1
  simp only [Instr.body, List.length_cons, List.length_append, length_bytesU8, length_bytesU16, length_bytesU32]
  omega

theorem calAbort (set : List Nat) : Statement (.calAbort set) := by
  intro h
  simp only [Instr.wf, Bool.and_eq_true, decide_eq_true_eq] at h
  have := length_set_le h
  simp only [Instr.body, List.length_cons, List.length_append, length_bytesU8, length_bytesU16, length_bytesU32]
  omega

theorem setPlant (rating hold restart reduce turbidity sump waterRate grace : Nat) : Statement (.setPlant rating hold restart reduce turbidity sump waterRate grace) := by
  intro _; exact Nat.le_of_ble_eq_true rfl

theorem readPlant : Statement .readPlant := by
  intro _; exact Nat.le_of_ble_eq_true rfl

theorem openJob (number lotNumber quote : Nat) : Statement (.openJob number lotNumber quote) := by
  intro _; exact Nat.le_of_ble_eq_true rfl

theorem amendJob (number quote lotNumber : Nat) : Statement (.amendJob number quote lotNumber) := by
  intro _; exact Nat.le_of_ble_eq_true rfl

theorem readJob (number : Nat) : Statement (.readJob number) := by
  intro _; exact Nat.le_of_ble_eq_true rfl

theorem closeJob (number : Nat) : Statement (.closeJob number) := by
  intro _; exact Nat.le_of_ble_eq_true rfl

theorem retireJob (number : Nat) : Statement (.retireJob number) := by
  intro _; exact Nat.le_of_ble_eq_true rfl

theorem readNotices : Statement .readNotices := by
  intro _; exact Nat.le_of_ble_eq_true rfl

theorem setNotices (enable : BitVec 16) (master : Nat) : Statement (.setNotices enable master) := by
  intro _; exact Nat.le_of_ble_eq_true rfl

theorem readState (backup : Bool) : Statement (.readState backup) := by
  intro _; exact Nat.le_of_ble_eq_true rfl

theorem wipeStore : Statement .wipeStore := by
  intro _; exact Nat.le_of_ble_eq_true rfl

theorem unknownRequest (kind : Byte) : Statement (.unknownRequest kind) := by
  intro _; exact Nat.le_of_ble_eq_true rfl

theorem busyRequest (kind : Byte) : Statement (.busyRequest kind) := by
  intro _; exact Nat.le_of_ble_eq_true rfl

theorem replySent : Statement .replySent := by
  intro _; exact Nat.le_of_ble_eq_true rfl

theorem badFrame (link : Link) : Statement (.badFrame link) := by
  intro _; exact Nat.le_of_ble_eq_true rfl

theorem byteGapTimeout (link : Link) (byte : Byte) : Statement (.byteGapTimeout link byte) := by
  intro _; exact Nat.le_of_ble_eq_true rfl

theorem hello (w : Saw) (maxFeed : Nat) : Statement (.hello w maxFeed) := by
  intro _; exact Nat.le_of_ble_eq_true rfl

theorem loaded (w : Saw) (plan : Nat) : Statement (.loaded w plan) := by
  intro _; exact Nat.le_of_ble_eq_true rfl

theorem start (w : Saw) (tag : Nat) : Statement (.start w tag) := by
  intro _; exact Nat.le_of_ble_eq_true rfl

theorem done (w : Saw) (tag : Nat) : Statement (.done w tag) := by
  intro _; exact Nat.le_of_ble_eq_true rfl

theorem held (w : Saw) (tag position : Nat) : Statement (.held w tag position) := by
  intro _; exact Nat.le_of_ble_eq_true rfl

theorem fault (w : Saw) (tag : Option Nat) (position : Nat) (cause : SawCause) : Statement (.fault w tag position cause) := by
  intro _; exact Nat.le_of_ble_eq_true rfl

theorem status (w : Saw) (position : Nat) : Statement (.status w position) := by
  intro _; exact Nat.le_of_ble_eq_true rfl

theorem sawMessageMalformed (w : Saw) (kind : Byte) : Statement (.sawMessageMalformed w kind) := by
  intro _; exact Nat.le_of_ble_eq_true rfl

theorem linkSilence (w : Saw) : Statement (.linkSilence w) := by
  intro _; exact Nat.le_of_ble_eq_true rfl

theorem holdTimerExpiry (w : Saw) : Statement (.holdTimerExpiry w) := by
  intro _; exact Nat.le_of_ble_eq_true rfl

theorem interlockDrop (w : Saw) : Statement (.interlockDrop w) := by
  intro _; exact Nat.le_of_ble_eq_true rfl

theorem interlockReturn (w : Saw) : Statement (.interlockReturn w) := by
  intro _; exact Nat.le_of_ble_eq_true rfl

theorem channelSample (c : Chan) (raw : Int) : Statement (.channelSample c raw) := by
  intro _; exact Nat.le_of_ble_eq_true rfl

theorem graceExpiry (c : Chan) : Statement (.graceExpiry c) := by
  intro _; exact Nat.le_of_ble_eq_true rfl

theorem fieldSupplyLoss : Statement .fieldSupplyLoss := by
  intro _; exact Nat.le_of_ble_eq_true rfl

theorem fieldSupplyReturn (raw : Seven Int) : Statement (.fieldSupplyReturn raw) := by
  intro _; exact Nat.le_of_ble_eq_true rfl

theorem capacityEvaluation : Statement .capacityEvaluation := by
  intro _; exact Nat.le_of_ble_eq_true rfl

theorem meteringInterval (w : Saw) : Statement (.meteringInterval w) := by
  intro _; exact Nat.le_of_ble_eq_true rfl

theorem resetRelease (inputs : Inputs) : Statement (.resetRelease inputs) := by
  intro _; exact Nat.le_of_ble_eq_true rfl

theorem powerReturn (inputs : Inputs) : Statement (.powerReturn inputs) := by
  intro _; exact Nat.le_of_ble_eq_true rfl

theorem powerLoss (cause : LossCause) : Statement (.powerLoss cause) := by
  intro _; exact Nat.le_of_ble_eq_true rfl

theorem backupFailure : Statement .backupFailure := by
  intro _; exact Nat.le_of_ble_eq_true rfl

end Laws.Framing

end Sys2Proof
end

