-- ==== Sys2Proof/Laws/Requests.lean ====
section
/-! SUPPORT. What taking a request, a saw's message or an event does, once for all of them. -/

namespace Sys2Proof.Machine

/-- A ready part performs the request and answers it. -/
theorem hostRequest_ready {s : State} (h : s.ready) (kind : Byte) (perform : State → Answer × State) :
    hostRequest kind perform s = .next ((perform s).2.sendReply kind (perform s).1) := by
  simp [hostRequest, h.1, h.2]

theorem sendReply_refused (s : State) (kind : Byte) (st : Status) :
    (refused st s).2.sendReply kind (refused st s).1 = s.answered kind st [] := rfl

theorem sendReply_performed (s : State) (kind : Byte) (fields : List Field) :
    (performed fields s).2.sendReply kind (performed fields s).1 = s.answered kind .ok fields := rfl

/-- A request that is not taken while READY owes a BUSY answer. -/
theorem hostRequest_serving {s : State} (hr : s.running = true) (hs : s.olc.slot = .serving) (kind : Byte)
    (perform : State → Answer × State) : hostRequest kind perform s = .next (s.oweBusy kind) := by
  simp [hostRequest, hr, hs]

theorem hostRequest_silent {s : State} (hr : s.running = false) (kind : Byte) (perform : State → Answer × State) :
    hostRequest kind perform s = .next s := by simp [hostRequest, hr]

/-- Whatever a request meets, it goes on. -/
theorem hostRequest_next (kind : Byte) (perform : State → Answer × State) (s : State) :
    ∃ t, hostRequest kind perform s = .next t := by
  unfold hostRequest
  split
  · split <;> exact ⟨_, rfl⟩
  · exact ⟨_, rfl⟩

theorem sawFrame_link (s : State) (w : Saw) : ((s.sawFrame w).saw w).link = (s.saw w).link := by
  cases w <;> rfl

/-- A message of a linked saw that its rule refuses. -/
theorem sawMessage_refused {s : State} {w : Saw} (h : s.linked w) (kind : Byte) {check : State → Option Status}
    {st : Status} (hc : check (s.sawFrame w) = some st) (handle : State → State) :
    sawMessage w kind check handle s = .next (s.acked w kind st) := by
  simp only [sawMessage, h.1, if_true, sawFrame_link, h.2, hc]
  rfl

/-- A message of a linked saw that its rule takes: ACK, then its handling. -/
theorem sawMessage_taken {s : State} {w : Saw} (h : s.linked w) (kind : Byte) {check : State → Option Status}
    (hc : check (s.sawFrame w) = none) (handle : State → State) :
    sawMessage w kind check handle s = .next (handle (s.acked w kind .ok)) := by
  simp only [sawMessage, h.1, if_true, sawFrame_link, h.2, hc]
  rfl

theorem sawMessage_next (w : Saw) (kind : Byte) (check : State → Option Status) (handle : State → State) (s : State) :
    ∃ t, sawMessage w kind check handle s = .next t := by
  unfold sawMessage
  dsimp only
  split
  · split
    · exact ⟨_, rfl⟩
    · split <;> exact ⟨_, rfl⟩
  · exact ⟨_, rfl⟩

theorem event_running {s : State} (h : s.running = true) (handle : State → State) : event handle s = .next (handle s) := by
  simp [event, h]

theorem event_next (handle : State → State) (s : State) : ∃ t, event handle s = .next t := by
  unfold event
  split <;> exact ⟨_, rfl⟩

end Sys2Proof.Machine
end

