-- ==== Sys2Proof/Laws/Tables.lean ====
section
/-! SUPPORT. What adding, changing and removing records does to a lookup by number, to the length of a table and to its
order. -/

namespace Sys2Proof.Machine

variable {α : Type} {key : α → Nat}

/-! ## Lookups -/

@[simp] theorem findBy_nil (n : Nat) : findBy key n [] = none := rfl

theorem findBy_cons (n : Nat) (x : α) (xs : List α) :
    findBy key n (x :: xs) = if key x = n then some x else findBy key n xs := by
  by_cases h : key x = n <;> simp [findBy, h]

/-- A lookup that succeeds gives a record of the table with that number. -/
theorem findBy_some {n : Nat} {xs : List α} {r : α} (h : findBy key n xs = some r) : r ∈ xs ∧ key r = n := by
  induction xs with
  | nil => simp at h
  | cons x xs ih =>
    rw [findBy_cons] at h
    split at h
    · cases h; exact ⟨.head _, by assumption⟩
    · exact ⟨.tail _ (ih h).1, (ih h).2⟩

/-- A lookup fails exactly when no record carries the number. -/
theorem findBy_none {n : Nat} {xs : List α} : findBy key n xs = none ↔ ∀ x ∈ xs, key x ≠ n := by
  simp [findBy]

theorem findBy_insertBy_self {r : α} {xs : List α} (h : findBy key (key r) xs = none) :
    findBy key (key r) (insertBy key r xs) = some r := by
  induction xs with
  | nil => simp [insertBy, findBy_cons]
  | cons x xs ih =>
    have hx : key x ≠ key r := findBy_none.1 h x (.head _)
    rw [findBy_cons, if_neg hx] at h
    simp only [insertBy]
    split
    · simp [findBy_cons]
    · rw [findBy_cons, if_neg hx, ih h]

theorem findBy_insertBy_ne {r : α} {xs : List α} {n : Nat} (h : n ≠ key r) :
    findBy key n (insertBy key r xs) = findBy key n xs := by
  induction xs with
  | nil => simp [insertBy, findBy_cons, Ne.symm h]
  | cons x xs ih =>
    simp only [insertBy]
    split
    · rw [findBy_cons, if_neg (Ne.symm h)]
    · rw [findBy_cons, findBy_cons, ih]

theorem findBy_map {f : α → α} (hk : ∀ x, key (f x) = key x) (n : Nat) (xs : List α) :
    findBy key n (xs.map f) = (findBy key n xs).map f := by
  induction xs with
  | nil => rfl
  | cons x xs ih =>
    rw [List.map_cons, findBy_cons, findBy_cons, hk, ih]
    split <;> rfl

theorem findBy_updateBy {f : α → α} (hk : ∀ x, key (f x) = key x) (n m : Nat) (xs : List α) :
    findBy key m (updateBy key n f xs) = if m = n then (findBy key m xs).map f else findBy key m xs := by
  induction xs with
  | nil => simp [updateBy]
  | cons x xs ih =>
    have ih' : findBy key m (List.map (fun x => if key x = n then f x else x) xs) = _ := ih
    simp only [updateBy, List.map_cons]
    rw [findBy_cons, findBy_cons, ih']
    by_cases hx : key x = n <;> by_cases hm : m = n <;> by_cases hxm : key x = m <;> simp_all

theorem findBy_updateBy_self {f : α → α} (hk : ∀ x, key (f x) = key x) (n : Nat) (xs : List α) :
    findBy key n (updateBy key n f xs) = (findBy key n xs).map f := by
  rw [findBy_updateBy hk, if_pos rfl]

theorem findBy_updateBy_ne {f : α → α} (hk : ∀ x, key (f x) = key x) {n m : Nat} (h : m ≠ n) (xs : List α) :
    findBy key m (updateBy key n f xs) = findBy key m xs := by
  rw [findBy_updateBy hk, if_neg h]

theorem findBy_removeBy (n m : Nat) (xs : List α) :
    findBy key m (removeBy key n xs) = if m = n then none else findBy key m xs := by
  induction xs with
  | nil => simp [removeBy]
  | cons x xs ih =>
    have ih' : findBy key m (List.filter (fun x => key x != n) xs) = _ := ih
    simp only [removeBy, List.filter_cons]
    by_cases hx : key x = n
    · by_cases hm : m = n
      · subst hm; simpa [hx] using ih'
      · have : key x ≠ m := fun e => hm (e ▸ hx)
        simp [hx, ih', hm, findBy_cons, show ¬ n = m from fun e => hm e.symm]
    · by_cases hm : m = n
      · subst hm; simp [hx, ih', findBy_cons]
      · simp [hx, ih', hm, findBy_cons]

/-! ## Lengths -/

@[simp] theorem length_insertBy (r : α) (xs : List α) : (insertBy key r xs).length = xs.length + 1 := by
  induction xs with
  | nil => rfl
  | cons x xs ih => simp only [insertBy]; split <;> simp [ih]

@[simp] theorem length_updateBy (n : Nat) (f : α → α) (xs : List α) : (updateBy key n f xs).length = xs.length := by
  simp [updateBy]

theorem length_removeBy (n : Nat) (xs : List α) : (removeBy key n xs).length ≤ xs.length := List.length_filter_le ..

/-! ## Members -/

theorem mem_insertBy {r x : α} {xs : List α} : x ∈ insertBy key r xs ↔ x = r ∨ x ∈ xs := by
  induction xs with
  | nil => simp [insertBy]
  | cons y ys ih =>
    simp only [insertBy]
    split
    · simp
    · simp [ih, or_left_comm]

theorem mem_updateBy {n : Nat} {f : α → α} {x : α} {xs : List α} :
    x ∈ updateBy key n f xs ↔ ∃ y ∈ xs, (if key y = n then f y else y) = x := by
  simp [updateBy]

theorem mem_removeBy {n : Nat} {x : α} {xs : List α} : x ∈ removeBy key n xs ↔ x ∈ xs ∧ key x ≠ n := by
  simp [removeBy]

/-! ## Order -/

theorem Rising.insertBy {r : α} {xs : List α} (h : Rising key xs) (hr : findBy key (key r) xs = none) :
    Rising key (insertBy key r xs) := by
  induction xs with
  | nil => simp [Machine.insertBy, Rising]
  | cons x xs ih =>
    have hx : key x ≠ key r := findBy_none.1 hr x (.head _)
    simp only [Machine.insertBy]
    split
    · rename_i hlt
      refine ⟨?_, h⟩
      intro y hy
      rcases List.mem_cons.1 hy with rfl | hy
      · exact hlt
      · exact Nat.lt_trans hlt (h.1 y hy)
    · rename_i hge
      rw [findBy_cons, if_neg hx] at hr
      refine ⟨?_, ih h.2 hr⟩
      intro y hy
      rcases mem_insertBy.1 hy with rfl | hy
      · omega
      · exact h.1 y hy

theorem Rising.map {f : α → α} (hk : ∀ x, key (f x) = key x) {xs : List α} (h : Rising key xs) :
    Rising key (xs.map f) := by
  induction xs with
  | nil => trivial
  | cons x xs ih =>
    refine ⟨?_, ih h.2⟩
    intro y hy
    obtain ⟨z, hz, rfl⟩ := List.mem_map.1 hy
    rw [hk, hk]
    exact h.1 z hz

theorem Rising.updateBy {n : Nat} {f : α → α} (hk : ∀ x, key (f x) = key x) {xs : List α} (h : Rising key xs) :
    Rising key (updateBy key n f xs) :=
  h.map fun x => by split <;> simp [hk]

theorem Rising.filter {p : α → Bool} {xs : List α} (h : Rising key xs) : Rising key (xs.filter p) := by
  induction xs with
  | nil => trivial
  | cons x xs ih =>
    simp only [List.filter_cons]
    split
    · exact ⟨fun y hy => h.1 y ((List.mem_filter.1 hy).1), ih h.2⟩
    · exact ih h.2

theorem Rising.removeBy {n : Nat} {xs : List α} (h : Rising key xs) : Rising key (removeBy key n xs) := h.filter

/-- With rising numbers a record of the table is the one its number finds. -/
theorem Rising.find {xs : List α} (h : Rising key xs) {r : α} (hr : r ∈ xs) : findBy key (key r) xs = some r := by
  induction xs with
  | nil => simp at hr
  | cons x xs ih =>
    rw [findBy_cons]
    rcases List.mem_cons.1 hr with rfl | hr
    · simp
    · rw [if_neg (Nat.ne_of_lt (h.1 r hr)), ih h.2 hr]

end Sys2Proof.Machine
end

