-- ==== Sys2Proof/Laws/Stock.lean ====
section
/-! SUPPORT. What a change of a slab's record, of its place and of its audit mark does, seen through the lookups by slab number
and by rack position. -/

namespace Sys2Proof.Machine

/-! ## Changes of records, seen by number -/

theorem updateSlab_slab? (s : State) (n : Nat) (f : Slab → Slab) (m : Nat)
    (hk : ∀ x, (f x).number = x.number := by intro; rfl) :
    (s.updateSlab n f).slab? m = if m = n then (s.slab? m).map f else s.slab? m :=
  findBy_updateBy (key := Slab.number) hk n m _

theorem updatePlan_plan? (s : State) (n : Nat) (f : Plan → Plan) (m : Nat)
    (hk : ∀ x, (f x).number = x.number := by intro; rfl) :
    (s.updatePlan n f).plan? m = if m = n then (s.plan? m).map f else s.plan? m :=
  findBy_updateBy (key := Plan.number) hk n m _

theorem updateJob_job? (s : State) (n : Nat) (f : Job → Job) (m : Nat)
    (hk : ∀ x, (f x).number = x.number := by intro; rfl) :
    (s.updateJob n f).job? m = if m = n then (s.job? m).map f else s.job? m :=
  findBy_updateBy (key := Job.number) hk n m _

theorem updateBlade_blade? (s : State) (n : Nat) (f : Blade → Blade) (m : Nat)
    (hk : ∀ x, (f x).number = x.number := by intro; rfl) :
    (s.updateBlade n f).blade? m = if m = n then (s.blade? m).map f else s.blade? m :=
  findBy_updateBy (key := Blade.number) hk n m _

/-! ## The rack map -/

theorem clearRack_rackAt? (s : State) (p q : Place) :
    (s.clearRack p).rackAt? q = if q = p then none else s.rackAt? q := by
  simp only [State.clearRack, State.withRackMap, State.rackAt?]
  induction s.stk.rackMap with
  | nil => simp
  | cons e es ih =>
    by_cases hp : e.place = p <;> by_cases hq : e.place = q <;> simp_all

theorem insert_rackAt? (xs : List RackEntry) (p q : Place) (n : Nat) (h : ∀ e ∈ xs, e.place ≠ p) :
    ((insertBy RackEntry.key ⟨p, n⟩ xs).find? fun e => e.place == q).map RackEntry.slab
      = if q = p then some n else (xs.find? fun e => e.place == q).map RackEntry.slab := by
  induction xs with
  | nil =>
    by_cases hq : q = p
    · simp [insertBy, hq]
    · simp [insertBy, hq, beq_false_of_ne (Ne.symm hq)]
  | cons e es ih =>
    have := ih fun e he => h e (.tail _ he)
    have he := h e (.head _)
    simp only [insertBy]
    split
    · by_cases hq : q = p
      · subst hq; simp
      · simp [List.find?_cons, hq, beq_false_of_ne (Ne.symm hq)]
    · by_cases hq : q = p
      · subst hq; simp_all
      · by_cases hq' : e.place = q <;> simp_all

theorem fillRack_rackAt? (s : State) (p q : Place) (n : Nat) :
    (s.fillRack p n).rackAt? q = if q = p then some n else s.rackAt? q := by
  have := insert_rackAt? (s.clearRack p).stk.rackMap p q n fun e he => by
    simpa [State.clearRack, State.withRackMap] using (List.mem_filter.1 he).2
  refine Eq.trans this ?_
  split
  · rfl
  · next h => exact (clearRack_rackAt? s p q).trans (if_neg h)

/-! ## Places and marks -/

/-- A change of place: the record, the rack positions, and nothing else. -/
theorem setPlace_spec {s : State} {n : Nat} {r : Slab} (h : s.slab? n = some r) (target : Option Place) :
    (∀ m, (s.setPlace n target).slab? m = if m = n then some { r with place := target } else s.slab? m) ∧
    (∀ p, (s.setPlace n target).rackAt? p =
      if target = some p then some n else if r.place = some p then none else s.rackAt? p) ∧
    s.setPlace n target =
      { s with stk := { s.stk with slabs := (s.setPlace n target).stk.slabs,
                                   rackMap := (s.setPlace n target).stk.rackMap } } := by
  have e : s.setPlace n target = State.updateSlab (target.elim (r.place.elim s s.clearRack)
      fun p => (r.place.elim s s.clearRack).fillRack p n) n fun r => { r with place := target } := by
    simp only [State.setPlace, h]
  have h1 : (r.place.elim s s.clearRack).stk.slabs = s.stk.slabs := by cases r.place <;> rfl
  have h2 : (target.elim (r.place.elim s s.clearRack)
      fun p => (r.place.elim s s.clearRack).fillRack p n).stk.slabs = s.stk.slabs := by
    cases target <;> exact h1
  rw [e]
  refine ⟨?_, ?_, ?_⟩
  · intro m
    refine (updateSlab_slab? _ n _ m).trans ?_
    simp only [State.slab?, h2]
    split
    · next hh => subst hh; exact congrArg (Option.map _) h
    · rfl
  · intro p
    have hc : (r.place.elim s s.clearRack).rackAt? p = if r.place = some p then none else s.rackAt? p := by
      cases hpl : r.place with
      | none => simp
      | some q => simp [clearRack_rackAt?, eq_comm]
    show (target.elim (r.place.elim s s.clearRack) fun p => (r.place.elim s s.clearRack).fillRack p n).rackAt? p = _
    cases target with
    | none => simpa using hc
    | some q => simp only [Option.elim_some, fillRack_rackAt?, hc, Option.some.injEq, eq_comm]
  · cases r.place <;> cases target <;> rfl

/-- A mark taken off: the record, the counts where it was there, and nothing else. -/
theorem unmark_spec {s : State} {n : Nat} {r : Slab} (h : s.slab? n = some r) (v : Nat) :
    (∀ m, (s.unmark n v).slab? m = if m = n then some { r with mark := false } else s.slab? m) ∧
    s.unmark n v =
      { s with stk := { s.stk with
          slabs := (s.unmark n v).stk.slabs
          audit := if r.mark then { s.stk.audit with marked := s.stk.audit.marked - 1,
                                                      verified := s.stk.audit.verified + v } else s.stk.audit } } := by
  by_cases hm : r.mark = true
  · have e : s.unmark n v = (s.updateSlab n fun r => { r with mark := false }).withAudit fun a =>
        { a with marked := a.marked - 1, verified := a.verified + v } := by simp [State.unmark, h, hm]
    rw [e, if_pos hm]
    refine ⟨fun m => (updateSlab_slab? s n _ m).trans ?_, rfl⟩
    split
    · next hh => subst hh; rw [h]; rfl
    · rfl
  · have e : s.unmark n v = s := by simp [State.unmark, h, hm]
    rw [e, if_neg hm]
    refine ⟨fun m => ?_, rfl⟩
    split
    · next hh =>
      subst hh
      rw [h]
      cases r
      simp_all
    · rfl

/-- What placing a slab that was sighted does (R29, R30, R34, R36). -/
theorem place_spec {s : State} {n : Nat} {r : Slab} (h : s.slab? n = some r) (target : Option Place) :
    (∀ m, (s.place n target).slab? m =
      if m = n then some { r with place := target, missing := false, mark := false } else s.slab? m) ∧
    (∀ p, (s.place n target).rackAt? p =
      if target = some p then some n else if r.place = some p then none else s.rackAt? p) ∧
    s.place n target =
      { s with stk := { s.stk with slabs := (s.place n target).stk.slabs,
                                   rackMap := (s.place n target).stk.rackMap,
                                   audit :=
            let a := s.stk.audit
            if r.mark then { a with marked := a.marked - 1, verified := a.verified + 1 } else a } } := by
  obtain ⟨a1, a2, a3⟩ := setPlace_spec h target
  have b1 := updateSlab_slab? (s.setPlace n target) n (fun r => { r with missing := false })
  have b2 := b1 n
  rw [if_pos rfl, a1, if_pos rfl] at b2
  obtain ⟨c1, c2⟩ := unmark_spec b2 1
  unfold State.place State.sighted
  refine ⟨fun m => ?_, fun p => ?_, ?_⟩
  · rw [c1]; split
    · rfl
    · next h => rw [b1, if_neg h, a1, if_neg h]
  · rw [← a2 p, c2]; rfl
  · rw [c2]
    simp only [State.updateSlab, State.withSlabs]
    rw [a3]

end Sys2Proof.Machine
end

