-- ==== Sys2Proof/Laws/Remnants.lean ====
section
/-! SUPPORT. The search for a free remnant number always ends on one (R17), and the ranking of FIND SLABS is sorted and loses no
slab (R16). -/

namespace Sys2Proof.Machine

/-! ## Remnant numbers -/

/-- The number `k` steps after a counter. -/
def remnantAt (c k : Nat) : Nat := 50000 + (c - 50000 + k) % 15536

theorem remnantAt_zero {c : Nat} (h : 50000 ≤ c ∧ c ≤ 65535) : remnantAt c 0 = c := by
  unfold remnantAt; omega

theorem nextRemnant_at {c : Nat} (k : Nat) : nextRemnant (remnantAt c k) = remnantAt c (k + 1) := by
  unfold nextRemnant remnantAt Config.lastRemnant Config.firstRemnant
  split <;> omega

theorem remnantAt_inj {c i j : Nat} (hi : i < 15536) (hj : j < 15536) (h : remnantAt c i = remnantAt c j) : i = j := by
  unfold remnantAt at h; omega

/-- The search stops at the first free number among those it looks at. -/
theorem freeRemnant_first (slabs : List Slab) (c : Nat) :
    ∀ n i, (∃ j, i ≤ j ∧ j < i + n ∧ findBy Slab.number (remnantAt c j) slabs = none) →
      ∃ k, i ≤ k ∧ k < i + n ∧ freeRemnant slabs n (remnantAt c i) = remnantAt c k ∧
        findBy Slab.number (remnantAt c k) slabs = none ∧
        ∀ j, i ≤ j → j < k → findBy Slab.number (remnantAt c j) slabs ≠ none := by
  intro n
  induction n with
  | zero => intro i ⟨j, h1, h2, _⟩; omega
  | succ n ih =>
    intro i ⟨j, h1, h2, h3⟩
    simp only [freeRemnant]
    by_cases hi : findBy Slab.number (remnantAt c i) slabs = none
    · refine ⟨i, Nat.le_refl _, by omega, by simp [hi], hi, fun j a b => by omega⟩
    · have hne : i ≠ j := fun e => hi (e ▸ h3)
      obtain ⟨k, k1, k2, k3, k4, k5⟩ := ih (i + 1) ⟨j, by omega, by omega, h3⟩
      refine ⟨k, by omega, by omega, ?_, k4, ?_⟩
      · rw [if_pos (by simpa [Option.isSome_iff_ne_none] using hi), nextRemnant_at, k3]
      · intro m m1 m2
        by_cases e : m = i
        · rw [e]; exact hi
        · exact k5 m (by omega) m2

/-- A table with fewer records than remnant numbers leaves one free. -/
theorem remnant_free (slabs : List Slab) (c : Nat) (h : slabs.length < 15536) :
    ∃ j, 0 ≤ j ∧ j < 0 + (slabs.length + 1) ∧ findBy Slab.number (remnantAt c j) slabs = none := by
  by_contra hno
  have hall : ∀ j, j < slabs.length + 1 → remnantAt c j ∈ slabs.map Slab.number := by
    intro j hj
    rcases hf : findBy Slab.number (remnantAt c j) slabs with _ | r
    · exact absurd ⟨j, Nat.zero_le _, by omega, hf⟩ hno
    · exact List.mem_map.2 ⟨r, (findBy_some hf).1, (findBy_some hf).2⟩
  have hnd : ((List.range (slabs.length + 1)).map (remnantAt c)).Nodup := by
    refine List.Nodup.map_on ?_ List.nodup_range
    intro i hi j hj e
    exact remnantAt_inj (by have := List.mem_range.1 hi; omega) (by have := List.mem_range.1 hj; omega) e
  have hsub : (List.range (slabs.length + 1)).map (remnantAt c) ⊆ slabs.map Slab.number := by
    intro x hx
    obtain ⟨j, hj, rfl⟩ := List.mem_map.1 hx
    exact hall j (List.mem_range.1 hj)
  have := (hnd.subperm hsub).length_le
  simp at this

/-- The number a remnant takes: the first free one at or after the counter (R17). -/
theorem freeRemnant_spec (slabs : List Slab) {c : Nat} (hc : 50000 ≤ c ∧ c ≤ 65535) (h : slabs.length < 15536) :
    ∃ k, k ≤ slabs.length ∧ freeRemnant slabs (slabs.length + 1) c = remnantAt c k ∧
      findBy Slab.number (remnantAt c k) slabs = none ∧
      ∀ j, j < k → findBy Slab.number (remnantAt c j) slabs ≠ none := by
  obtain ⟨k, _, k2, k3, k4, k5⟩ := freeRemnant_first slabs c _ 0 (remnant_free slabs c h)
  rw [remnantAt_zero hc] at k3
  exact ⟨k, by omega, k3, k4, fun j hj => k5 j (Nat.zero_le _) hj⟩

/-! ## Ranking -/

theorem rankInsert_perm {α : Type} (k1 k2 : α → Nat) (r : α) (xs : List α) : (rankInsert k1 k2 r xs).Perm (r :: xs) := by
  induction xs with
  | nil => exact .refl _
  | cons x xs ih =>
    simp only [rankInsert]
    split
    · exact .refl _
    · exact (ih.cons x).trans (.swap r x xs)

theorem rankBy_perm {α : Type} (k1 k2 : α → Nat) (xs : List α) : (rankBy k1 k2 xs).Perm xs := by
  induction xs with
  | nil => exact .refl _
  | cons x xs ih => exact (rankInsert_perm k1 k2 x _).trans (ih.cons x)

/-- One record ranks at or before another. -/
def ranked {α : Type} (k1 k2 : α → Nat) (a b : α) : Prop := k1 a < k1 b ∨ (k1 a = k1 b ∧ k2 a ≤ k2 b)

theorem rankInsert_sorted {α : Type} {k1 k2 : α → Nat} {r : α} {xs : List α} (h : xs.Pairwise (ranked k1 k2)) :
    (rankInsert k1 k2 r xs).Pairwise (ranked k1 k2) := by
  induction xs with
  | nil => simp [rankInsert]
  | cons x xs ih =>
    simp only [rankInsert]
    split
    · next hr =>
      refine List.Pairwise.cons ?_ h
      intro y hy
      rcases List.mem_cons.1 hy with rfl | hy
      · exact hr
      · have := List.rel_of_pairwise_cons h hy
        unfold ranked at *
        omega
    · next hr =>
      refine List.Pairwise.cons ?_ (ih (List.Pairwise.of_cons h))
      intro y hy
      rcases List.mem_cons.1 ((rankInsert_perm k1 k2 r xs).mem_iff.1 hy) with rfl | hy
      · unfold ranked
        omega
      · exact List.rel_of_pairwise_cons h hy

theorem rankBy_sorted {α : Type} (k1 k2 : α → Nat) (xs : List α) : (rankBy k1 k2 xs).Pairwise (ranked k1 k2) := by
  induction xs with
  | nil => exact .nil
  | cons x xs ih => exact rankInsert_sorted ih

end Sys2Proof.Machine
end

