-- ==== Sys2Proof/Laws/RequestFrames.lean ====
section
/-! SUPPORT. The requests that touch neither the water, the saws nor the supplies: one lemma for each request and each of the
three. -/

namespace Sys2Proof.Machine

theorem defineMaterial_keeps_wau (code hardness feed) (s : State) : (defineMaterial code hardness feed s).2.wau = s.wau := by
  unfold defineMaterial; (repeat' first | split | dsimp only) <;> simp [performed, refused]
theorem defineMaterial_keeps_sdp (code hardness feed) (s : State) : (defineMaterial code hardness feed s).2.sdp = s.sdp := by
  unfold defineMaterial; (repeat' first | split | dsimp only) <;> simp [performed, refused]
theorem defineMaterial_keeps_rsv (code hardness feed) (s : State) : (defineMaterial code hardness feed s).2.rsv = s.rsv := by
  unfold defineMaterial; (repeat' first | split | dsimp only) <;> simp [performed, refused]
theorem dropMaterial_keeps_wau (code) (s : State) : (dropMaterial code s).2.wau = s.wau := by
  unfold dropMaterial; (repeat' first | split | dsimp only) <;> simp [performed, refused]
theorem dropMaterial_keeps_sdp (code) (s : State) : (dropMaterial code s).2.sdp = s.sdp := by
  unfold dropMaterial; (repeat' first | split | dsimp only) <;> simp [performed, refused]
theorem dropMaterial_keeps_rsv (code) (s : State) : (dropMaterial code s).2.rsv = s.rsv := by
  unfold dropMaterial; (repeat' first | split | dsimp only) <;> simp [performed, refused]
theorem readMaterial_keeps_wau (code) (s : State) : (readMaterial code s).2.wau = s.wau := by
  unfold readMaterial; (repeat' first | split | dsimp only) <;> simp [performed, refused]
theorem readMaterial_keeps_sdp (code) (s : State) : (readMaterial code s).2.sdp = s.sdp := by
  unfold readMaterial; (repeat' first | split | dsimp only) <;> simp [performed, refused]
theorem readMaterial_keeps_rsv (code) (s : State) : (readMaterial code s).2.rsv = s.rsv := by
  unfold readMaterial; (repeat' first | split | dsimp only) <;> simp [performed, refused]
theorem createSlab_keeps_wau (number material thickness lotNumber lotSeq length width basis flaws) (s : State) : (createSlab number material thickness lotNumber lotSeq length width basis flaws s).2.wau = s.wau := by
  unfold createSlab; (repeat' first | split | dsimp only) <;> simp [performed, refused]
theorem createSlab_keeps_sdp (number material thickness lotNumber lotSeq length width basis flaws) (s : State) : (createSlab number material thickness lotNumber lotSeq length width basis flaws s).2.sdp = s.sdp := by
  unfold createSlab; (repeat' first | split | dsimp only) <;> simp [performed, refused]
theorem createSlab_keeps_rsv (number material thickness lotNumber lotSeq length width basis flaws) (s : State) : (createSlab number material thickness lotNumber lotSeq length width basis flaws s).2.rsv = s.rsv := by
  unfold createSlab; (repeat' first | split | dsimp only) <;> simp [performed, refused]
theorem amendSlab_keeps_wau (number material thickness lotNumber lotSeq basis flaws) (s : State) : (amendSlab number material thickness lotNumber lotSeq basis flaws s).2.wau = s.wau := by
  unfold amendSlab; (repeat' first | split | dsimp only) <;> simp [performed, refused]
theorem amendSlab_keeps_sdp (number material thickness lotNumber lotSeq basis flaws) (s : State) : (amendSlab number material thickness lotNumber lotSeq basis flaws s).2.sdp = s.sdp := by
  unfold amendSlab; (repeat' first | split | dsimp only) <;> simp [performed, refused]
theorem amendSlab_keeps_rsv (number material thickness lotNumber lotSeq basis flaws) (s : State) : (amendSlab number material thickness lotNumber lotSeq basis flaws s).2.rsv = s.rsv := by
  unfold amendSlab; (repeat' first | split | dsimp only) <;> simp [performed, refused]
theorem scrapSlab_keeps_wau (n) (s : State) : (scrapSlab n s).2.wau = s.wau := by
  unfold scrapSlab; (repeat' first | split | dsimp only) <;> simp [performed, refused]
theorem scrapSlab_keeps_sdp (n) (s : State) : (scrapSlab n s).2.sdp = s.sdp := by
  unfold scrapSlab; (repeat' first | split | dsimp only) <;> simp [performed, refused]
theorem scrapSlab_keeps_rsv (n) (s : State) : (scrapSlab n s).2.rsv = s.rsv := by
  unfold scrapSlab; (repeat' first | split | dsimp only) <;> simp [performed, refused]
theorem retireSlab_keeps_wau (n) (s : State) : (retireSlab n s).2.wau = s.wau := by
  unfold retireSlab; (repeat' first | split | dsimp only) <;> simp [performed, refused]
theorem retireSlab_keeps_sdp (n) (s : State) : (retireSlab n s).2.sdp = s.sdp := by
  unfold retireSlab; (repeat' first | split | dsimp only) <;> simp [performed, refused]
theorem retireSlab_keeps_rsv (n) (s : State) : (retireSlab n s).2.rsv = s.rsv := by
  unfold retireSlab; (repeat' first | split | dsimp only) <;> simp [performed, refused]
theorem readSlab_keeps_wau (n) (s : State) : (readSlab n s).2.wau = s.wau := by
  unfold readSlab; (repeat' first | split | dsimp only) <;> simp [performed, refused]
theorem readSlab_keeps_sdp (n) (s : State) : (readSlab n s).2.sdp = s.sdp := by
  unfold readSlab; (repeat' first | split | dsimp only) <;> simp [performed, refused]
theorem readSlab_keeps_rsv (n) (s : State) : (readSlab n s).2.rsv = s.rsv := by
  unfold readSlab; (repeat' first | split | dsimp only) <;> simp [performed, refused]
theorem findSlabs_keeps_wau (a b c d e) (s : State) : (findSlabs a b c d e s).2.wau = s.wau := by
  unfold findSlabs; (repeat' first | split | dsimp only) <;> simp [performed, refused]
theorem findSlabs_keeps_sdp (a b c d e) (s : State) : (findSlabs a b c d e s).2.sdp = s.sdp := by
  unfold findSlabs; (repeat' first | split | dsimp only) <;> simp [performed, refused]
theorem findSlabs_keeps_rsv (a b c d e) (s : State) : (findSlabs a b c d e s).2.rsv = s.rsv := by
  unfold findSlabs; (repeat' first | split | dsimp only) <;> simp [performed, refused]
theorem readRack_keeps_wau (n) (s : State) : (readRack n s).2.wau = s.wau := by
  unfold readRack; (repeat' first | split | dsimp only) <;> simp [performed, refused]
theorem readRack_keeps_sdp (n) (s : State) : (readRack n s).2.sdp = s.sdp := by
  unfold readRack; (repeat' first | split | dsimp only) <;> simp [performed, refused]
theorem readRack_keeps_rsv (n) (s : State) : (readRack n s).2.rsv = s.rsv := by
  unfold readRack; (repeat' first | split | dsimp only) <;> simp [performed, refused]
theorem moveSlab_keeps_wau (a b c) (s : State) : (moveSlab a b c s).2.wau = s.wau := by
  unfold moveSlab; (repeat' first | split | dsimp only) <;> simp [performed, refused]
theorem moveSlab_keeps_sdp (a b c) (s : State) : (moveSlab a b c s).2.sdp = s.sdp := by
  unfold moveSlab; (repeat' first | split | dsimp only) <;> simp [performed, refused]
theorem moveSlab_keeps_rsv (a b c) (s : State) : (moveSlab a b c s).2.rsv = s.rsv := by
  unfold moveSlab; (repeat' first | split | dsimp only) <;> simp [performed, refused]
theorem startAudit_keeps_wau (a) (s : State) : (startAudit a s).2.wau = s.wau := by
  unfold startAudit; (repeat' first | split | dsimp only) <;> simp [performed, refused]
theorem startAudit_keeps_sdp (a) (s : State) : (startAudit a s).2.sdp = s.sdp := by
  unfold startAudit; (repeat' first | split | dsimp only) <;> simp [performed, refused]
theorem startAudit_keeps_rsv (a) (s : State) : (startAudit a s).2.rsv = s.rsv := by
  unfold startAudit; (repeat' first | split | dsimp only) <;> simp [performed, refused]
theorem verifySlab_keeps_wau (a b c) (s : State) : (verifySlab a b c s).2.wau = s.wau := by
  unfold verifySlab; (repeat' first | split | dsimp only) <;> (try cases s.other? a (placeOf b c)) <;> simp [performed, refused]
theorem verifySlab_keeps_sdp (a b c) (s : State) : (verifySlab a b c s).2.sdp = s.sdp := by
  unfold verifySlab; (repeat' first | split | dsimp only) <;> (try cases s.other? a (placeOf b c)) <;> simp [performed, refused]
theorem verifySlab_keeps_rsv (a b c) (s : State) : (verifySlab a b c s).2.rsv = s.rsv := by
  unfold verifySlab; (repeat' first | split | dsimp only) <;> (try cases s.other? a (placeOf b c)) <;> simp [performed, refused]
theorem endAudit_keeps_wau (s : State) : (endAudit s).2.wau = s.wau := by
  unfold endAudit; (repeat' first | split | dsimp only) <;> simp [performed, refused]
theorem endAudit_keeps_sdp (s : State) : (endAudit s).2.sdp = s.sdp := by
  unfold endAudit; (repeat' first | split | dsimp only) <;> simp [performed, refused]
theorem endAudit_keeps_rsv (s : State) : (endAudit s).2.rsv = s.rsv := by
  unfold endAudit; (repeat' first | split | dsimp only) <;> simp [performed, refused]
theorem abortAudit_keeps_wau (s : State) : (abortAudit s).2.wau = s.wau := by
  unfold abortAudit; (repeat' first | split | dsimp only) <;> simp [performed, refused]
theorem abortAudit_keeps_sdp (s : State) : (abortAudit s).2.sdp = s.sdp := by
  unfold abortAudit; (repeat' first | split | dsimp only) <;> simp [performed, refused]
theorem abortAudit_keeps_rsv (s : State) : (abortAudit s).2.rsv = s.rsv := by
  unfold abortAudit; (repeat' first | split | dsimp only) <;> simp [performed, refused]
theorem readAudit_keeps_wau (s : State) : (readAudit s).2.wau = s.wau := by
  unfold readAudit; (repeat' first | split | dsimp only) <;> simp [performed, refused]
theorem readAudit_keeps_sdp (s : State) : (readAudit s).2.sdp = s.sdp := by
  unfold readAudit; (repeat' first | split | dsimp only) <;> simp [performed, refused]
theorem readAudit_keeps_rsv (s : State) : (readAudit s).2.rsv = s.rsv := by
  unfold readAudit; (repeat' first | split | dsimp only) <;> simp [performed, refused]
theorem createPlan_keeps_wau (a b c d e) (s : State) : (createPlan a b c d e s).2.wau = s.wau := by
  unfold createPlan; (repeat' first | split | dsimp only) <;> simp [performed, refused]
theorem createPlan_keeps_sdp (a b c d e) (s : State) : (createPlan a b c d e s).2.sdp = s.sdp := by
  unfold createPlan; (repeat' first | split | dsimp only) <;> simp [performed, refused]
theorem createPlan_keeps_rsv (a b c d e) (s : State) : (createPlan a b c d e s).2.rsv = s.rsv := by
  unfold createPlan; (repeat' first | split | dsimp only) <;> simp [performed, refused]
theorem revisePlan_keeps_wau (a b c) (s : State) : (revisePlan a b c s).2.wau = s.wau := by
  unfold revisePlan; (repeat' first | split | dsimp only) <;> simp [performed, refused]
theorem revisePlan_keeps_sdp (a b c) (s : State) : (revisePlan a b c s).2.sdp = s.sdp := by
  unfold revisePlan; (repeat' first | split | dsimp only) <;> simp [performed, refused]
theorem revisePlan_keeps_rsv (a b c) (s : State) : (revisePlan a b c s).2.rsv = s.rsv := by
  unfold revisePlan; (repeat' first | split | dsimp only) <;> simp [performed, refused]
theorem checkPlan_keeps_wau (a) (s : State) : (checkPlan a s).2.wau = s.wau := by
  unfold checkPlan; (repeat' first | split | dsimp only) <;> simp [performed, refused]
theorem checkPlan_keeps_sdp (a) (s : State) : (checkPlan a s).2.sdp = s.sdp := by
  unfold checkPlan; (repeat' first | split | dsimp only) <;> simp [performed, refused]
theorem checkPlan_keeps_rsv (a) (s : State) : (checkPlan a s).2.rsv = s.rsv := by
  unfold checkPlan; (repeat' first | split | dsimp only) <;> simp [performed, refused]
theorem readPlan_keeps_wau (a) (s : State) : (readPlan a s).2.wau = s.wau := by
  unfold readPlan; (repeat' first | split | dsimp only) <;> simp [performed, refused]
theorem readPlan_keeps_sdp (a) (s : State) : (readPlan a s).2.sdp = s.sdp := by
  unfold readPlan; (repeat' first | split | dsimp only) <;> simp [performed, refused]
theorem readPlan_keeps_rsv (a) (s : State) : (readPlan a s).2.rsv = s.rsv := by
  unfold readPlan; (repeat' first | split | dsimp only) <;> simp [performed, refused]
theorem readPassList_keeps_wau (a) (s : State) : (readPassList a s).2.wau = s.wau := by
  unfold readPassList; (repeat' first | split | dsimp only) <;> simp [performed, refused]
theorem readPassList_keeps_sdp (a) (s : State) : (readPassList a s).2.sdp = s.sdp := by
  unfold readPassList; (repeat' first | split | dsimp only) <;> simp [performed, refused]
theorem readPassList_keeps_rsv (a) (s : State) : (readPassList a s).2.rsv = s.rsv := by
  unfold readPassList; (repeat' first | split | dsimp only) <;> simp [performed, refused]
theorem retirePlan_keeps_wau (a) (s : State) : (retirePlan a s).2.wau = s.wau := by
  unfold retirePlan; (repeat' first | split | dsimp only) <;> simp [performed, refused]
theorem retirePlan_keeps_sdp (a) (s : State) : (retirePlan a s).2.sdp = s.sdp := by
  unfold retirePlan; (repeat' first | split | dsimp only) <;> simp [performed, refused]
theorem retirePlan_keeps_rsv (a) (s : State) : (retirePlan a s).2.rsv = s.rsv := by
  unfold retirePlan; (repeat' first | split | dsimp only) <;> simp [performed, refused]
theorem readSaw_keeps_wau (a) (s : State) : (readSaw a s).2.wau = s.wau := by
  unfold readSaw; (repeat' first | split | dsimp only) <;> simp [performed, refused]
theorem readSaw_keeps_sdp (a) (s : State) : (readSaw a s).2.sdp = s.sdp := by
  unfold readSaw; (repeat' first | split | dsimp only) <;> simp [performed, refused]
theorem readSaw_keeps_rsv (a) (s : State) : (readSaw a s).2.rsv = s.rsv := by
  unfold readSaw; (repeat' first | split | dsimp only) <;> simp [performed, refused]
theorem readContext_keeps_wau (a) (s : State) : (readContext a s).2.wau = s.wau := by
  unfold readContext; (repeat' first | split | dsimp only) <;> simp [performed, refused]
theorem readContext_keeps_sdp (a) (s : State) : (readContext a s).2.sdp = s.sdp := by
  unfold readContext; (repeat' first | split | dsimp only) <;> simp [performed, refused]
theorem readContext_keeps_rsv (a) (s : State) : (readContext a s).2.rsv = s.rsv := by
  unfold readContext; (repeat' first | split | dsimp only) <;> simp [performed, refused]
theorem addBlade_keeps_wau (a b c d) (s : State) : (addBlade a b c d s).2.wau = s.wau := by
  unfold addBlade; (repeat' first | split | dsimp only) <;> simp [performed, refused]
theorem addBlade_keeps_sdp (a b c d) (s : State) : (addBlade a b c d s).2.sdp = s.sdp := by
  unfold addBlade; (repeat' first | split | dsimp only) <;> simp [performed, refused]
theorem addBlade_keeps_rsv (a b c d) (s : State) : (addBlade a b c d s).2.rsv = s.rsv := by
  unfold addBlade; (repeat' first | split | dsimp only) <;> simp [performed, refused]
theorem amendBlade_keeps_wau (a b c) (s : State) : (amendBlade a b c s).2.wau = s.wau := by
  unfold amendBlade; (repeat' first | split | dsimp only) <;> simp [performed, refused]
theorem amendBlade_keeps_sdp (a b c) (s : State) : (amendBlade a b c s).2.sdp = s.sdp := by
  unfold amendBlade; (repeat' first | split | dsimp only) <;> simp [performed, refused]
theorem amendBlade_keeps_rsv (a b c) (s : State) : (amendBlade a b c s).2.rsv = s.rsv := by
  unfold amendBlade; (repeat' first | split | dsimp only) <;> simp [performed, refused]
theorem retireBlade_keeps_wau (a) (s : State) : (retireBlade a s).2.wau = s.wau := by
  unfold retireBlade; (repeat' first | split | dsimp only) <;> simp [performed, refused]
theorem retireBlade_keeps_sdp (a) (s : State) : (retireBlade a s).2.sdp = s.sdp := by
  unfold retireBlade; (repeat' first | split | dsimp only) <;> simp [performed, refused]
theorem retireBlade_keeps_rsv (a) (s : State) : (retireBlade a s).2.rsv = s.rsv := by
  unfold retireBlade; (repeat' first | split | dsimp only) <;> simp [performed, refused]
theorem readBlade_keeps_wau (a) (s : State) : (readBlade a s).2.wau = s.wau := by
  unfold readBlade; (repeat' first | split | dsimp only) <;> simp [performed, refused]
theorem readBlade_keeps_sdp (a) (s : State) : (readBlade a s).2.sdp = s.sdp := by
  unfold readBlade; (repeat' first | split | dsimp only) <;> simp [performed, refused]
theorem readBlade_keeps_rsv (a) (s : State) : (readBlade a s).2.rsv = s.rsv := by
  unfold readBlade; (repeat' first | split | dsimp only) <;> simp [performed, refused]
theorem setChannel_keeps_wau (a b c d e f) (s : State) : (setChannel a b c d e f s).2.wau = s.wau := by
  unfold setChannel; (repeat' first | split | dsimp only) <;> simp [performed, refused]
theorem setChannel_keeps_sdp (a b c d e f) (s : State) : (setChannel a b c d e f s).2.sdp = s.sdp := by
  unfold setChannel; (repeat' first | split | dsimp only) <;> simp [performed, refused]
theorem setChannel_keeps_rsv (a b c d e f) (s : State) : (setChannel a b c d e f s).2.rsv = s.rsv := by
  unfold setChannel; (repeat' first | split | dsimp only) <;> simp [performed, refused]
theorem readChannel_keeps_wau (a) (s : State) : (readChannel a s).2.wau = s.wau := by
  unfold readChannel; (repeat' first | split | dsimp only) <;> simp [performed, refused]
theorem readChannel_keeps_sdp (a) (s : State) : (readChannel a s).2.sdp = s.sdp := by
  unfold readChannel; (repeat' first | split | dsimp only) <;> simp [performed, refused]
theorem readChannel_keeps_rsv (a) (s : State) : (readChannel a s).2.rsv = s.rsv := by
  unfold readChannel; (repeat' first | split | dsimp only) <;> simp [performed, refused]
theorem calBegin_keeps_wau (a) (s : State) : (calBegin a s).2.wau = s.wau := by
  unfold calBegin; (repeat' first | split | dsimp only) <;> simp [performed, refused]
theorem calBegin_keeps_sdp (a) (s : State) : (calBegin a s).2.sdp = s.sdp := by
  unfold calBegin; (repeat' first | split | dsimp only) <;> simp [performed, refused]
theorem calBegin_keeps_rsv (a) (s : State) : (calBegin a s).2.rsv = s.rsv := by
  unfold calBegin; (repeat' first | split | dsimp only) <;> simp [performed, refused]
theorem calPoint_keeps_wau (a b) (s : State) : (calPoint a b s).2.wau = s.wau := by
  unfold calPoint; (repeat' first | split | dsimp only) <;> simp [performed, refused]
theorem calPoint_keeps_sdp (a b) (s : State) : (calPoint a b s).2.sdp = s.sdp := by
  unfold calPoint; (repeat' first | split | dsimp only) <;> simp [performed, refused]
theorem calPoint_keeps_rsv (a b) (s : State) : (calPoint a b s).2.rsv = s.rsv := by
  unfold calPoint; (repeat' first | split | dsimp only) <;> simp [performed, refused]
theorem calEnd_keeps_wau (a b) (s : State) : (calEnd a b s).2.wau = s.wau := by
  unfold calEnd; (repeat' first | split | dsimp only) <;> simp [performed, refused]
theorem calEnd_keeps_sdp (a b) (s : State) : (calEnd a b s).2.sdp = s.sdp := by
  unfold calEnd; (repeat' first | split | dsimp only) <;> simp [performed, refused]
theorem calEnd_keeps_rsv (a b) (s : State) : (calEnd a b s).2.rsv = s.rsv := by
  unfold calEnd; (repeat' first | split | dsimp only) <;> simp [performed, refused]
theorem calAbort_keeps_wau (a) (s : State) : (calAbort a s).2.wau = s.wau := by
  unfold calAbort; (repeat' first | split | dsimp only) <;> simp [performed, refused]
theorem calAbort_keeps_sdp (a) (s : State) : (calAbort a s).2.sdp = s.sdp := by
  unfold calAbort; (repeat' first | split | dsimp only) <;> simp [performed, refused]
theorem calAbort_keeps_rsv (a) (s : State) : (calAbort a s).2.rsv = s.rsv := by
  unfold calAbort; (repeat' first | split | dsimp only) <;> simp [performed, refused]
theorem readPlant_keeps_wau (s : State) : (readPlant s).2.wau = s.wau := by
  unfold readPlant; (repeat' first | split | dsimp only) <;> simp [performed, refused]
theorem readPlant_keeps_sdp (s : State) : (readPlant s).2.sdp = s.sdp := by
  unfold readPlant; (repeat' first | split | dsimp only) <;> simp [performed, refused]
theorem readPlant_keeps_rsv (s : State) : (readPlant s).2.rsv = s.rsv := by
  unfold readPlant; (repeat' first | split | dsimp only) <;> simp [performed, refused]
theorem openJob_keeps_wau (a b c) (s : State) : (openJob a b c s).2.wau = s.wau := by
  unfold openJob; (repeat' first | split | dsimp only) <;> simp [performed, refused]
theorem openJob_keeps_sdp (a b c) (s : State) : (openJob a b c s).2.sdp = s.sdp := by
  unfold openJob; (repeat' first | split | dsimp only) <;> simp [performed, refused]
theorem openJob_keeps_rsv (a b c) (s : State) : (openJob a b c s).2.rsv = s.rsv := by
  unfold openJob; (repeat' first | split | dsimp only) <;> simp [performed, refused]
theorem amendJob_keeps_wau (a b c) (s : State) : (amendJob a b c s).2.wau = s.wau := by
  unfold amendJob; (repeat' first | split | dsimp only) <;> simp [performed, refused]
theorem amendJob_keeps_sdp (a b c) (s : State) : (amendJob a b c s).2.sdp = s.sdp := by
  unfold amendJob; (repeat' first | split | dsimp only) <;> simp [performed, refused]
theorem amendJob_keeps_rsv (a b c) (s : State) : (amendJob a b c s).2.rsv = s.rsv := by
  unfold amendJob; (repeat' first | split | dsimp only) <;> simp [performed, refused]
theorem readJob_keeps_wau (a) (s : State) : (readJob a s).2.wau = s.wau := by
  unfold readJob; (repeat' first | split | dsimp only) <;> simp [performed, refused]
theorem readJob_keeps_sdp (a) (s : State) : (readJob a s).2.sdp = s.sdp := by
  unfold readJob; (repeat' first | split | dsimp only) <;> simp [performed, refused]
theorem readJob_keeps_rsv (a) (s : State) : (readJob a s).2.rsv = s.rsv := by
  unfold readJob; (repeat' first | split | dsimp only) <;> simp [performed, refused]
theorem closeJob_keeps_wau (a) (s : State) : (closeJob a s).2.wau = s.wau := by
  unfold closeJob; (repeat' first | split | dsimp only) <;> simp [performed, refused]
theorem closeJob_keeps_sdp (a) (s : State) : (closeJob a s).2.sdp = s.sdp := by
  unfold closeJob; (repeat' first | split | dsimp only) <;> simp [performed, refused]
theorem closeJob_keeps_rsv (a) (s : State) : (closeJob a s).2.rsv = s.rsv := by
  unfold closeJob; (repeat' first | split | dsimp only) <;> simp [performed, refused]
theorem retireJob_keeps_wau (a) (s : State) : (retireJob a s).2.wau = s.wau := by
  unfold retireJob; (repeat' first | split | dsimp only) <;> simp [performed, refused]
theorem retireJob_keeps_sdp (a) (s : State) : (retireJob a s).2.sdp = s.sdp := by
  unfold retireJob; (repeat' first | split | dsimp only) <;> simp [performed, refused]
theorem retireJob_keeps_rsv (a) (s : State) : (retireJob a s).2.rsv = s.rsv := by
  unfold retireJob; (repeat' first | split | dsimp only) <;> simp [performed, refused]
theorem readNotices_keeps_wau (s : State) : (readNotices s).2.wau = s.wau := by
  unfold readNotices; (repeat' first | split | dsimp only) <;> simp [performed, refused]
theorem readNotices_keeps_sdp (s : State) : (readNotices s).2.sdp = s.sdp := by
  unfold readNotices; (repeat' first | split | dsimp only) <;> simp [performed, refused]
theorem readNotices_keeps_rsv (s : State) : (readNotices s).2.rsv = s.rsv := by
  unfold readNotices; (repeat' first | split | dsimp only) <;> simp [performed, refused]
theorem setNotices_keeps_wau (a b) (s : State) : (setNotices a b s).2.wau = s.wau := by
  unfold setNotices; (repeat' first | split | dsimp only) <;> simp [performed, refused]
theorem setNotices_keeps_sdp (a b) (s : State) : (setNotices a b s).2.sdp = s.sdp := by
  unfold setNotices; (repeat' first | split | dsimp only) <;> simp [performed, refused]
theorem setNotices_keeps_rsv (a b) (s : State) : (setNotices a b s).2.rsv = s.rsv := by
  unfold setNotices; (repeat' first | split | dsimp only) <;> simp [performed, refused]
theorem unknownRequest_keeps_wau (s : State) : (unknownRequest s).2.wau = s.wau := by
  unfold unknownRequest; (repeat' first | split | dsimp only) <;> simp [performed, refused]
theorem unknownRequest_keeps_sdp (s : State) : (unknownRequest s).2.sdp = s.sdp := by
  unfold unknownRequest; (repeat' first | split | dsimp only) <;> simp [performed, refused]
theorem unknownRequest_keeps_rsv (s : State) : (unknownRequest s).2.rsv = s.rsv := by
  unfold unknownRequest; (repeat' first | split | dsimp only) <;> simp [performed, refused]

end Sys2Proof.Machine
end

