-- ==== Sys2Proof/Laws/Water.lean ====
section
/-! SUPPORT. What each shared operation does to the water records and to the states of the saws. -/

namespace Sys2Proof.Machine

/-! ## Saw states left by the shared operations -/

/-- The saws' states as one function. -/
def State.states (s : State) (v : Saw) : SawState := (s.saw v).state

theorem State.states_of_saws {s t : State} (h : t.sdp = s.sdp) (v : Saw) : t.states v = s.states v := by
  simp [State.states, State.saw, h]

theorem State.states_updateSaw (s : State) (w : Saw) (f : SawRec → SawRec) (v : Saw) :
    (s.updateSaw w f).states v = if v = w then (f (s.saw w)).state else s.states v := by
  simp only [State.states, State.saw_updateSaw]; split <;> rfl

/-- An update of a saw record that keeps its state. -/
theorem State.states_updateSaw_keep (s : State) (w : Saw) (f : SawRec → SawRec) (h : ∀ r, (f r).state = r.state) (v : Saw) :
    (s.updateSaw w f).states v = s.states v := by
  rw [State.states_updateSaw]; split
  · next e => rw [h, e]; rfl
  · rfl

@[simp] theorem State.states_send (s : State) (w : Saw) (f : Frame) (v : Saw) : (s.send w f).states v = s.states v := rfl
@[simp] theorem State.states_raise (s : State) (n : Notice) (v : Saw) : (s.raise n).states v = s.states v := rfl
@[simp] theorem State.states_raiseIf (s : State) (c : Bool) (n : Notice) (v : Saw) : (s.raiseIf c n).states v = s.states v := by
  simp [State.states]
@[simp] theorem State.states_withWau (s : State) (f : Admission → Admission) (v : Saw) : (s.withWau f).states v = s.states v :=
  rfl
@[simp] theorem State.states_setSawState (s : State) (w : Saw) (x : SawState) (v : Saw) :
    (s.setSawState w x).states v = if v = w then x else s.states v := State.states_updateSaw ..
@[simp] theorem State.states_sawFrame (s : State) (w v : Saw) : (s.sawFrame w).states v = s.states v :=
  State.states_updateSaw_keep _ _ _ (by intro; rfl) _
@[simp] theorem State.states_updatePass (s : State) (n i : Nat) (f : Pass → Pass) (v : Saw) :
    (s.updatePass n i f).states v = s.states v := rfl
@[simp] theorem State.states_updatePlan (s : State) (n : Nat) (f : Plan → Plan) (v : Saw) :
    (s.updatePlan n f).states v = s.states v := rfl
@[simp] theorem State.states_reportReached (s : State) (w : Saw) (p : Nat) (v : Saw) :
    (s.reportReached w p).states v = s.states v := State.states_of_saws (by simp) v
@[simp] theorem State.states_chargeHead (s : State) (w : Saw) (f : Job → Job) (v : Saw) :
    (s.chargeHead w f).states v = s.states v := State.states_of_saws (by simp) v
@[simp] theorem State.states_chargeWear (s : State) (w : Saw) (p : Nat) (v : Saw) :
    (s.chargeWear w p).states v = s.states v := State.states_of_saws (by simp) v
@[simp] theorem State.states_faultBlade (s : State) (w : Saw) (c : Cause) (v : Saw) :
    (s.faultBlade w c).states v = s.states v := State.states_of_saws (by simp) v
@[simp] theorem State.states_closeSegment (s : State) (w : Saw) (p : Nat) (v : Saw) :
    (s.closeSegment w p).states v = s.states v := by
  simp only [State.closeSegment]
  refine (State.states_updateSaw_keep _ _ _ (by intro; rfl) _).trans ?_
  simp only [State.states_chargeHead]
  refine (State.states_updateSaw_keep _ _ _ (by intro; rfl) _).trans ?_
  simp
@[simp] theorem State.states_writeContext (s : State) (w : Saw) (k : ContextKind) (c : Option Cause) (n : Nat) (v : Saw) :
    (s.writeContext w k c n).states v = s.states v := State.states_updateSaw_keep _ _ _ (by intro; rfl) _
@[simp] theorem State.states_openSegment (s : State) (w v : Saw) : (s.openSegment w).states v = s.states v :=
  State.states_updateSaw_keep _ _ _ (by intro; rfl) _
@[simp] theorem State.states_stagePass (s : State) (w v : Saw) : (s.stagePass w).states v = s.states v := by
  unfold State.stagePass
  split
  · rfl
  · split
    · rfl
    · simp only [State.states_updatePass, State.states_send]
      exact State.states_updateSaw_keep _ _ _ (by intro; rfl) _
@[simp] theorem State.states_refill (s : State) (w v : Saw) : (s.refill w).states v = s.states v := by
  unfold State.refill; split <;> simp
@[simp] theorem State.states_dropWindow (s : State) (w v : Saw) : (s.dropWindow w).states v = s.states v := by
  unfold State.dropWindow
  simp only
  refine (State.states_updateSaw_keep _ _ _ (by intro; rfl) _).trans ?_
  split <;> simp
@[simp] theorem State.states_sendResume (s : State) (w : Saw) (p : Plan) (q : Pass) (v : Saw) :
    (s.sendResume w p q).states v = s.states v := by
  simp only [State.sendResume, State.states_send, State.tagActive]
  split
  · rfl
  · exact State.states_updateSaw_keep _ _ _ (by intro; rfl) _
@[simp] theorem State.states_admit (s : State) (w v : Saw) : (s.admitSaw w).states v = s.states v := rfl
@[simp] theorem State.states_grantGo (s : State) (w v : Saw) :
    (s.grantGo w).states v = if v = w then .cutting else s.states v := by
  simp only [State.grantGo, State.states_setSawState, State.states_openSegment]
  split
  · rfl
  · refine (State.states_updateSaw_keep _ _ _ (by intro; rfl) _).trans ?_
    split <;> simp
@[simp] theorem State.states_resumeCut (s : State) (w v : Saw) :
    (s.resumeCut w).states v = if v = w then .cutting else s.states v := by
  simp only [State.resumeCut, State.states_setSawState]
  split
  · rfl
  · refine (State.states_updateSaw_keep _ _ _ (by intro; rfl) _).trans ?_
    simp only [State.states_refill, State.states_openSegment]
    split <;> simp
@[simp] theorem State.states_enterCut (s : State) (w v : Saw) :
    (s.enterCut w).states v = if v = w then .cutting else s.states v := by
  unfold State.enterCut; split <;> simp
@[simp] theorem State.states_orderHold (s : State) (w v : Saw) :
    (s.orderHold w).states v = if v = w then .holding else s.states v := by
  simp [State.orderHold, State.states_updateSaw]
@[simp] theorem State.states_reportDone (s : State) (n i : Nat) (v : Saw) : (s.reportDone n i).states v = s.states v :=
  State.states_of_saws (by simp) v
@[simp] theorem State.states_unload (s : State) (w : Saw) (n : Nat) (v : Saw) : (s.unload w n).states v = s.states v := by
  unfold State.unload; split
  · refine (State.states_updateSaw_keep _ _ _ (by intro; rfl) _).trans ?_; rfl
  · rfl
@[simp] theorem State.states_leaveQueue (s : State) (w : Saw) (n : Nat) (v : Saw) :
    (s.leaveQueue w n).states v = s.states v := by
  simp only [State.leaveQueue, State.states_updatePlan]
  exact State.states_updateSaw_keep _ _ _ (by intro; rfl) _

/-! ## The water records -/

/-- The sum of the allotments after one entry is written. -/
theorem Admission.granted_set (a : Admission) (w : Saw) (x : Option Nat) :
    Admission.granted { a with allotment := a.allotment.set w x } + (a.allotment.get w).getD 0 = a.granted + x.getD 0 := by
  cases w <;> simp only [Admission.granted, Four.set, Four.get] <;> omega

theorem mem_dropSaw {w v : Saw} {ws : List Saw} : v ∈ dropSaw w ws ↔ v ∈ ws ∧ v ≠ w := by simp [dropSaw]

theorem dropSaw_nodup {w : Saw} {ws : List Saw} (h : ws.Nodup) : (dropSaw w ws).Nodup := h.filter _

theorem mem_placeHeld {order : List Saw} {w : Saw} {e : LineEntry} :
    ∀ {es : List LineEntry}, e ∈ placeHeld order w es ↔ e = ⟨w, .held⟩ ∨ e ∈ es
  | [] => by simp [placeHeld]
  | x :: es => by
    unfold placeHeld
    split
    · simp
    · simp only [List.mem_cons, mem_placeHeld (es := es)]
      constructor
      · rintro (h | h | h) <;> simp [h]
      · rintro (h | h | h) <;> simp [h]

theorem placeHeld_perm (order : List Saw) (w : Saw) :
    ∀ es : List LineEntry, (placeHeld order w es).Perm (⟨w, .held⟩ :: es)
  | [] => .refl _
  | x :: es => by
    unfold placeHeld
    split
    · exact .refl _
    · exact ((placeHeld_perm order w es).cons x).trans (.swap ..)

/-- The water records and the saw states agree for every saw outside `D`; a saw in `D` stands in no water record. -/
structure Agree (D : Saw → Prop) (s : State) : Prop where
  run : s.running = true
  allotted : ∀ w, ¬D w → ((s.wau.allotment.get w).isSome = true ↔ s.states w = .cutting)
  permit : ∀ w, ¬D w → (s.wau.permit.get w = true ↔ s.states w = .cutting ∨ s.states w = .holding)
  ordered : ∀ w, ¬D w → (w ∈ s.wau.order ↔ s.states w = .cutting ∨ s.states w = .holding ∨ s.states w = .held)
  started : ∀ w, ¬D w → (⟨w, .started⟩ ∈ s.wau.line ↔ s.states w = .waiting)
  held : ∀ w, ¬D w → (⟨w, .held⟩ ∈ s.wau.line ↔ s.states w = .held)
  out : ∀ w, D w → (s.wau.allotment.get w) = none ∧ s.wau.permit.get w = false ∧ w ∉ s.wau.order ∧
    ∀ k, (⟨w, k⟩ : LineEntry) ∉ s.wau.line
  orderNodup : s.wau.order.Nodup
  lineNodup : (s.wau.line.map LineEntry.saw).Nodup
  granted : s.wau.granted ≤ s.wau.capacity

/-- The law depends on the water records, the saw states and the supplies alone. -/
theorem Agree.congr {D : Saw → Prop} {s t : State} (h : Agree D s) (hw : t.wau = s.wau) (hs : ∀ v, t.states v = s.states v)
    (hr : t.rsv = s.rsv) : Agree D t where
  run := by simpa [State.running, hr] using h.run
  allotted := by simpa [hw, hs] using h.allotted
  permit := by simpa [hw, hs] using h.permit
  ordered := by simpa [hw, hs] using h.ordered
  started := by simpa [hw, hs] using h.started
  held := by simpa [hw, hs] using h.held
  out := by simpa [hw] using h.out
  orderNodup := by simpa [hw] using h.orderNodup
  lineNodup := by simpa [hw] using h.lineNodup
  granted := by simpa [hw] using h.granted

/-- A saw's line entries settle which state it is in: none of the water states without one. -/
def SawState.dry : SawState → Bool
  | .cutting => false
  | .holding => false
  | .waiting => false
  | .held => false
  | _ => true

/-- A saw outside the water records takes a state outside the water. -/
theorem Agree.settle {D : Saw → Prop} {s t : State} {w : Saw} {x : SawState} (h : Agree D s) (hd : D w) (hx : x.dry = true)
    (hw : t.wau = s.wau) (hs : ∀ v, t.states v = if v = w then x else s.states v) (hr : t.rsv = s.rsv) :
    Agree (fun v => D v ∧ v ≠ w) t := by
  obtain ⟨h1, h2, h3, h4⟩ := h.out w hd
  have key : ∀ v, ¬(D v ∧ v ≠ w) → v = w ∨ (¬D v ∧ v ≠ w) := fun v hv => by
    by_cases e : v = w
    · exact .inl e
    · exact .inr ⟨fun d => hv ⟨d, e⟩, e⟩
  refine ⟨by simpa [State.running, hr] using h.run, ?_, ?_, ?_, ?_, ?_, ?_, by simpa [hw] using h.orderNodup,
    by simpa [hw] using h.lineNodup, by simpa [hw] using h.granted⟩
  · intro v hv
    rcases key v hv with rfl | ⟨e, e'⟩
    · cases x <;> simp_all [SawState.dry]
    · simp [hw, hs, e', h.allotted v e]
  · intro v hv
    rcases key v hv with rfl | ⟨e, e'⟩
    · cases x <;> simp_all [SawState.dry]
    · simp [hw, hs, e', h.permit v e]
  · intro v hv
    rcases key v hv with rfl | ⟨e, e'⟩
    · cases x <;> simp_all [SawState.dry]
    · simp [hw, hs, e', h.ordered v e]
  · intro v hv
    rcases key v hv with rfl | ⟨e, e'⟩
    · cases x <;> simp_all [SawState.dry]
    · simp [hw, hs, e', h.started v e]
  · intro v hv
    rcases key v hv with rfl | ⟨e, e'⟩
    · cases x <;> simp_all [SawState.dry]
    · simp [hw, hs, e', h.held v e]
  · intro v hv
    simpa [hw] using h.out v hv.1

/-- A saw in no water state stands in no water record. -/
theorem Agree.isolate {D : Saw → Prop} {s : State} {w : Saw} (h : Agree D s) (hx : (s.states w).dry = true) :
    Agree (fun v => D v ∨ v = w) s := by
  by_cases hd : D w
  · have e : (fun v => D v ∨ v = w) = D := by
      funext v; apply propext; constructor
      · rintro (h | rfl) <;> assumption
      · exact .inl
    rw [e]; exact h
  · refine ⟨h.run, fun v hv => h.allotted v fun d => hv (.inl d), fun v hv => h.permit v fun d => hv (.inl d),
      fun v hv => h.ordered v fun d => hv (.inl d), fun v hv => h.started v fun d => hv (.inl d),
      fun v hv => h.held v fun d => hv (.inl d), ?_, h.orderNodup, h.lineNodup, h.granted⟩
    rintro v (hv | rfl)
    · exact h.out v hv
    · have h1 := h.allotted v hd
      have h2 := h.permit v hd
      have h3 := h.ordered v hd
      have h4 := h.started v hd
      have h5 := h.held v hd
      refine ⟨?_, ?_, ?_, ?_⟩
      · cases e : s.states v <;> simp_all [SawState.dry]
      · cases e : s.states v <;> simp_all [SawState.dry]
      · cases e : s.states v <;> simp_all [SawState.dry]
      · rintro (_ | _) <;> cases e : s.states v <;> simp_all [SawState.dry]

/-- A saw leaves the water at a release or at the end of a hold. -/
theorem Agree.leave {D : Saw → Prop} {s t : State} {w : Saw} (h : Agree D s) (hd : ¬D w)
    (hx : s.states w = .cutting ∨ s.states w = .holding)
    (hw : t.wau = Admission.release w s.wau) (hs : ∀ v, v ≠ w → t.states v = s.states v) (hr : t.rsv = s.rsv) :
    Agree (fun v => D v ∨ v = w) t := by
  have g := Admission.granted_set s.wau w none
  have hl := h.started w hd
  have hh := h.held w hd
  refine ⟨by simpa [State.running, hr] using h.run, ?_, ?_, ?_, ?_, ?_, ?_, ?_, ?_, ?_⟩
  · intro v hv
    have e : ¬D v ∧ v ≠ w := not_or.1 hv
    simp [hw, Admission.release, Four.get_set, e.2, hs v e.2, h.allotted v e.1]
  · intro v hv
    have e : ¬D v ∧ v ≠ w := not_or.1 hv
    simp [hw, Admission.release, Four.get_set, e.2, hs v e.2, h.permit v e.1]
  · intro v hv
    have e : ¬D v ∧ v ≠ w := not_or.1 hv
    simp [hw, Admission.release, mem_dropSaw, e.2, hs v e.2, h.ordered v e.1]
  · intro v hv
    have e : ¬D v ∧ v ≠ w := not_or.1 hv
    simp [hw, Admission.release, hs v e.2, h.started v e.1]
  · intro v hv
    have e : ¬D v ∧ v ≠ w := not_or.1 hv
    simp [hw, Admission.release, hs v e.2, h.held v e.1]
  · rintro v hv
    by_cases e : v = w
    · subst e
      refine ⟨by simp [hw, Admission.release], by simp [hw, Admission.release], by simp [hw, Admission.release, mem_dropSaw], ?_⟩
      rintro (_ | _) <;> rcases hx with hx | hx <;> simp_all [Admission.release]
    · have hv : D v := hv.resolve_right e
      obtain ⟨h1, h2, h3, h4⟩ := h.out v hv
      exact ⟨by simp [hw, Admission.release, Four.get_set, e, h1], by simp [hw, Admission.release, Four.get_set, e, h2],
        by simp [hw, Admission.release, mem_dropSaw, h3], by simpa [hw, Admission.release] using h4⟩
  · simpa [hw, Admission.release] using dropSaw_nodup h.orderNodup
  · simpa [hw, Admission.release] using h.lineNodup
  · have := h.granted
    simp only [hw, Admission.release]
    simp only [Admission.granted, Option.getD_none, Nat.add_zero] at g this ⊢
    omega

/-- The end of a hold does to the records what a release does, since no entry is held. -/
theorem Agree.endHold_eq {D : Saw → Prop} {s : State} {w : Saw} (h : Agree D s) (hd : ¬D w) (hx : s.states w = .holding) :
    Admission.endHold w s.wau = Admission.release w s.wau := by
  have h1 : s.wau.allotment.get w = none := by
    have := h.allotted w hd
    rw [hx] at this
    cases e : s.wau.allotment.get w <;> simp_all
  have : s.wau.allotment.set w none = s.wau.allotment := Four.ext_get fun v => by
    by_cases e : v = w
    · subst e; simp [h1]
    · simp [Four.get_set, e]
  simp [Admission.endHold, Admission.release, this]

/-- A saw outside the records is admitted and enters CUTTING. -/
theorem Agree.admitSaw {D : Saw → Prop} {s t : State} {w : Saw} {d : Nat} (h : Agree D s) (hd : D w)
    (hf : d + s.wau.granted ≤ s.wau.capacity) (hw : t.wau = Admission.admitSaw w d s.wau)
    (hs : ∀ v, t.states v = if v = w then .cutting else s.states v) (hr : t.rsv = s.rsv) :
    Agree (fun v => D v ∧ v ≠ w) t := by
  obtain ⟨h1, h2, h3, h4⟩ := h.out w hd
  have g := Admission.granted_set s.wau w (some d)
  have key : ∀ v, ¬(D v ∧ v ≠ w) → v = w ∨ (¬D v ∧ v ≠ w) := fun v hv => by
    by_cases e : v = w
    · exact .inl e
    · exact .inr ⟨fun d => hv ⟨d, e⟩, e⟩
  refine ⟨by simpa [State.running, hr] using h.run, ?_, ?_, ?_, ?_, ?_, ?_, ?_, ?_, ?_⟩
  · intro v hv
    rcases key v hv with rfl | ⟨e, e'⟩
    · simp [hw, Admission.admitSaw, hs]
    · simp [hw, Admission.admitSaw, hs, Four.get_set, e', h.allotted v e]
  · intro v hv
    rcases key v hv with rfl | ⟨e, e'⟩
    · simp [hw, Admission.admitSaw, hs]
    · simp [hw, Admission.admitSaw, hs, Four.get_set, e', h.permit v e]
  · intro v hv
    rcases key v hv with rfl | ⟨e, e'⟩
    · simp [hw, Admission.admitSaw, hs]
    · simp [hw, Admission.admitSaw, hs, mem_dropSaw, e', h.ordered v e]
  · intro v hv
    rcases key v hv with rfl | ⟨e, e'⟩
    · simp [hw, Admission.admitSaw, hs, h4]
    · simp [hw, Admission.admitSaw, hs, e', h.started v e]
  · intro v hv
    rcases key v hv with rfl | ⟨e, e'⟩
    · simp [hw, Admission.admitSaw, hs, h4]
    · simp [hw, Admission.admitSaw, hs, e', h.held v e]
  · rintro v ⟨hv, e⟩
    obtain ⟨h1, h2, h3, h4⟩ := h.out v hv
    exact ⟨by simp [hw, Admission.admitSaw, Four.get_set, e, h1], by simp [hw, Admission.admitSaw, Four.get_set, e, h2],
      by simp [hw, Admission.admitSaw, mem_dropSaw, h3, e], by simpa [hw, Admission.admitSaw] using h4⟩
  · simp only [hw, Admission.admitSaw]
    refine List.nodup_append.2 ⟨dropSaw_nodup h.orderNodup, by simp, ?_⟩
    simp [mem_dropSaw]
  · simpa [hw, Admission.admitSaw] using h.lineNodup
  · simp only [hw, Admission.admitSaw]
    simp only [Admission.granted, Option.getD_some, h1, Option.getD_none, Nat.add_zero] at g hf ⊢
    omega

/-- The head of the line leaves it: its saw stands in no record but, from a HELD entry, in the order. -/
theorem Agree.pop {D : Saw → Prop} {s t : State} {e : LineEntry} {es : List LineEntry} (h : Agree D s)
    (he : s.wau.line = e :: es) (hw : t.wau = { s.wau with line := es, order := dropSaw e.saw s.wau.order })
    (hs : ∀ v, t.states v = s.states v) (hr : t.rsv = s.rsv) : Agree (fun v => D v ∨ v = e.saw) t := by
  have hin : e ∈ s.wau.line := by simp [he]
  have hnd : ¬D e.saw := fun hd => (h.out _ hd).2.2.2 e.kind hin
  have hnodup := h.lineNodup
  rw [he, List.map_cons, List.nodup_cons] at hnodup
  have hx : s.states e.saw = .waiting ∨ s.states e.saw = .held := by
    rcases e with ⟨w, k⟩
    cases k
    · exact .inl ((h.started w hnd).1 hin)
    · exact .inr ((h.held w hnd).1 hin)
  have hout : ∀ k, (⟨e.saw, k⟩ : LineEntry) ∉ es := fun k hk => hnodup.1 (List.mem_map.2 ⟨_, hk, rfl⟩)
  have hmem : ∀ v k, v ≠ e.saw → ((⟨v, k⟩ : LineEntry) ∈ es ↔ (⟨v, k⟩ : LineEntry) ∈ s.wau.line) := fun v k hv => by
    rw [he, List.mem_cons]
    constructor
    · exact .inr
    · rintro (h | h)
      · subst h; exact absurd rfl hv
      · exact h
  have ha : s.wau.allotment.get e.saw = none ∧ s.wau.permit.get e.saw = false := by
    have h1 := h.allotted _ hnd
    have h2 := h.permit _ hnd
    rcases hx with hx | hx <;> simp_all
  refine ⟨by simpa [State.running, hr] using h.run, ?_, ?_, ?_, ?_, ?_, ?_, ?_, ?_, ?_⟩
  · intro v hv
    have e : ¬D v ∧ v ≠ e.saw := not_or.1 hv
    simp [hw, hs, h.allotted v e.1]
  · intro v hv
    have e : ¬D v ∧ v ≠ e.saw := not_or.1 hv
    simp [hw, hs, h.permit v e.1]
  · intro v hv
    have e : ¬D v ∧ v ≠ e.saw := not_or.1 hv
    simp [hw, hs, mem_dropSaw, e.2, h.ordered v e.1]
  · intro v hv
    have e : ¬D v ∧ v ≠ e.saw := not_or.1 hv
    simp [hw, hs, hmem v _ e.2, h.started v e.1]
  · intro v hv
    have e : ¬D v ∧ v ≠ e.saw := not_or.1 hv
    simp [hw, hs, hmem v _ e.2, h.held v e.1]
  · intro v hv
    by_cases e' : v = e.saw
    · subst e'
      exact ⟨by simp [hw, ha], by simp [hw, ha], by simp [hw, mem_dropSaw], by simpa [hw] using hout⟩
    · obtain ⟨h1, h2, h3, h4⟩ := h.out v (hv.resolve_right e')
      exact ⟨by simp [hw, h1], by simp [hw, h2], by simp [hw, mem_dropSaw, h3],
        fun k => by simp only [hw]; exact fun hk => h4 k ((hmem v k e').1 hk)⟩
  · simpa [hw] using dropSaw_nodup h.orderNodup
  · simpa [hw] using hnodup.2
  · simpa [hw, Admission.granted] using h.granted

/-- Admission from the head of the line: the two steps together. -/
theorem admit_pop (w : Saw) (d : Nat) (es : List LineEntry) (a : Admission) :
    Admission.admitSaw w d { a with line := es } = Admission.admitSaw w d { a with line := es, order := dropSaw w a.order } := by
  simp [Admission.admitSaw, dropSaw]

/-- A saw outside the records takes a STARTED entry and waits. -/
theorem Agree.enqueue {D : Saw → Prop} {s t : State} {w : Saw} (h : Agree D s) (hd : D w)
    (hw : t.wau = Admission.enqueue w s.wau) (hs : ∀ v, t.states v = if v = w then .waiting else s.states v)
    (hr : t.rsv = s.rsv) : Agree (fun v => D v ∧ v ≠ w) t := by
  obtain ⟨h1, h2, h3, h4⟩ := h.out w hd
  have key : ∀ v, ¬(D v ∧ v ≠ w) → v = w ∨ (¬D v ∧ v ≠ w) := fun v hv => by
    by_cases e : v = w
    · exact .inl e
    · exact .inr ⟨fun d => hv ⟨d, e⟩, e⟩
  refine ⟨by simpa [State.running, hr] using h.run, ?_, ?_, ?_, ?_, ?_, ?_, ?_, ?_, ?_⟩
  · intro v hv
    rcases key v hv with rfl | ⟨e, e'⟩
    · simp [hw, Admission.enqueue, hs, h1]
    · simp [hw, Admission.enqueue, hs, e', h.allotted v e]
  · intro v hv
    rcases key v hv with rfl | ⟨e, e'⟩
    · simp [hw, Admission.enqueue, hs, h2]
    · simp [hw, Admission.enqueue, hs, e', h.permit v e]
  · intro v hv
    rcases key v hv with rfl | ⟨e, e'⟩
    · simp [hw, Admission.enqueue, hs, h3]
    · simp [hw, Admission.enqueue, hs, e', h.ordered v e]
  · intro v hv
    rcases key v hv with rfl | ⟨e, e'⟩
    · simp [hw, Admission.enqueue, hs]
    · simp [hw, Admission.enqueue, hs, e', h.started v e]
  · intro v hv
    rcases key v hv with rfl | ⟨e, e'⟩
    · simp [hw, Admission.enqueue, hs, h4]
    · simp [hw, Admission.enqueue, hs, e', h.held v e]
  · rintro v ⟨hv, e⟩
    obtain ⟨h1, h2, h3, h4⟩ := h.out v hv
    exact ⟨by simp [hw, Admission.enqueue, h1], by simp [hw, Admission.enqueue, h2], by simp [hw, Admission.enqueue, h3],
      fun k => by simp [hw, Admission.enqueue, h4, e]⟩
  · simpa [hw, Admission.enqueue] using h.orderNodup
  · simp only [hw, Admission.enqueue, List.map_append, List.map_cons, List.map_nil]
    refine List.nodup_append.2 ⟨h.lineNodup, by simp, ?_⟩
    rintro a ha b hb rfl
    simp only [List.mem_singleton] at hb
    subst hb
    obtain ⟨⟨v, k⟩, hm, rfl⟩ := List.mem_map.1 ha
    exact h4 k hm
  · simpa [hw, Admission.enqueue, Admission.granted] using h.granted

/-- A HOLDING saw that completes its hold takes a HELD entry. -/
theorem Agree.holdComplete {D : Saw → Prop} {s t : State} {w : Saw} (h : Agree D s) (hd : ¬D w) (hx : s.states w = .holding)
    (hw : t.wau = Admission.holdComplete w s.wau) (hs : ∀ v, t.states v = if v = w then .held else s.states v)
    (hr : t.rsv = s.rsv) : Agree D t := by
  have h1 := h.allotted w hd
  have h3 := h.ordered w hd
  have h4 := h.started w hd
  have h5 := h.held w hd
  rw [hx] at h1 h3 h4 h5
  have hne : ∀ v, D v → v ≠ w := fun v hv e => hd (e ▸ hv)
  refine ⟨by simpa [State.running, hr] using h.run, ?_, ?_, ?_, ?_, ?_, ?_, ?_, ?_, ?_⟩
  · intro v hv
    by_cases e : v = w
    · subst e; simpa [hw, Admission.holdComplete, hs] using h1
    · simp [hw, Admission.holdComplete, hs, e, h.allotted v hv]
  · intro v hv
    by_cases e : v = w
    · subst e; simp [hw, Admission.holdComplete, hs]
    · simp [hw, Admission.holdComplete, hs, e, Four.get_set, h.permit v hv]
  · intro v hv
    by_cases e : v = w
    · subst e; simpa [hw, Admission.holdComplete, hs] using h3
    · simp [hw, Admission.holdComplete, hs, e, h.ordered v hv]
  · intro v hv
    by_cases e : v = w
    · subst e; simpa [hw, Admission.holdComplete, hs, mem_placeHeld] using h4
    · simp [hw, Admission.holdComplete, hs, mem_placeHeld, e, h.started v hv]
  · intro v hv
    by_cases e : v = w
    · subst e; simp [hw, Admission.holdComplete, hs, mem_placeHeld]
    · simp [hw, Admission.holdComplete, hs, mem_placeHeld, e, h.held v hv]
  · intro v hv
    have e := hne v hv
    obtain ⟨g1, g2, g3, g4⟩ := h.out v hv
    exact ⟨by simp [hw, Admission.holdComplete, g1], by simp [hw, Admission.holdComplete, Four.get_set, e, g2],
      by simp [hw, Admission.holdComplete, g3], fun k => by simp [hw, Admission.holdComplete, mem_placeHeld, e, g4]⟩
  · simpa [hw, Admission.holdComplete] using h.orderNodup
  · simp only [hw, Admission.holdComplete]
    have p := (placeHeld_perm s.wau.order w s.wau.line).map LineEntry.saw
    rw [p.nodup_iff, List.map_cons, List.nodup_cons]
    refine ⟨fun hm => ?_, h.lineNodup⟩
    obtain ⟨⟨v, k⟩, hm, e⟩ := List.mem_map.1 hm
    simp only at e
    subst e
    cases k <;> simp_all
  · simpa [hw, Admission.holdComplete, Admission.granted] using h.granted

/-- A saw is removed from the line. -/
theorem Agree.remove {D : Saw → Prop} {s t : State} {w : Saw} (h : Agree D s)
    (hx : s.states w ≠ .cutting ∧ s.states w ≠ .holding)
    (hw : t.wau = Admission.remove w s.wau) (hs : ∀ v, v ≠ w → t.states v = s.states v) (hr : t.rsv = s.rsv) :
    Agree (fun v => D v ∨ v = w) t := by
  have hmem : ∀ v k, v ≠ w → ((⟨v, k⟩ : LineEntry) ∈ t.wau.line ↔ (⟨v, k⟩ : LineEntry) ∈ s.wau.line) := fun v k hv => by
    simp [hw, Admission.remove, hv]
  have hord : ∀ v, v ≠ w → (v ∈ t.wau.order ↔ v ∈ s.wau.order) := fun v hv => by
    simp only [hw, Admission.remove]; split <;> simp [mem_dropSaw, hv]
  refine ⟨by simpa [State.running, hr] using h.run, ?_, ?_, ?_, ?_, ?_, ?_, ?_, ?_, ?_⟩
  · intro v hv
    have e : ¬D v ∧ v ≠ w := not_or.1 hv
    simp [hw, Admission.remove, hs v e.2, h.allotted v e.1]
  · intro v hv
    have e : ¬D v ∧ v ≠ w := not_or.1 hv
    simp [hw, Admission.remove, hs v e.2, h.permit v e.1]
  · intro v hv
    have e : ¬D v ∧ v ≠ w := not_or.1 hv
    rw [hord v e.2, hs v e.2, h.ordered v e.1]
  · intro v hv
    have e : ¬D v ∧ v ≠ w := not_or.1 hv
    rw [hmem v _ e.2, hs v e.2, h.started v e.1]
  · intro v hv
    have e : ¬D v ∧ v ≠ w := not_or.1 hv
    rw [hmem v _ e.2, hs v e.2, h.held v e.1]
  · intro v hv
    by_cases e : v = w
    · subst e
      by_cases hd : D v
      · obtain ⟨g1, g2, g3, g4⟩ := h.out v hd
        refine ⟨by simp [hw, Admission.remove, g1], by simp [hw, Admission.remove, g2], ?_, fun k => by
          simp [hw, Admission.remove]⟩
        simp only [hw, Admission.remove]; split <;> simp [mem_dropSaw, g3]
      · have h1 := h.allotted v hd
        have h2 := h.permit v hd
        have h3 := h.ordered v hd
        have h5 := h.held v hd
        refine ⟨?_, ?_, ?_, fun k => by simp [hw, Admission.remove]⟩
        · simp only [hw, Admission.remove]
          cases e : s.wau.allotment.get v <;> simp_all
        · simp only [hw, Admission.remove]
          cases e : s.wau.permit.get v <;> simp_all
        · simp only [hw, Admission.remove]
          split
          · simp [mem_dropSaw]
          · next hk =>
            rw [h3]
            rintro (c | c | c)
            · exact hx.1 c
            · exact hx.2 c
            · exact hk (List.any_eq_true.2 ⟨_, h5.2 c, by simp⟩)
    · obtain ⟨g1, g2, g3, g4⟩ := h.out v (hv.resolve_right e)
      exact ⟨by simp [hw, Admission.remove, g1], by simp [hw, Admission.remove, g2], by rw [hord v e]; exact g3,
        fun k => by rw [hmem v k e]; exact g4 k⟩
  · simp only [hw, Admission.remove]
    split
    · exact dropSaw_nodup h.orderNodup
    · exact h.orderNodup
  · simp only [hw, Admission.remove]
    exact h.lineNodup.sublist (List.filter_sublist.map _)
  · simpa [hw, Admission.remove, Admission.granted] using h.granted

/-- A CUTTING saw's allotment is revoked and it goes to HOLDING. -/
theorem Agree.revoke {D : Saw → Prop} {s t : State} {w : Saw} (h : Agree D s) (ha : (s.wau.allotment.get w).isSome = true)
    (hw : t.wau = Admission.revoke w s.wau) (hs : ∀ v, t.states v = if v = w then .holding else s.states v)
    (hr : t.rsv = s.rsv) : Agree D t := by
  have hd : ¬D w := fun hd => by simp [(h.out w hd).1] at ha
  have hx := (h.allotted w hd).1 ha
  have hne : ∀ v, D v → v ≠ w := fun v hv e => hd (e ▸ hv)
  have g := Admission.granted_set s.wau w none
  have h2 := h.permit w hd
  have h3 := h.ordered w hd
  have h4 := h.started w hd
  have h5 := h.held w hd
  rw [hx] at h2 h3 h4 h5
  refine ⟨by simpa [State.running, hr] using h.run, ?_, ?_, ?_, ?_, ?_, ?_, ?_, ?_, ?_⟩
  · intro v hv
    by_cases e : v = w
    · subst e; simp [hw, Admission.revoke, hs]
    · simp [hw, Admission.revoke, hs, e, Four.get_set, h.allotted v hv]
  · intro v hv
    by_cases e : v = w
    · subst e; simpa [hw, Admission.revoke, hs] using h2
    · simp [hw, Admission.revoke, hs, e, h.permit v hv]
  · intro v hv
    by_cases e : v = w
    · subst e; simpa [hw, Admission.revoke, hs] using h3
    · simp [hw, Admission.revoke, hs, e, h.ordered v hv]
  · intro v hv
    by_cases e : v = w
    · subst e; simpa [hw, Admission.revoke, hs] using h4
    · simp [hw, Admission.revoke, hs, e, h.started v hv]
  · intro v hv
    by_cases e : v = w
    · subst e; simpa [hw, Admission.revoke, hs] using h5
    · simp [hw, Admission.revoke, hs, e, h.held v hv]
  · intro v hv
    have e := hne v hv
    obtain ⟨g1, g2, g3, g4⟩ := h.out v hv
    exact ⟨by simp [hw, Admission.revoke, Four.get_set, e, g1], by simp [hw, Admission.revoke, g2],
      by simp [hw, Admission.revoke, g3], by simpa [hw, Admission.revoke] using g4⟩
  · simpa [hw, Admission.revoke] using h.orderNodup
  · simpa [hw, Admission.revoke] using h.lineNodup
  · have := h.granted
    simp only [hw, Admission.revoke]
    simp only [Admission.granted, Option.getD_none, Nat.add_zero] at g this ⊢
    omega

theorem Agree.of_iff {D E : Saw → Prop} {s : State} (h : Agree D s) (e : ∀ v, D v ↔ E v) : Agree E s := by
  have : D = E := funext fun v => propext (e v)
  exact this ▸ h

/-! ## The shared operations -/

/-- A function that keeps the agreement, whichever saws stand outside it. -/
def KeepsAgree (f : State → State) : Prop := ∀ D s, Agree D s → Agree D (f s)

/-- The water's side of a stop. -/
theorem Agree.leaveWater {D : Saw → Prop} {s : State} {w : Saw} {pass : State → State} (hp : KeepsAgree pass) (h : Agree D s)
    (hd : ¬D w) (hx : s.states w = .cutting ∨ s.states w = .holding) :
    Agree (fun v => D v ∨ v = w) (s.leaveWater pass w) := by
  unfold State.leaveWater
  rcases hx with hx | hx
  · rw [show (s.saw w).state = .cutting from hx]
    exact hp _ _ (h.leave hd (.inl hx) rfl (fun _ _ => rfl) rfl)
  · rw [show (s.saw w).state = .holding from hx]
    exact h.leave hd (.inr hx) (h.endHold_eq hd hx) (fun _ _ => rfl) rfl

/-- A fault of a CUTTING or HOLDING saw. -/
theorem Agree.faultInCut {D : Saw → Prop} {s : State} {w : Saw} {pass : State → State} (hp : KeepsAgree pass) (h : Agree D s)
    (hd : ¬D w) (hx : s.states w = .cutting ∨ s.states w = .holding) (n : Nat) (c : Cause) :
    Agree D (s.faultInCut pass w n c) := by
  unfold State.faultInCut
  simp only
  generalize hs1 : ((s.updateSaw w fun r => { r with holdTimer := none }).reportReached w n).closeSegment w n = s1
  have h1 : Agree D s1 := h.congr (by simp [← hs1]) (fun v => by
    simp only [← hs1, State.states_closeSegment, State.states_reportReached]
    exact State.states_updateSaw_keep _ _ _ (by intro; rfl) _) (by simp [← hs1])
  have hx1 : s1.states w = .cutting ∨ s1.states w = .holding := by
    have : s1.states w = s.states w := by
      simp only [← hs1, State.states_closeSegment, State.states_reportReached]
      exact State.states_updateSaw_keep _ _ _ (by intro; rfl) _
    rwa [this]
  have h2 := Agree.leaveWater hp h1 hd hx1
  have h3 := h2.settle (t := ((((s1.leaveWater pass w).faultBlade w c).writeContext w .fault (some c) 1).setSawState w
    .faulted).raise .sawFault) (w := w) (x := .faulted) (.inr rfl) rfl (by simp) (fun v => by simp) (by simp)
  exact h3.of_iff fun v => ⟨fun ⟨a, b⟩ => a.resolve_right b, fun a => ⟨.inl a, fun e => hd (e ▸ a)⟩⟩

/-- A saw that has entered CUTTING and meets its interlock. -/
theorem Agree.settleInterlock {D : Saw → Prop} {s : State} {w : Saw} {pass : State → State} (hp : KeepsAgree pass)
    (h : Agree D s) (hd : ¬D w) (hx : s.states w = .cutting) : Agree D (s.settleInterlock pass w) := by
  unfold State.settleInterlock
  split
  · exact h
  · exact h.faultInCut hp hd (.inl hx) _ _

/-- An admission pass keeps the agreement (R174, R178). -/
theorem admissionPass_agree (n : Nat) : KeepsAgree (admissionPass n) := by
  induction n with
  | zero => exact fun D s h => h
  | succ n ih =>
    intro D s h
    unfold admissionPass
    split
    · exact h
    · next e es he =>
      split
      · next hf =>
        apply ih
        have hin : e ∈ s.wau.line := by simp [he]
        have hnd : ¬D e.saw := fun hd => (h.out _ hd).2.2.2 e.kind hin
        have hpop := h.pop (t := s.withWau fun a => { a with line := es, order := dropSaw e.saw a.order }) he rfl
          (fun _ => rfl) rfl
        have hf' : (s.saw e.saw).demand + s.wau.granted ≤ s.wau.capacity := by simpa [State.fits] using hf
        have hadm := hpop.admitSaw (t := ((s.withWau fun a => { a with line := es }).admitSaw e.saw).enterCut e.saw) (w := e.saw)
          (d := (s.saw e.saw).demand) (.inr rfl) (by simpa [Admission.granted] using hf')
          (by simp only [State.enterCut_wau, State.admitSaw, State.withWau_wau, State.saw_withWau]; exact admit_pop ..)
          (fun v => by simp) (by simp)
        have hk : Agree D (((s.withWau fun a => { a with line := es }).admitSaw e.saw).enterCut e.saw) :=
          hadm.of_iff fun v => ⟨fun ⟨a, b⟩ => a.resolve_right b, fun a => ⟨.inl a, fun q => hnd (q ▸ a)⟩⟩
        exact hk.settleInterlock ih hnd (by simp)
      · exact h

theorem runPass_agree : KeepsAgree State.runPass := fun D s h => admissionPass_agree _ D s h

/-- A removal from the line leaves the saw outside the records (R183). -/
theorem Agree.removeFromLine {D : Saw → Prop} {s : State} {w : Saw} (h : Agree D s)
    (hx : s.states w ≠ .cutting ∧ s.states w ≠ .holding) : Agree (fun v => D v ∨ v = w) (s.removeFromLine w) := by
  unfold State.removeFromLine
  split
  · exact runPass_agree _ _ (h.remove hx rfl (fun _ _ => rfl) rfl)
  · next hl =>
    refine h.remove hx ?_ (fun _ _ => rfl) rfl
    have hf : ∀ e ∈ s.wau.line, e.saw ≠ w := fun e he hw =>
      hl (List.any_eq_true.2 ⟨e, he, by simp [hw]⟩)
    have h1 : s.wau.line.filter (fun e => e.saw != w) = s.wau.line :=
      List.filter_eq_self.2 fun e he => by simp [hf e he]
    have h2 : (s.wau.line.any fun e => e.saw == w && e.kind == .held) = false :=
      List.any_eq_false.2 fun e he => by simp [hf e he]
    simp [Admission.remove, h1, h2]

/-- Revocation down a list: the agreement stays; with every allotted saw in the list, A ends at or below the capacity
(R181). -/
theorem revokeDown_agree (c : Nat) (ws : List Saw) : ∀ {D : Saw → Prop} {s : State}, Agree D s → Agree D (revokeDown c ws s) := by
  induction ws with
  | nil => exact fun h => h
  | cons w ws ih =>
    intro D s h
    unfold revokeDown
    split
    · exact h
    · split
      · next ha => exact ih (h.revoke ha rfl (fun v => by simp) rfl)
      · exact ih h

theorem revokeDown_granted (c : Nat) (ws : List Saw) :
    ∀ s : State, (∀ w, (s.wau.allotment.get w).isSome = true → w ∈ ws) → (revokeDown c ws s).wau.granted ≤ c := by
  induction ws with
  | nil =>
    intro s h
    have hn : ∀ w, s.wau.allotment.get w = none := fun w => by
      cases e : s.wau.allotment.get w with
      | none => rfl
      | some a => exact absurd (h w (by simp [e])) (by simp)
    have h1 := hn .saw1; have h2 := hn .saw2; have h3 := hn .saw3; have h4 := hn .saw4
    simp only [Four.get] at h1 h2 h3 h4
    simp [revokeDown, Admission.granted, h1, h2, h3, h4]
  | cons w ws ih =>
    intro s h
    unfold revokeDown
    split
    · assumption
    · split
      · refine ih _ fun v hv => ?_
        have hv : ((s.wau.allotment.set w none).get v).isSome = true := hv
        by_cases e : v = w
        · subst e; simp at hv
        · rw [Four.get_set, if_neg e] at hv
          exact (List.mem_cons.1 (h v hv)).resolve_left e
      · next hn =>
        refine ih _ fun v hv => (List.mem_cons.1 (h v hv)).resolve_left ?_
        rintro rfl; exact hn hv

end Sys2Proof.Machine
end

