-- ==== Sys2Proof/Laws/Work.lean ====
section
/-! SUPPORT. What the shared operations of a cut keep: the saw fields that only a link, a load or the host changes, and the plan
fields that only a plan transition changes. -/

namespace Sys2Proof.Machine

/-- A saw record but for what a cut moves: the link, the configuration, the blade, the queue, the pending load and the inputs. -/
def SawRec.kept (r : SawRec) : SawRec :=
  { r with state := .idle, outstanding := [], nextTag := 0, context := none, meters := .reset, passTime := 0, holdTimer := none }

/-- A plan record but for its progress: the number, the job, the slab, the layout, the state, the saw and the remnant given. -/
def Plan.kept (p : Plan) : Plan := { p with derived := none, finished := [], piecesFinished := 0 }

def State.keptSaw (s : State) (v : Saw) : SawRec := (s.saw v).kept
def State.keptPlan? (s : State) (n : Nat) : Option Plan := (s.plan? n).map Plan.kept

/-- Two states agree on what a cut does not move. -/
def Kept (s t : State) : Prop := (∀ v, t.keptSaw v = s.keptSaw v) ∧ ∀ n, t.keptPlan? n = s.keptPlan? n

theorem Kept.refl (s : State) : Kept s s := ⟨fun _ => rfl, fun _ => rfl⟩
theorem Kept.trans {s t u : State} (h : Kept s t) (k : Kept t u) : Kept s u :=
  ⟨fun v => (k.1 v).trans (h.1 v), fun n => (k.2 n).trans (h.2 n)⟩
theorem Kept.of_eq {s t : State} (h : t.sdp.saws = s.sdp.saws) (k : t.pln = s.pln) : Kept s t :=
  ⟨fun v => by simp [State.keptSaw, State.saw, h], fun n => by simp [State.keptPlan?, State.plan?, k]⟩

/-! ## What follows for one field -/

theorem Kept.link {s t : State} (h : Kept s t) (v : Saw) : (t.saw v).link = (s.saw v).link :=
  show (t.keptSaw v).link = (s.keptSaw v).link from congrArg SawRec.link (h.1 v)
theorem Kept.queue {s t : State} (h : Kept s t) (v : Saw) : (t.saw v).queue = (s.saw v).queue :=
  show (t.keptSaw v).queue = (s.keptSaw v).queue from congrArg SawRec.queue (h.1 v)
theorem Kept.pendingLoad {s t : State} (h : Kept s t) (v : Saw) : (t.saw v).pendingLoad = (s.saw v).pendingLoad :=
  show (t.keptSaw v).pendingLoad = (s.keptSaw v).pendingLoad from congrArg SawRec.pendingLoad (h.1 v)
theorem Kept.blade {s t : State} (h : Kept s t) (v : Saw) : (t.saw v).blade = (s.saw v).blade :=
  show (t.keptSaw v).blade = (s.keptSaw v).blade from congrArg SawRec.blade (h.1 v)
theorem Kept.interlock {s t : State} (h : Kept s t) (v : Saw) : (t.saw v).interlock = (s.saw v).interlock :=
  show (t.keptSaw v).interlock = (s.keptSaw v).interlock from congrArg SawRec.interlock (h.1 v)
theorem Kept.demand {s t : State} (h : Kept s t) (v : Saw) : (t.saw v).demand = (s.saw v).demand :=
  show (t.keptSaw v).demand = (s.keptSaw v).demand from congrArg SawRec.demand (h.1 v)

/-- A plan on record after is one on record before, with the same state, saw, slab and job. -/
theorem Kept.plan {s t : State} (h : Kept s t) {n : Nat} {p : Plan} (hp : t.plan? n = some p) :
    ∃ q, s.plan? n = some q ∧ q.kept = p.kept := by
  have e := h.2 n
  simp only [State.keptPlan?, hp, Option.map_some] at e
  cases hq : s.plan? n with
  | none => simp [hq] at e
  | some q => exact ⟨q, rfl, by simpa [hq] using e.symm⟩

/-- A plan on record before is on record after, with the same state, saw, slab and job. -/
theorem Kept.plan' {s t : State} (h : Kept s t) {n : Nat} {p : Plan} (hp : s.plan? n = some p) :
    ∃ q, t.plan? n = some q ∧ q.kept = p.kept := by
  have e := h.2 n
  simp only [State.keptPlan?, hp, Option.map_some] at e
  cases hq : t.plan? n with
  | none => simp [hq] at e
  | some q => exact ⟨q, rfl, by simpa [hq] using e⟩

theorem Plan.kept_state {p q : Plan} (h : q.kept = p.kept) : q.state = p.state :=
  show q.kept.state = p.kept.state from congrArg Plan.state h
theorem Plan.kept_saw {p q : Plan} (h : q.kept = p.kept) : q.saw = p.saw :=
  show q.kept.saw = p.kept.saw from congrArg Plan.saw h
theorem Plan.kept_slab {p q : Plan} (h : q.kept = p.kept) : q.slab = p.slab :=
  show q.kept.slab = p.kept.slab from congrArg Plan.slab h
theorem Plan.kept_job {p q : Plan} (h : q.kept = p.kept) : q.job = p.job :=
  show q.kept.job = p.kept.job from congrArg Plan.job h

/-! ## The plain updates -/

theorem Kept.updateSaw (s : State) (w : Saw) {f : SawRec → SawRec} (h : ∀ r, (f r).kept = r.kept) : Kept s (s.updateSaw w f) := by
  refine ⟨fun v => ?_, fun _ => rfl⟩
  simp only [State.keptSaw, State.saw_updateSaw]
  split
  · next e => subst e; exact h _
  · rfl

theorem Kept.updatePlan (s : State) (n : Nat) {f : Plan → Plan} (h : ∀ p, (f p).kept = p.kept) : Kept s (s.updatePlan n f) := by
  refine ⟨fun _ => rfl, fun m => ?_⟩
  have hk : ∀ p, (f p).number = p.number := fun p =>
    show (f p).kept.number = p.kept.number from congrArg Plan.number (h p)
  simp only [State.keptPlan?, updatePlan_plan? s n f m hk]
  split
  · cases s.plan? m with
    | none => rfl
    | some p => simp [h]
  · rfl

theorem Kept.setSawState (s : State) (w : Saw) (x : SawState) : Kept s (s.setSawState w x) :=
  Kept.updateSaw _ _ fun _ => rfl
theorem Kept.send (s : State) (w : Saw) (f : Frame) : Kept s (s.send w f) := Kept.of_eq rfl rfl
theorem Kept.raise (s : State) (n : Notice) : Kept s (s.raise n) := Kept.of_eq rfl rfl
theorem Kept.withWau (s : State) (f : Admission → Admission) : Kept s (s.withWau f) := Kept.of_eq rfl rfl
theorem Kept.updateJob (s : State) (n : Nat) (f : Job → Job) : Kept s (s.updateJob n f) := Kept.of_eq rfl rfl
theorem Kept.updatePass (s : State) (n i : Nat) (f : Pass → Pass) : Kept s (s.updatePass n i f) :=
  Kept.updatePlan _ _ fun _ => rfl

/-! ## The shared operations of a cut -/

theorem Kept.reportReached (s : State) (w : Saw) (p : Nat) : Kept s (s.reportReached w p) := by
  unfold State.reportReached; split
  · exact Kept.updatePass ..
  · exact .refl _
theorem Kept.dropWindow (s : State) (w : Saw) : Kept s (s.dropWindow w) := by
  unfold State.dropWindow; dsimp only
  refine Kept.trans ?_ (Kept.updateSaw _ _ (by intro; rfl))
  split
  · exact Kept.updatePlan _ _ (by intro; rfl)
  · exact .refl _
theorem Kept.stagePass (s : State) (w : Saw) : Kept s (s.stagePass w) := by
  unfold State.stagePass
  split
  · exact .refl _
  · split
    · exact .refl _
    · dsimp only
      refine Kept.trans ?_ (Kept.updatePass ..)
      refine Kept.trans ?_ (Kept.send ..)
      exact Kept.updateSaw _ _ (by intro; rfl)
theorem Kept.refill (s : State) (w : Saw) : Kept s (s.refill w) := by
  unfold State.refill; split
  · exact Kept.stagePass ..
  · exact .refl _
theorem Kept.openSegment (s : State) (w : Saw) : Kept s (s.openSegment w) := Kept.updateSaw _ _ (by intro; rfl)
theorem Kept.chargeHead (s : State) (w : Saw) (f : Job → Job) : Kept s (s.chargeHead w f) :=
  Kept.of_eq (by simp) (by simp)
theorem Kept.chargeWear (s : State) (w : Saw) (p : Nat) : Kept s (s.chargeWear w p) := Kept.of_eq (by simp) (by simp)
theorem Kept.faultBlade (s : State) (w : Saw) (c : Cause) : Kept s (s.faultBlade w c) := Kept.of_eq (by simp) (by simp)
theorem Kept.closeSegment (s : State) (w : Saw) (p : Nat) : Kept s (s.closeSegment w p) := by
  unfold State.closeSegment; dsimp only
  refine Kept.trans ?_ (Kept.updateSaw _ _ (by intro; rfl))
  refine Kept.trans ?_ (Kept.chargeHead ..)
  refine Kept.trans ?_ (Kept.chargeHead ..)
  refine Kept.trans ?_ (Kept.updateSaw _ _ (by intro; rfl))
  exact Kept.chargeWear ..
theorem Kept.writeContext (s : State) (w : Saw) (k : ContextKind) (c : Option Cause) (n : Nat) :
    Kept s (s.writeContext w k c n) := Kept.updateSaw _ _ (by intro; rfl)
theorem Kept.admitSaw (s : State) (w : Saw) : Kept s (s.admitSaw w) := Kept.withWau ..
theorem Kept.grantGo (s : State) (w : Saw) : Kept s (s.grantGo w) := by
  unfold State.grantGo; dsimp only
  refine Kept.trans ?_ (Kept.setSawState ..)
  refine Kept.trans ?_ (Kept.openSegment ..)
  refine Kept.trans ?_ (Kept.updateSaw _ _ (by intro; rfl))
  split
  · exact Kept.trans (Kept.send ..) (Kept.updatePass ..)
  · exact .refl _
theorem Kept.sendResume (s : State) (w : Saw) (p : Plan) (q : Pass) : Kept s (s.sendResume w p q) := by
  unfold State.sendResume State.tagActive; dsimp only
  refine Kept.trans ?_ (Kept.send ..)
  split
  · exact .refl _
  · exact Kept.updateSaw _ _ (by intro; rfl)
theorem Kept.resumeCut (s : State) (w : Saw) : Kept s (s.resumeCut w) := by
  unfold State.resumeCut; dsimp only
  refine Kept.trans ?_ (Kept.setSawState ..)
  refine Kept.trans ?_ (Kept.updateSaw _ _ (by intro; rfl))
  refine Kept.trans ?_ (Kept.refill ..)
  refine Kept.trans ?_ (Kept.openSegment ..)
  split
  · exact Kept.sendResume ..
  · exact .refl _
theorem Kept.enterCut (s : State) (w : Saw) : Kept s (s.enterCut w) := by
  unfold State.enterCut; split
  · exact Kept.resumeCut ..
  · exact Kept.grantGo ..
theorem Kept.orderHold (s : State) (w : Saw) : Kept s (s.orderHold w) := by
  unfold State.orderHold
  refine Kept.trans ?_ (Kept.updateSaw _ _ (by intro; rfl))
  exact Kept.send ..
theorem Kept.finishStrips (s : State) (n : Nat) : Kept s (s.finishStrips n) := by
  unfold State.finishStrips
  split
  · exact .refl _
  · dsimp only
    refine Kept.trans ?_ (Kept.updateJob ..)
    exact Kept.updatePlan _ _ (by intro; rfl)
theorem Kept.reportDone (s : State) (n i : Nat) : Kept s (s.reportDone n i) := by
  unfold State.reportDone
  exact Kept.trans (Kept.updatePass ..) (Kept.finishStrips ..)

theorem Kept.leaveWater {pass : State → State} (hp : ∀ s, Kept s (pass s)) (s : State) (w : Saw) :
    Kept s (s.leaveWater pass w) := by
  unfold State.leaveWater; split
  · exact Kept.trans (Kept.withWau ..) (hp _)
  · exact Kept.withWau ..
  · exact .refl _
theorem Kept.faultInCut {pass : State → State} (hp : ∀ s, Kept s (pass s)) (s : State) (w : Saw) (p : Nat) (c : Cause) :
    Kept s (s.faultInCut pass w p c) := by
  unfold State.faultInCut; dsimp only
  refine Kept.trans ?_ (Kept.raise ..)
  refine Kept.trans ?_ (Kept.setSawState ..)
  refine Kept.trans ?_ (Kept.writeContext ..)
  refine Kept.trans ?_ (Kept.faultBlade ..)
  refine Kept.trans ?_ (Kept.leaveWater hp ..)
  refine Kept.trans ?_ (Kept.closeSegment ..)
  refine Kept.trans ?_ (Kept.reportReached ..)
  exact Kept.updateSaw _ _ (by intro; rfl)
theorem Kept.settleInterlock {pass : State → State} (hp : ∀ s, Kept s (pass s)) (s : State) (w : Saw) :
    Kept s (s.settleInterlock pass w) := by
  unfold State.settleInterlock; split
  · exact .refl _
  · exact Kept.faultInCut hp ..
theorem Kept.admissionPass (n : Nat) : ∀ s, Kept s (admissionPass n s) := by
  induction n with
  | zero => exact fun s => .refl s
  | succ n ih =>
    intro s
    unfold Machine.admissionPass
    split
    · exact .refl _
    · split
      · dsimp only
        refine Kept.trans ?_ (ih _)
        refine Kept.trans ?_ (Kept.settleInterlock ih ..)
        refine Kept.trans ?_ (Kept.enterCut ..)
        refine Kept.trans ?_ (Kept.admitSaw ..)
        exact Kept.withWau ..
      · exact .refl _
/-- An admission pass, a removal from the line and a revocation move nothing but the cuts (R178, R181, R183). -/
theorem Kept.runPass (s : State) : Kept s s.runPass := Kept.admissionPass _ s
theorem Kept.removeFromLine (s : State) (w : Saw) : Kept s (s.removeFromLine w) := by
  unfold State.removeFromLine; split
  · exact Kept.trans (Kept.withWau ..) (Kept.runPass _)
  · exact .refl _
theorem Kept.revokeDown (c : Nat) (ws : List Saw) : ∀ s, Kept s (revokeDown c ws s) := by
  induction ws with
  | nil => exact fun s => .refl s
  | cons w ws ih =>
    intro s
    unfold Machine.revokeDown
    split
    · exact .refl _
    · split
      · refine Kept.trans ?_ (ih _)
        exact Kept.trans (Kept.withWau ..) (Kept.orderHold ..)
      · exact ih _
theorem Kept.raiseIf (s : State) (c : Bool) (n : Notice) : Kept s (s.raiseIf c n) := by
  unfold State.raiseIf; split
  · exact Kept.raise ..
  · exact .refl _
theorem Kept.evaluate (s : State) : Kept s s.evaluate := by
  unfold State.evaluate; dsimp only
  refine Kept.trans ?_ (Kept.raiseIf ..)
  split
  · refine Kept.trans ?_ (Kept.runPass _)
    refine Kept.trans ?_ (Kept.withWau ..)
    exact Kept.trans (Kept.withWau ..) (Kept.revokeDown ..)
  · refine Kept.trans ?_ (Kept.withWau ..)
    exact Kept.trans (Kept.withWau ..) (Kept.revokeDown ..)
theorem Kept.finishPass (s : State) (w : Saw) (p : Plan) (q : Pass) : Kept s (s.finishPass w p q) := by
  unfold State.finishPass; dsimp only
  refine Kept.trans ?_ (Kept.leaveWater Kept.runPass ..)
  refine Kept.trans ?_ (Kept.reportDone ..)
  refine Kept.trans ?_ (Kept.updateSaw _ _ (by intro; rfl))
  refine Kept.trans ?_ (Kept.closeSegment ..)
  exact Kept.updateSaw _ _ (by intro; rfl)

/-! ## The finished indications -/

/-- Strip s stands at bit s − 1 (R216). -/
theorem finishedBits_testBit (fs : List Bool) (k : Nat) : (finishedBits fs).testBit k = (fs[k]?).getD false := by
  induction fs generalizing k with
  | nil => simp [finishedBits]
  | cons f fs ih =>
    cases k with
    | zero => cases f <;> simp [finishedBits, boolCode, Nat.testBit_zero] <;> omega
    | succ k =>
      have e : (boolCode f + 2 * finishedBits fs) / 2 = finishedBits fs := by cases f <;> simp [boolCode] <;> omega
      simp [finishedBits, Nat.testBit_succ, e, ih]

end Sys2Proof.Machine
end

