-- ==== Sys2Proof/Tests/Slice0.lean ====
section
/-! SUPPORT. The model's own tests: ill-formed terms, bytes written out from the manual, single steps on a small state, and for
every statement with hypotheses a state and operands that meet them. -/

namespace Sys2Proof.Tests

open Sys2Proof Sys2Proof.Machine

-- One thread at a time: a thread for each of these evaluations would pass the memory limit.
set_option Elab.async false

/-! ## Ill-formed terms, one for each check of WellFormed -/

theorem test_wf_fits8 : (Instr.dropMaterial 256).wf = false ∧ (Instr.dropMaterial 255).wf = true := by decide
theorem test_wf_fits16 : (Instr.scrapSlab 65536).wf = false ∧ (Instr.scrapSlab 65535).wf = true := by decide
theorem test_wf_fits32 : (Instr.openJob 1 0 4294967296).wf = false ∧ (Instr.openJob 1 0 4294967295).wf = true := by decide
theorem test_wf_signed :
    (Instr.setChannel 0 1 0 32768 0 0).wf = false ∧ (Instr.setChannel 0 1 0 (-32769) 0 0).wf = false ∧
    (Instr.setChannel 0 1 0 (-32768) 32767 0).wf = true := by decide
theorem test_wf_raw :
    (Instr.channelSample .c0 11001).wf = false ∧ (Instr.channelSample .c0 (-1001)).wf = false ∧
    (Instr.channelSample .c0 11000).wf = true := by decide
theorem test_wf_all_raw : (Instr.fieldSupplyReturn ⟨0, 0, 0, 0, 0, 0, 11001⟩).wf = false := by decide
theorem test_wf_tag : (Instr.start .saw1 8).wf = false ∧ (Instr.fault .saw1 (some 8) 0 .stall).wf = false := by decide
theorem test_wf_flaws :
    (Instr.amendSlab 1 1 30 0 0 0 (List.replicate 5 ⟨0, 1, 0, 1⟩)).wf = false ∧
    (Instr.amendSlab 1 1 30 0 0 0 [⟨0, 65536, 0, 1⟩]).wf = false := by decide
theorem test_wf_pieces :
    (Instr.revisePlan 1 4 [⟨600, List.replicate 7 ⟨1, 50⟩⟩]).wf = false ∧
    (Instr.revisePlan 1 4 [⟨600, [⟨65536, 50⟩]⟩]).wf = false := by decide
theorem test_wf_strips : (Instr.revisePlan 1 4 (List.replicate 9 ⟨600, []⟩)).wf = false := by decide
theorem test_wf_spans :
    (Instr.startAudit (List.replicate 4 ⟨1, 1⟩)).wf = false ∧ (Instr.startAudit [⟨256, 1⟩]).wf = false := by decide
theorem test_wf_set : (Instr.calBegin (List.replicate 8 0)).wf = false ∧ (Instr.calBegin [256]).wf = false := by decide

/-! ## Bytes written out from the manual -/

/-- R210: the CRC's check value, and how it would be sent. -/
theorem test_crc : crc [0x31#8, 0x32#8, 0x33#8, 0x34#8, 0x35#8, 0x36#8, 0x37#8, 0x38#8, 0x39#8] = 0x29B1#16 := by
  decide +kernel

/-- R217: the ORDER for pass 1 of plan 31 under tag 6 with feed 1,200. -/
theorem test_order_body :
    (Frame.mk Kind.order none [.u8 6, .u16 31, .u8 1, .u8 0, .u16 650, .u16 3200, .u16 1200]).body =
      [0x44#8, 0x06#8, 0x1F#8, 0x00#8, 0x01#8, 0x00#8, 0x8A#8, 0x02#8, 0x80#8, 0x0C#8, 0xB0#8, 0x04#8] := by decide +kernel

def inputs : Inputs := ⟨⟨true, true, true, true⟩, true, true, ⟨5000, 5000, 5000, 5000, 5000, 5000, 5000⟩, false⟩

/-- The same, with main power lost again before the start ends. -/
def cutInputs : Inputs := { inputs with cut := true }

/-- R212, R211: CHECK PLAN 40. -/
theorem test_bytes_checkPlan : requestOf inputs [0x13#8, 40#8, 0#8] = .checkPlan 40 := by decide +kernel
/-- R215: AMEND SLAB carries the slab number and the fields at offsets 3 to 8, 13 to 16 and 26 onward. -/
theorem test_bytes_amendSlab :
    requestOf inputs [0x05#8, 0xD4#8, 0x00#8, 3#8, 30#8, 0#8, 0x34#8, 0x12#8, 7#8, 0x40#8, 0x0D#8, 0x03#8, 0#8, 1#8,
        1#8, 0#8, 2#8, 0#8, 3#8, 0#8, 4#8, 1#8] = .amendSlab 212 3 30 0x1234 7 200000 [⟨1, 2, 3, 260⟩] := by decide +kernel
/-- R216: REVISE PLAN carries the plan number, then the kerf, the strips and their pieces. -/
theorem test_bytes_revisePlan :
    requestOf inputs [0x12#8, 31#8, 0#8, 4#8, 1#8, 0x58#8, 0x02#8, 1#8, 9#8, 0#8, 0xB8#8, 0x0B#8] =
      .revisePlan 31 4 [⟨600, [⟨9, 3000⟩]⟩] := by decide +kernel
/-- R212, R211: SET CHANNEL with a signed low. -/
theorem test_bytes_setChannel :
    requestOf inputs [0x24#8, 2#8, 1#8, 0#8, 0xFF#8, 0xFF#8, 0xE8#8, 0x03#8] = .setChannel 2 1 0 (-1) 1000 5000 := by
  decide +kernel
/-- R212: OPEN JOB, its lot before its quote. -/
theorem test_bytes_openJob :
    requestOf inputs [0x2C#8, 7#8, 0#8, 5#8, 0#8, 0x18#8, 0x73#8, 0x01#8, 0#8] = .openJob 7 5 95000 := by decide +kernel
/-- R212, R218: SET NOTICES with WATER_STOP and SAW_FAULT, master on. -/
theorem test_bytes_setNotices : requestOf inputs [0x32#8, 0x01#8, 0x04#8, 1#8] = .setNotices 0x0401#16 1 := by decide +kernel
/-- R89, R212: FAULT without a tag, STALL at 310 mm. -/
theorem test_bytes_fault :
    messageOf .saw3 [0x46#8, 0#8, 0#8, 0x36#8, 0x01#8, 2#8] = .fault .saw3 none 310 .stall := by decide +kernel
/-- R89: a present indication of 2, a tag of 8 and a cause of 5 are bad forms. -/
theorem test_bytes_malformed :
    messageOf .saw1 [0x46#8, 2#8, 0#8, 0#8, 0#8, 1#8] = .sawMessageMalformed .saw1 0x46#8 ∧
    messageOf .saw1 [0x42#8, 8#8] = .sawMessageMalformed .saw1 0x42#8 ∧
    messageOf .saw1 [0x46#8, 0#8, 0#8, 0#8, 0#8, 5#8] = .sawMessageMalformed .saw1 0x46#8 := by decide +kernel
/-- R211, R212: a body too long, and a kind that is no request. -/
theorem test_bytes_unknown :
    requestOf inputs [0x13#8, 40#8, 0#8, 0#8] = .unknownRequest 0x13#8 ∧
    requestOf inputs [0x35#8] = .unknownRequest 0x35#8 := by decide +kernel
/-- R209: a frame on the line, taken byte by byte; a wrong CRC drops it. -/
theorem test_line :
    Phase.hunt.takeAll (0x00#8 :: frameBytes [0x0E#8]) = (.hunt, [.good [0x0E#8]]) ∧
    Phase.hunt.takeAll [0x5A#8, 1#8, 0x0E#8, 0#8, 0#8] = (.hunt, [.dropped]) ∧
    Phase.hunt.takeAll [0x5A#8, 0#8] = (.hunt, [.dropped]) ∧
    Phase.hunt.takeAll [0x5A#8, 241#8] = (.hunt, [.dropped]) := by decide +kernel

/-! ## The worked layouts (spec/04_layout_arithmetic.md 4.8 and 4.9) -/

def plan31 : LayoutInput :=
  ⟨3200, 1900, [⟨2900, 3100, 1700, 1850⟩], 180000, 4,
    [⟨650, [⟨1, 2400⟩, ⟨2, 780⟩]⟩, ⟨640, [⟨3, 1600⟩, ⟨4, 900⟩]⟩]⟩

def failureOf (i : LayoutInput) : Option Failure :=
  match layout i with
  | .error f => some f
  | .ok _ => none

/-- R74 to R81: the passes, the total cut length, the yield, the remnant and the charge of plan 31. -/
theorem test_plan31 : (layout plan31).toOption = some
    { passes := [⟨1, .rip, 1, 650, 3200, .pending, 0⟩, ⟨2, .rip, 2, 1294, 3200, .pending, 0⟩,
        ⟨3, .cross, 1, 2400, 650, .pending, 0⟩, ⟨4, .cross, 1, 3184, 650, .pending, 0⟩,
        ⟨5, .cross, 2, 1600, 640, .pending, 0⟩, ⟨6, .cross, 2, 2504, 640, .pending, 0⟩],
      cutLength := 8980, yield := 603, remnant := some ⟨3200, 602, [⟨2900, 3100, 402, 552⟩], 57032⟩,
      stoneCharge := 122968, basisAtCheck := 180000 } := by decide +kernel

/-- R71, R72: the four failures, each at its edge. -/
theorem test_layout_failures :
    failureOf { plan31 with width := 1293 } = some ⟨.width, 2, 0, 0, 1⟩ ∧
    failureOf { plan31 with length := 3183 } = some ⟨.length, 1, 2, 0, 1⟩ ∧
    failureOf { plan31 with flaws := [⟨0, 10, 650, 654⟩, ⟨1599, 1600, 1293, 1900⟩] } = some ⟨.flaw, 2, 1, 2, 0⟩ ∧
    failureOf ⟨3000, 1400, [], 0, 4, [⟨1400, [⟨1, 3000⟩]⟩]⟩ = some ⟨.empty, 0, 0, 0, 0⟩ := by decide +kernel

/-! ## A small shop -/

def slab (n : Nat) (st : SlabState) : Slab where
  number := n
  kind := .full
  material := 1
  thickness := 30
  lot := some ⟨5, 1⟩
  length := 3000
  width := 1400
  flaws := []
  basis := 96000
  place := none
  state := st
  plan := none
  parent := none
  missing := false
  mark := false

def strips : List Strip := [⟨600, [⟨1, 3000⟩]⟩, ⟨600, [⟨2, 1500⟩, ⟨3, 1400⟩]⟩]

/-- The derived part of the two strips, with the states and progress of the four passes. -/
def derived (a b c d : PassState × Nat) : Derived where
  passes := [⟨1, .rip, 1, 600, 3000, a.1, a.2⟩, ⟨2, .rip, 2, 1204, 3000, b.1, b.2⟩, ⟨3, .cross, 2, 1500, 600, c.1, c.2⟩,
    ⟨4, .cross, 2, 2904, 600, d.1, d.2⟩]
  cutLength := 7200
  yield := 842
  remnant := none
  stoneCharge := 96000
  basisAtCheck := 96000

def idlePasses : Derived := derived (.pending, 0) (.pending, 0) (.pending, 0) (.pending, 0)

def plan (n sl : Nat) (st : PlanState) (w : Option Saw) (d : Option Derived) : Plan where
  number := n
  job := 7
  slab := sl
  kerf := 4
  strips := strips
  state := st
  saw := w
  derived := d
  finished := [false, false]
  piecesFinished := 0
  remnantGiven := none

def job (n : Nat) (st : JobState) (plans : List Nat) : Job where
  number := n
  state := st
  lot := none
  quote := 0
  stone := 0
  sawTime := 0
  water := 0
  blade := 0
  sawRemainder := 0
  waterRemainder := 0
  planned := 9
  cut := 0
  plans := plans
  waterEstimated := false
  overQuote := false

def blade (n : Nat) (st : BladeState) (w : Option Saw) : Blade where
  number := n
  kerf := 4
  price := 40000
  life := 1000
  wear := 0
  wearRemainder := 0
  costRemainder := 0
  overloads := 0
  state := st
  saw := w
  advisoryNoticed := false
  exhaustedNoticed := false

def sawRec (st : SawState) : SawRec :=
  { SawRec.reset true with link := .up, state := st, demand := 20, rate := 9000, maxFeed := 1000 }

/-- Saw 1 cuts plan 33, saw 2 is loading plan 23, saw 3 is idle, saw 4 is offline; an audit runs. -/
def shop : State :=
  { State.reset with
    stk := ⟨[{ slab 1 .available with place := some ⟨1, 1⟩, mark := true },
        { slab 2 .reserved with place := some ⟨1, 2⟩, plan := some 22 }, { slab 3 .onSaw with plan := some 33 },
        slab 4 .scrapped, { slab 5 .available with missing := true }, { slab 6 .reserved with plan := some 23 }],
      [⟨1, 120, 1200⟩, ⟨2, 100, 100⟩], [⟨⟨1, 1⟩, 1⟩, ⟨⟨1, 2⟩, 2⟩], ⟨.running, [⟨1, 2⟩], 1, 0⟩, 50000⟩
    pln := ⟨[plan 21 1 .draft none none, plan 22 2 .checked none (some idlePasses),
      plan 23 6 .released (some .saw2) (some idlePasses),
      plan 33 3 .cutting (some .saw1) (some (derived (.active, 200) (.staged, 0) (.pending, 0) (.pending, 0))),
      { plan 44 4 .done none (some idlePasses) with job := 9 }]⟩
    sdp := ⟨⟨{ sawRec .cutting with queue := [33], outstanding := [⟨0, 1⟩, ⟨1, 2⟩], nextTag := 2, blade := some 1,
                                    meters := ⟨true, 0, 300, 60000, 0⟩ },
        { sawRec .loading with queue := [23], pendingLoad := some 23 }, { sawRec .idle with blade := some 6 },
        SawRec.reset false⟩, .all [], .all .hunt⟩
    bld := ⟨[blade 1 .fitted (some .saw1), blade 2 .spare none, blade 3 .retired none, { blade 4 .spare none with kerf := 5 },
      blade 6 .fitted (some .saw3)]⟩
    wau := { Admission.reset { Settings.reset with rating := 60, waterRate := 450 } with
      level := .normal, capacity := 60, allotment := ⟨some 20, none, none, none⟩, order := [.saw1],
      permit := ⟨true, false, false, false⟩ }
    jcu := ⟨[job 7 .opened [21, 22, 23, 33], job 8 .closed [], job 9 .closed [44], { job 10 .active [] with lot := some 6 }]⟩ }

/-- The shop with one saw's record changed. -/
def shopWith (w : Saw) (f : SawRec → SawRec) : State := shop.updateSaw w f

/-- Plan 33 between two passes: its first pass DONE, its second STAGED, saw 1 PRIMED without water. -/
def primed : State :=
  let s := (shopWith .saw1 fun r => { r with state := .primed, outstanding := [⟨1, 2⟩, ⟨2, 3⟩], nextTag := 3, meters := .reset })
  let s := s.updatePlan 33 fun p =>
    { p with derived := some (derived (.done, 3000) (.staged, 0) (.staged, 0) (.pending, 0)) }
  { s with wau := { s.wau with allotment := .all none, order := [], permit := .all false } }

/-- Saw 1 HOLDING: its allotment is revoked, its permit on. -/
def holding : State :=
  let s := shopWith .saw1 fun r => { r with state := .holding, holdTimer := some 50 }
  { s with wau := { s.wau with allotment := .all none, capacity := 0 } }

def holdContext : Context := ⟨.hold, none, some ⟨33, 1, some 0, 200, 2800⟩, 0, 0⟩

/-- Saw 1 HELD at 200 mm, in the line. -/
def heldShop : State :=
  let s := shopWith .saw1 fun r => { r with state := .held, context := some holdContext, meters := .reset }
  { s with wau := { s.wau with allotment := .all none, capacity := 0, line := [⟨.saw1, .held⟩], permit := .all false } }

/-- Saw 1 FAULTED at 200 mm with its link UP. -/
def faulted : State :=
  let s := shopWith .saw1 fun r =>
    { r with state := .faulted, context := some { holdContext with kind := .fault, cause := some .stall, faults := 1 },
             meters := .reset }
  { s with wau := { s.wau with allotment := .all none, order := [], permit := .all false } }

def nextOf (o : Out) : Option State :=
  match o with
  | .next t => some t
  | .fault f => nomatch f
  | .refused _ => none

/-- The status a request is answered with. -/
def replies (i : Instr) (s : State) : Option Status := (nextOf (exec i s)).bind fun t => t.olc.reply.bind Frame.status

/-- The fields a request is answered with. -/
def fieldsOf (i : Instr) (s : State) : Option (List Field) := (nextOf (exec i s)).bind fun t => t.olc.reply.map Frame.fields

/-- The kinds and statuses of the frames that go out to a saw. -/
def sends (i : Instr) (w : Saw) (s : State) : Option (List (Byte × Option Status)) :=
  (nextOf (exec i s)).map fun t => (t.sdp.queued.get w).map fun f => (f.kind, f.status)

/-- A saw after a command. -/
def sawAfter (i : Instr) (w : Saw) (s : State) : Option SawRec := (nextOf (exec i s)).map fun t => t.saw w

/-! ## The laws the statements take as premises hold in the shop -/

theorem test_laws_water : WaterLaw shop ∧ WaterLaw holding ∧ WaterLaw heldShop ∧ WaterLaw primed := by
  refine ⟨⟨?_, ?_, ?_, ?_, ?_, by decide, by decide, by decide, by decide⟩,
    ⟨?_, ?_, ?_, ?_, ?_, by decide, by decide, by decide, by decide⟩,
    ⟨?_, ?_, ?_, ?_, ?_, by decide, by decide, by decide, by decide⟩,
    ⟨?_, ?_, ?_, ?_, ?_, by decide, by decide, by decide, by decide⟩⟩ <;> (intro w; cases w <;> decide)

/-- A plan the shop finds by number is one of its five. -/
theorem shop_plan {n : Nat} {p : Plan} (hp : shop.plan? n = some p) : p ∈ shop.pln.plans ∧ p.number = n := by
  simp only [State.plan?, findBy] at hp
  exact ⟨List.mem_of_find?_eq_some hp, by simpa using List.find?_some hp⟩

theorem queueLaw_of (s : State) (h : s.pln = shop.pln)
    (q : ∀ w, (s.saw w).queue = (shop.saw w).queue ∧ (s.saw w).pendingLoad = (shop.saw w).pendingLoad) : QueueLaw s := by
  have plan : ∀ n, s.plan? n = shop.plan? n := fun n => by simp only [State.plan?, h]
  refine ⟨?_, ?_, ?_, ?_, ?_, ?_⟩
  · intro w n hn
    rw [(q w).1] at hn
    simp only [plan]
    cases w <;> simp only [shop, State.saw, Four.get, sawRec, SawRec.reset, List.mem_singleton, List.not_mem_nil] at hn
    · subst hn; exact ⟨_, rfl, rfl, .inr rfl⟩
    · subst hn; exact ⟨_, rfl, rfl, .inl rfl⟩
  · intro n p hp hs
    rw [plan] at hp
    obtain ⟨hm, rfl⟩ := shop_plan hp
    simp only [shop, List.mem_cons, List.not_mem_nil, or_false] at hm
    rcases hm with hm | hm | hm | hm | hm <;> subst hm
    · exact absurd hs (by decide)
    · exact absurd hs (by decide)
    · exact ⟨.saw2, rfl, by rw [(q _).1]; decide⟩
    · exact ⟨.saw1, rfl, by rw [(q _).1]; decide⟩
    · exact absurd hs (by decide)
  · intro n p w hp hs hw
    rw [plan] at hp
    obtain ⟨hm, rfl⟩ := shop_plan hp
    rw [(q w).1]
    simp only [shop, List.mem_cons, List.not_mem_nil, or_false] at hm
    rcases hm with hm | hm | hm | hm | hm <;> subst hm <;> first | exact absurd hs (by decide) | skip
    cases hw; rfl
  · intro w n hn
    rw [(q w).2] at hn; rw [(q w).1]
    cases w <;> simp only [shop, State.saw, Four.get, sawRec, SawRec.reset, Option.some.injEq, reduceCtorEq] at hn
    subst hn; rfl
  · intro w; rw [(q w).1]; cases w <;> decide
  · intro w; rw [(q w).1]; cases w <;> decide

theorem test_laws_queue : QueueLaw shop ∧ QueueLaw holding ∧ QueueLaw heldShop := by
  refine ⟨queueLaw_of _ rfl fun _ => ⟨rfl, rfl⟩, queueLaw_of _ rfl ?_, queueLaw_of _ rfl ?_⟩ <;>
    (intro w; cases w <;> exact ⟨rfl, rfl⟩)

theorem shop_slab {n : Nat} {r : Slab} (hr : shop.slab? n = some r) : r ∈ shop.stk.slabs ∧ r.number = n := by
  simp only [State.slab?, findBy] at hr
  exact ⟨List.mem_of_find?_eq_some hr, by simpa using List.find?_some hr⟩

theorem test_laws_work : WorkLaw shop := by
  refine ⟨?_, ?_, ?_, ?_, ?_, ?_, ?_, ?_, ?_⟩
  · intro w hw
    cases w <;> first | exact ⟨_, rfl, rfl⟩ | exact absurd hw (by decide)
  · intro w; cases w <;> decide
  · intro w; cases w <;> decide
  · intro w; cases w <;> decide
  · intro n p hp
    obtain ⟨hm, rfl⟩ := shop_plan hp
    revert hm p; decide
  · intro n p hp hs
    obtain ⟨hm, rfl⟩ := shop_plan hp
    simp only [shop, List.mem_cons, List.not_mem_nil, or_false] at hm
    rcases hm with hm | hm | hm | hm | hm <;> subst hm <;>
      first | exact absurd hs (by decide) | exact ⟨_, rfl, rfl, rfl⟩
  · intro n p hp hs
    obtain ⟨hm, rfl⟩ := shop_plan hp
    simp only [shop, List.mem_cons, List.not_mem_nil, or_false] at hm
    rcases hm with hm | hm | hm | hm | hm <;> subst hm <;>
      first | exact absurd hs (by decide) | exact ⟨_, rfl, rfl, rfl⟩
  · intro n r hr hs
    obtain ⟨hm, rfl⟩ := shop_slab hr
    simp only [shop, List.mem_cons, List.not_mem_nil, or_false] at hm
    rcases hm with hm | hm | hm | hm | hm | hm <;> subst hm <;>
      first | exact absurd hs (by decide) | exact ⟨_, _, rfl, rfl, rfl, by decide, by decide⟩
  · intro n r hr
    obtain ⟨hm, rfl⟩ := shop_slab hr
    revert hm r; decide

theorem test_laws_rack : RackLaw shop := by
  refine ⟨by simp [shop, Rising, RackEntry.key, Place.key], by decide, ?_, ?_, by decide, by decide⟩
  · intro p n
    constructor
    · intro h
      simp only [State.rackAt?, shop, List.find?_cons, List.find?_nil] at h
      split at h
      · next e => cases h; exact ⟨_, rfl, by simpa using e⟩
      · split at h
        · next e => cases h; exact ⟨_, rfl, by simpa using e⟩
        · cases h
    · rintro ⟨r, hr, hp⟩
      obtain ⟨hm, rfl⟩ := shop_slab hr
      simp only [shop, List.mem_cons, List.not_mem_nil, or_false] at hm
      rcases hm with hm | hm | hm | hm | hm | hm <;> subst hm <;> cases hp <;> rfl
  · intro n r hr
    obtain ⟨hm, rfl⟩ := shop_slab hr
    revert hm r; decide

theorem test_laws_tables : TableLaw shop ∧ RangeLaw shop ∧ PieceLaw shop ∧ AttnLaw shop := by
  refine ⟨?_, ⟨?_, ?_, ?_, ⟨by decide, by decide, by decide⟩⟩, ⟨?_, ?_⟩, rfl⟩
  · constructor <;> simp [shop, Rising, slab, plan, blade, job, Config.maxSlabs, Config.maxPlans, Config.maxBlades, Config.maxJobs,
      Config.firstRemnant, Config.lastRemnant]
  · intro j hj
    simp only [shop, List.mem_cons, List.not_mem_nil, or_false] at hj
    rcases hj with hj | hj | hj | hj <;> subst hj <;> (constructor <;> decide)
  · intro b hb
    simp only [shop, List.mem_cons, List.not_mem_nil, or_false] at hb
    rcases hb with hb | hb | hb | hb | hb <;> subst hb <;> (constructor <;> decide)
  · intro w; cases w <;> (constructor <;> decide)
  · intro n p hp
    obtain ⟨hm, rfl⟩ := shop_plan hp
    revert hm p; decide
  · intro n p hp
    obtain ⟨hm, rfl⟩ := shop_plan hp
    revert hm p; decide

/-! ## Every clause of the request statements is met: the outcome at a boundary of each check -/

theorem test_witness_MaterialRequests : shop.ready ∧
    replies (.defineMaterial 32 100 100) shop = some .form ∧ replies (.defineMaterial 31 99 100) shop = some .form ∧
    replies (.defineMaterial 31 250 3000) shop = some .ok ∧ replies (.dropMaterial 32) shop = some .form ∧
    replies (.dropMaterial 3) shop = some .none ∧ replies (.dropMaterial 1) shop = some .inUse ∧
    replies (.dropMaterial 2) shop = some .ok ∧ replies (.readMaterial 32) shop = some .form ∧
    fieldsOf (.readMaterial 31) shop = some [.u8 0, .u16 0, .u16 0] ∧
    fieldsOf (.readMaterial 1) shop = some [.u8 1, .u16 120, .u16 1200] := ⟨⟨rfl, rfl⟩, by decide +kernel⟩

theorem test_witness_CreateAndAmendSlab : shop.ready ∧
    replies (.createSlab 50000 1 10 0 0 300 200 0 []) shop = some .form ∧
    replies (.createSlab 49999 3 10 0 0 300 200 0 []) shop = some .none ∧
    replies (.createSlab 1 1 10 0 0 300 200 0 []) shop = some .exists ∧
    replies (.createSlab 49999 1 50 9 99 3600 2100 5000000 [⟨0, 3600, 0, 2100⟩]) shop = some .ok ∧
    replies (.createSlab 7 1 10 0 0 300 200 0 []) (shop.withSlabs fun _ => (List.range 1024).map fun n => slab (n + 100) .scrapped)
      = some .full ∧
    replies (.amendSlab 99 1 10 0 0 0 []) shop = some .none ∧ replies (.amendSlab 2 1 10 0 0 0 []) shop = some .state ∧
    replies (.amendSlab 1 1 9 0 0 0 []) shop = some .form ∧ replies (.amendSlab 1 3 10 0 0 0 []) shop = some .none ∧
    replies (.amendSlab 1 1 10 5 1 0 [⟨0, 3000, 0, 1400⟩]) shop = some .ok := ⟨⟨rfl, rfl⟩, by decide +kernel⟩

theorem test_witness_ScrapAndRetireSlab : shop.ready ∧
    replies (.scrapSlab 99) shop = some .none ∧ replies (.scrapSlab 2) shop = some .state ∧
    replies (.scrapSlab 1) shop = some .ok ∧ replies (.retireSlab 99) shop = some .none ∧
    replies (.retireSlab 3) shop = some .state ∧ replies (.retireSlab 4) shop = some .ok := ⟨⟨rfl, rfl⟩, by decide +kernel⟩

theorem test_witness_ReadSlabRackAndAudit : shop.ready ∧
    replies (.readSlab 99) shop = some .none ∧ replies (.readSlab 1) shop = some .ok ∧
    replies (.readRack 0) shop = some .form ∧ replies (.readRack 33) shop = some .form ∧
    replies (.readRack 32) shop = some .ok ∧
    fieldsOf .readAudit shop = some [.u8 1, .u8 1, .u8 1, .u8 2, .u16 1, .u16 0] := ⟨⟨rfl, rfl⟩, by decide +kernel⟩

theorem test_witness_FindSlabsRanksTheMatches : shop.ready ∧
    replies (.findSlabs 32 0 0 0 0) shop = some .form ∧ replies (.findSlabs 1 9 0 0 0) shop = some .form ∧
    fieldsOf (.findSlabs 1 30 3000 1400 5) shop = some [.u16 1, .u8 1, .u16 1] ∧
    fieldsOf (.findSlabs 31 0 3600 2100 0) shop = some [.u16 0, .u8 0] := ⟨⟨rfl, rfl⟩, by decide +kernel⟩

theorem test_witness_RemnantNumbering :
    shop.slab? 3 = some { slab 3 .onSaw with plan := some 33 } ∧ shop.stk.slabs.length < 1024 ∧
    (shop.createRemnant 3 ⟨3000, 200, [], 0⟩).1 = some 50000 ∧
    (State.createRemnant { shop with stk := { shop.stk with counter := 65535 } } 3 ⟨3000, 200, [], 0⟩).2.stk.counter = 50000 ∧
    1024 ≤ (shop.withSlabs fun _ => (List.range 1024).map fun n => slab n .scrapped).stk.slabs.length := by decide +kernel

theorem test_witness_MoveAndVerifySlab : shop.ready ∧
    replies (.moveSlab 1 33 1) shop = some .form ∧ replies (.moveSlab 1 0 1) shop = some .form ∧
    replies (.moveSlab 99 32 12) shop = some .none ∧ replies (.moveSlab 3 1 3) shop = some .state ∧
    replies (.moveSlab 1 1 2) shop = some .occupied ∧ replies (.moveSlab 1 1 1) shop = some .ok ∧
    replies (.moveSlab 1 0 0) shop = some .ok ∧ replies (.verifySlab 1 1 13) shop = some .form ∧
    replies (.verifySlab 99 1 1) shop = some .none ∧ replies (.verifySlab 4 1 1) shop = some .state ∧
    fieldsOf (.verifySlab 1 1 2) shop = some [.u16 2] ∧ fieldsOf (.verifySlab 1 1 1) shop = some [.u16 0] :=
  ⟨⟨rfl, rfl⟩, by decide +kernel⟩

theorem test_witness_StockAudit : shop.ready ∧
    replies (.startAudit []) shop = some .form ∧ replies (.startAudit [⟨2, 1⟩]) shop = some .form ∧
    replies (.startAudit (List.replicate 4 ⟨1, 1⟩)) shop = some .form ∧
    fieldsOf (.startAudit [⟨1, 1⟩, ⟨2, 32⟩, ⟨1, 1⟩]) shop = some [.u16 2] ∧
    fieldsOf .endAudit shop = some [.u16 1, .u16 0] ∧ fieldsOf .abortAudit shop = some [.u16 1, .u16 0] ∧
    State.reset.ready ∧ replies .endAudit State.reset = some .state ∧ replies .abortAudit State.reset = some .state :=
  ⟨⟨rfl, rfl⟩, by decide +kernel, by decide +kernel, by decide +kernel, by decide +kernel, by decide +kernel,
    by decide +kernel, ⟨rfl, rfl⟩, by decide +kernel⟩

theorem test_witness_CreateAndRevisePlan : shop.ready ∧
    replies (.createPlan 0 7 1 4 strips) shop = some .form ∧ replies (.createPlan 50 7 1 7 strips) shop = some .form ∧
    replies (.createPlan 50 99 1 4 strips) shop = some .none ∧ replies (.createPlan 50 8 1 4 strips) shop = some .frozen ∧
    replies (.createPlan 50 10 1 4 strips) shop = some .lot ∧ replies (.createPlan 21 7 1 4 strips) shop = some .exists ∧
    replies (.createPlan 50 7 1 6 strips) shop = some .ok ∧
    replies (.createPlan 50 7 1 4 strips) (shop.updateJob 7 fun j => { j with plans := List.range 16 }) = some .full ∧
    replies (.revisePlan 99 4 strips) shop = some .none ∧ replies (.revisePlan 23 4 strips) shop = some .state ∧
    replies (.revisePlan 21 1 strips) shop = some .form ∧ replies (.revisePlan 21 2 strips) shop = some .ok ∧
    replies (.revisePlan 22 4 strips) shop = some .ok ∧
    ((nextOf (exec (.revisePlan 22 4 strips) shop)).bind fun t => (t.job? 7).map Job.planned) = some 6 ∧
    ((nextOf (exec (.revisePlan 22 4 strips) (shop.updateJob 7 fun j => { j with planned := 65535 }))).bind fun t =>
      (t.job? 7).map Job.planned) = some 65535 := ⟨⟨rfl, rfl⟩, by decide +kernel⟩

theorem test_witness_CheckPlan : shop.ready ∧
    replies (.checkPlan 99) shop = some .none ∧ replies (.checkPlan 22) shop = some .state ∧
    replies (.checkPlan 21) shop = some .ok ∧
    replies (.checkPlan 21) (shop.updatePlan 21 fun p => { p with slab := 99 }) = some .none ∧
    replies (.checkPlan 21) (shop.updatePlan 21 fun p => { p with slab := 2 }) = some .state ∧
    replies (.checkPlan 21) (shop.updatePlan 21 fun p => { p with slab := 5 }) = some .missing ∧
    replies (.checkPlan 21) (shop.updatePlan 21 fun p => { p with job := 10 }) = some .lot ∧
    fieldsOf (.checkPlan 21) (shop.updatePlan 21 fun p => { p with strips := [⟨1401, [⟨1, 3000⟩]⟩] }) =
      some [.u8 1, .u8 1, .u8 0, .u8 0, .u16 1] := ⟨⟨rfl, rfl⟩, by decide +kernel⟩

/-- The layout statements: plan 31 passes; its narrowed forms (test_layout_failures) fail at each check. -/
theorem test_witness_LayoutOutcome :
    plan31.strips[1]? = some ⟨640, [⟨3, 1600⟩, ⟨4, 900⟩]⟩ ∧ plan31.strips ≠ [] ∧ plan31.ordered.length = 6 ∧
    plan31.nearEdge 1 + 640 ≤ plan31.width ∧ plan31.pieceStart ⟨640, [⟨3, 1600⟩, ⟨4, 900⟩]⟩ 1 + 900 ≤ plan31.length ∧
    (LayoutInput.ordered ⟨3000, 1400, [], 0, 4, [⟨1400, [⟨1, 3000⟩]⟩]⟩) = [] := by decide +kernel

theorem test_witness_LayoutConservesTheSlab : LayoutForm plan31.kerf plan31.strips ∧ 1 ≤ plan31.length ∧
    (layout plan31).toOption.isSome = true := by
  refine ⟨⟨by decide, by decide, ?_, by decide⟩, by decide, by decide +kernel⟩
  decide

theorem test_witness_LoadingTheHead :
    let s := shopWith .saw2 fun r => { r with state := .idle, pendingLoad := none }
    (s.saw .saw2).queue = [23] ∧ (s.loadHead .saw2).saw .saw2 = shop.saw .saw2 ∧ shop.loadHead .saw2 = shop := by
  decide +kernel

theorem test_witness_ReleasePlan : shop.ready ∧
    replies (.releasePlan 22 0) shop = some .form ∧ replies (.releasePlan 22 5) shop = some .form ∧
    replies (.releasePlan 99 1) shop = some .none ∧ replies (.releasePlan 21 1) shop = some .state ∧
    replies (.releasePlan 22 1) (shopWith .saw1 fun r => { r with queue := [1, 2, 3, 4] }) = some .full ∧
    replies (.releasePlan 22 4) shop = some .blade ∧
    replies (.releasePlan 22 3) (shop.updateBlade 6 fun b => { b with overloads := 8 }) = some .blade ∧
    replies (.releasePlan 22 3) (shop.updateBlade 6 fun b => { b with kerf := 5 }) = some .kerf ∧
    replies (.releasePlan 22 3) (shop.updateSlab 2 fun r => { r with missing := true }) = some .missing ∧
    replies (.releasePlan 22 3) shop = some .ok := ⟨⟨rfl, rfl⟩, by decide +kernel⟩

theorem test_witness_CancelPlan : shop.ready ∧
    replies (.cancelPlan 99) shop = some .none ∧ replies (.cancelPlan 33) shop = some .state ∧
    replies (.cancelPlan 21) shop = some .ok ∧ replies (.cancelPlan 22) shop = some .ok ∧
    sends (.cancelPlan 23) .saw2 shop = some [(Kind.unload, none)] ∧
    sends (.cancelPlan 23) .saw2 (shopWith .saw2 fun r => { r with pendingLoad := none }) = some [] ∧
    sends (.cancelPlan 23) .saw2 (shopWith .saw2 fun r => { r with state := .faulted }) = some [(Kind.unload, none)] :=
  ⟨⟨rfl, rfl⟩, by decide +kernel⟩

/-- Saw 1 WAITING to resume pass 1 of plan 33, no water left. -/
def waiting : State :=
  let s := shopWith .saw1 fun r => { r with state := .waiting, meters := .reset }
  { s with wau := { s.wau with allotment := .all none, capacity := 0, order := [], line := [⟨.saw1, .started⟩], permit := .all false } }

theorem test_witness_AbandonPlan : shop.ready ∧ faulted.ready ∧ heldShop.ready ∧
    replies (.abandonPlan 99) shop = some .none ∧ replies (.abandonPlan 22) shop = some .state ∧
    replies (.abandonPlan 33) shop = some .state ∧ replies (.abandonPlan 33) faulted = some .ok ∧
    replies (.abandonPlan 33) heldShop = some .ok ∧
    ((nextOf (exec (.abandonPlan 33) heldShop)).map fun t => (t.wau.line, t.wau.order, (t.saw .saw1).state)) =
      some ([], [], .idle) ∧
    ((nextOf (exec (.abandonPlan 33) waiting)).map fun t => (t.wau.line, (t.saw .saw1).outstanding)) = some ([], []) ∧
    ((nextOf (exec (.abandonPlan 33) (faulted.updateSaw .saw1 fun r => { r with link := .down }))).map fun t =>
      ((t.saw .saw1).state, (t.job? 7).map fun j => (j.stone, j.planned))) = some (.offline, some (96000, 6)) :=
  ⟨⟨rfl, rfl⟩, ⟨rfl, rfl⟩, ⟨rfl, rfl⟩, by decide +kernel⟩

theorem test_witness_ReadAndRetirePlan : shop.ready ∧
    replies (.readPlan 99) shop = some .none ∧ replies (.readPlan 33) shop = some .ok ∧
    replies (.readPassList 99) shop = some .none ∧
    (fieldsOf (.readPassList 33) shop).map List.length = some 18 ∧ replies (.retirePlan 99) shop = some .none ∧
    replies (.retirePlan 33) shop = some .state ∧ replies (.retirePlan 44) shop = some .ok := ⟨⟨rfl, rfl⟩, by decide +kernel⟩

/-! ## The saws -/

theorem test_witness_SawRequests : shop.ready ∧ faulted.ready ∧
    replies (.configureSaw 5 5 0) shop = some .form ∧ fieldsOf (.configureSaw 4 121 100001) shop = some [.u16 120, .u32 100000] ∧
    replies (.readSaw 0) shop = some .form ∧ replies (.readSaw 1) shop = some .ok ∧ replies (.readContext 0) shop = some .form ∧
    fieldsOf (.readContext 1) shop = some [.u8 0, .u16 0, .u16 0] ∧
    (fieldsOf (.readContext 1) faulted).map List.length = some 13 ∧
    (fieldsOf (.readContext 1) (faulted.updateSaw .saw1 fun r => { r with context := some ⟨.fault, none, none, 0, 1⟩ })).map
      List.length = some 13 := ⟨⟨rfl, rfl⟩, ⟨rfl, rfl⟩, by decide +kernel⟩

theorem test_witness_SawFramesAreAnswered : shop.running = true ∧
    sends (.loaded .saw4 23) .saw4 shop = some [(Kind.answer Kind.loaded, some .state)] ∧
    sends (.sawMessageMalformed .saw1 0x60#8) .saw1 shop = some [(0xE0#8, some .form)] ∧
    sends (.status .saw3 5) .saw3 shop = some [(Kind.answer Kind.status, some .ok)] ∧
    ((nextOf (exec (.status .saw1 4000) shop)).bind fun t => (t.activePass? .saw1).map fun x => x.2.reached) = some 3000 := by
  decide +kernel

theorem test_witness_Hello : shop.running = true ∧
    (sawAfter (.hello .saw4 50) .saw4 shop).map (fun r => (r.link, r.state, r.maxFeed)) = some (.up, .idle, 100) ∧
    (sawAfter (.hello .saw1 6001) .saw1 (faulted.updateSaw .saw1 fun r => { r with link := .down })).map
      (fun r => (r.link, r.state, r.maxFeed)) = some (.up, .faulted, 6000) ∧
    (sawAfter (.hello .saw2 500) .saw2 (shopWith .saw2 fun r => { r with link := .down, state := .offline })).map SawRec.state
      = some .loading ∧
    (sawAfter (.hello .saw1 500) .saw1 (faulted.updateSaw .saw1 fun r =>
      { r with link := .down, state := .offline, context := none })).map SawRec.state = some .faulted ∧
    (sawAfter (.hello .saw3 500) .saw3 shop).map SawRec.state = some .idle ∧
    (sawAfter (.hello .saw2 500) .saw2 shop).map (fun r => (r.link, r.state, r.pendingLoad)) = some (.up, .loading, some 23) ∧
    (sawAfter (.hello .saw1 500) .saw1 faulted).map (fun r => (r.state, r.outstanding, r.context.map Context.kind))
      = some (.faulted, [], some .fault) ∧
    (sawAfter (.hello .saw1 500) .saw1 waiting).map (fun r => (r.link, r.state, r.context.map Context.kind))
      = some (.up, .faulted, some .link) ∧
    (sawAfter (.hello .saw1 500) .saw1 shop).map (fun r => (r.link, r.state, r.context.map Context.time))
      = some (.up, .faulted, some 300) ∧
    (sawAfter (.hello .saw1 500) .saw1 holding).map SawRec.outstanding = some [] ∧
    (sawAfter (.hello .saw1 500) .saw1 heldShop).map (fun r => r.context.map Context.kind) = some (some .link) := by
  decide +kernel

theorem test_witness_LinkSilence : shop.running = true ∧
    (sawAfter (.linkSilence .saw4) .saw4 shop) = some (shop.saw .saw4) ∧
    (sawAfter (.linkSilence .saw3) .saw3 shop).map SawRec.state = some .offline ∧
    (sawAfter (.linkSilence .saw3) .saw3 (shopWith .saw3 fun r => { r with state := .offline })).map SawRec.link = some .down ∧
    (sawAfter (.linkSilence .saw3) .saw3 (shopWith .saw3 fun r => { r with state := .waiting })).map SawRec.state
      = some .offline ∧
    (sawAfter (.linkSilence .saw1) .saw1 faulted).map SawRec.outstanding = some [] ∧
    (shop.activePass? .saw1).isSome = true ∧
    (sawAfter (.linkSilence .saw1) .saw1 shop).map SawRec.state = some .faulted ∧
    (sawAfter (.linkSilence .saw1) .saw1 holding).map SawRec.state = some .faulted ∧
    (sawAfter (.linkSilence .saw1) .saw1 heldShop).map SawRec.state = some .faulted := by decide +kernel

theorem test_witness_StagingAPass :
    let s := shopWith .saw1 fun r => { r with outstanding := [⟨7, 1⟩], nextTag := 7 }
    (s.headPlan? .saw1).isSome = true ∧ (s.saw .saw1).outstanding.length ≤ 1 ∧ (s.saw .saw1).nextTag ≤ 7 ∧
    ((s.stagePass .saw1).saw .saw1).outstanding = [⟨7, 1⟩, ⟨0, 3⟩] ∧ ((s.stagePass .saw1).saw .saw1).nextTag = 1 := by
  decide +kernel

theorem test_witness_LoadedTaken : shop.linked .saw2 ∧
    sends (.loaded .saw2 22) .saw2 shop = some [(Kind.answer Kind.loaded, some .stale)] ∧
    sends (.loaded .saw2 23) .saw2 (shopWith .saw2 fun r => { r with state := .faulted })
      = some [(Kind.answer Kind.loaded, some .state)] ∧
    sends (.loaded .saw2 23) .saw2 shop
      = some [(Kind.answer Kind.loaded, some .ok), (Kind.order, none), (Kind.order, none)] ∧
    (sawAfter (.loaded .saw2 23) .saw2 (shop.updatePlan 23 fun p => { p with state := .cutting })).map SawRec.state
      = some .primed := ⟨⟨rfl, rfl⟩, by decide +kernel⟩

theorem test_witness_StartTaken : primed.linked .saw1 ∧
    sends (.start .saw1 1) .saw1 shop = some [(Kind.answer Kind.start, some .state)] ∧
    sends (.start .saw1 0) .saw1 primed = some [(Kind.answer Kind.start, some .stale)] ∧
    sends (.start .saw1 2) .saw1 primed = some [(Kind.answer Kind.start, some .order)] ∧
    sends (.start .saw1 1) .saw1 (primed.updateSaw .saw1 fun r => { r with interlock := false })
      = some [(Kind.answer Kind.start, some .notReady)] ∧
    sends (.start .saw1 1) .saw1 (primed.updateSaw .saw1 fun r => { r with demand := 61 })
      = some [(Kind.answer Kind.start, some .demand)] ∧
    sends (.start .saw1 1) .saw1 (primed.withWau fun a => { a with capacity := 19 })
      = some [(Kind.answer Kind.start, some .ok), (Kind.wait, none)] ∧
    sends (.start .saw1 1) .saw1 (primed.updateSaw .saw1 fun r => { r with demand := 60 })
      = some [(Kind.answer Kind.start, some .ok), (Kind.go, none)] := ⟨⟨rfl, rfl⟩, by decide +kernel, by decide +kernel, by decide +kernel,
    by decide +kernel, by decide +kernel, by decide +kernel, by decide +kernel⟩

theorem test_witness_SegmentClosed :
    ((shop.activePass? .saw1).map fun x => (x.1.number, x.2.index)) = some (33, 1) ∧ (shop.saw .saw1).blade = some 1 ∧
    (shop.blade? 1).isSome = true ∧ (shop.slab? 3).isSome = true ∧ (shop.job? 7).isSome = true ∧
    ((shop.closeSegment .saw1 3001).job? 7).map (fun j => (j.blade, j.sawTime, j.water, j.waterRemainder)) =
      some (144, 75, 4, 5000) ∧
    ((State.closeSegment (shopWith .saw1 fun r => { r with blade := none }) .saw1 200).job? 7).map Job.blade = some 0 := by
  decide +kernel

theorem test_witness_DoneTaken : shop.linked .saw1 ∧
    sends (.done .saw1 5) .saw1 shop = some [(Kind.answer Kind.done, some .stale)] ∧
    sends (.done .saw1 1) .saw1 shop = some [(Kind.answer Kind.done, some .order)] ∧
    sends (.done .saw1 0) .saw1 faulted = some [(Kind.answer Kind.done, some .state)] ∧
    (sawAfter (.done .saw1 0) .saw1 shop).map (fun r => (r.state, r.outstanding)) = some (.primed, [⟨1, 2⟩, ⟨2, 3⟩]) ∧
    (sawAfter (.done .saw1 0) .saw1 (shop.updatePlan 33 fun p =>
      { p with derived := some (derived (.active, 0) (.done, 0) (.done, 0) (.done, 0)) })).map SawRec.state = some .idle ∧
    (sawAfter (.done .saw1 0) .saw1 holding).map SawRec.state = some .primed ∧
    -- the segment closed at the pass length: 3000 mm at hardness 120, 300 ds at 9000 cents an hour, 100 dL of water
    ((nextOf (exec (.done .saw1 0) shop)).bind fun t => (t.blade? 1).map Blade.wear) = some 3600 ∧
    ((nextOf (exec (.done .saw1 0) shop)).bind fun t => (t.job? 7).map fun j => (j.blade, j.sawTime, j.water, j.waterRemainder))
      = some (144, 75, 4, 5000) := ⟨⟨rfl, rfl⟩, by decide +kernel⟩

theorem test_witness_CompletionChain :
    ((shop.plan? 33).map Plan.slab) = some 3 ∧ (shop.saw .saw1).link = .up ∧ (shop.saw .saw1).pendingLoad = none ∧
    (((shop.plan? 33).bind fun p => (shop.complete .saw1 p).plan? 33).map fun p => (p.state, p.saw)) = some (.done, none) ∧
    -- with a remnant derived: made and numbered, or lost to a full table
    (let s := shop.updatePlan 33 fun p => { p with derived := p.derived.map fun d =>
        { d with remnant := some ⟨3000, 200, [], 13714⟩, stoneCharge := 82286 } };
      let full := s.withSlabs fun rs => rs ++ (List.range 1018).map fun n => slab (n + 100) .scrapped;
      ((s.plan? 33).bind fun p => ((s.complete .saw1 p).plan? 33).map Plan.remnantGiven) = some (some 50000) ∧
      ((s.plan? 33).map fun p => (s.complete .saw1 p).olc.pending) = some 0x18#16 ∧
      ((s.plan? 33).bind fun p => ((s.complete .saw1 p).job? 7).map Job.stone) = some 82286 ∧
      ((full.plan? 33).bind fun p => ((full.complete .saw1 p).plan? 33).map Plan.remnantGiven) = some none ∧
      ((full.plan? 33).map fun p => (full.complete .saw1 p).olc.pending) = some 0x28#16 ∧
      ((full.plan? 33).bind fun p => ((full.complete .saw1 p).job? 7).map Job.stone) = some 96000) := by
  decide +kernel

theorem test_witness_HoldEnds : holding.linked .saw1 ∧ holding.activeTag? .saw1 = some 0 ∧
    sends (.held .saw1 0 200) .saw1 shop = some [(Kind.answer Kind.held, some .stale)] ∧
    sends (.held .saw1 1 200) .saw1 holding = some [(Kind.answer Kind.held, some .stale)] ∧
    (sawAfter (.held .saw1 0 250) .saw1 holding).map (fun r => (r.state, r.context.map Context.kind))
      = some (.held, some .hold) ∧
    (sawAfter (.holdTimerExpiry .saw1) .saw1 shop) = some (shop.saw .saw1) ∧
    (sawAfter (.holdTimerExpiry .saw1) .saw1 holding).map SawRec.state = some .faulted := ⟨⟨rfl, rfl⟩, by decide +kernel⟩

theorem test_witness_FaultTaken : shop.linked .saw1 ∧ shop.linked .saw3 ∧
    (sawAfter (.fault .saw1 none 250 .overload) .saw1 shop).map (fun r => (r.state, r.context.bind Context.part))
      = some (.faulted, some ⟨33, 1, some 0, 250, 2750⟩) ∧
    ((nextOf (exec (.fault .saw1 none 250 .overload) shop)).bind fun t => (t.blade? 1).map Blade.overloads) = some 1 ∧
    -- the ACTIVE pass holds the same reached, and the segment of 250 mm wears the blade
    ((nextOf (exec (.fault .saw1 none 250 .overload) shop)).bind fun t => (t.activePass? .saw1).map fun x => x.2.reached)
      = some 250 ∧
    ((nextOf (exec (.fault .saw1 none 250 .overload) shop)).bind fun t => (t.blade? 1).map Blade.wear) = some 300 ∧
    ((nextOf (exec (.fault .saw1 none 250 .overload) (shop.updateBlade 1 fun b => { b with overloads := 255 }))).bind fun t =>
      (t.blade? 1).map Blade.overloads) = some 255 ∧
    ((nextOf (exec (.fault .saw1 none 250 .stall) shop)).bind fun t => (t.blade? 1).map Blade.overloads) = some 0 ∧
    (sawAfter (.fault .saw1 (some 1) 250 .stall) .saw1 holding).map (fun r => r.context.bind Context.part)
      = some (some ⟨33, 1, some 0, 200, 2800⟩) ∧
    shop.activePass? .saw3 = none ∧ (sawAfter (.fault .saw3 none 0 .safety) .saw3 shop).map SawRec.state = some .faulted ∧
    (sawAfter (.fault .saw3 none 0 .safety) .saw3 (shopWith .saw3 fun r => { r with state := .waiting })).map SawRec.state
      = some .faulted ∧
    (sawAfter (.fault .saw1 none 0 .safety) .saw1 heldShop).map SawRec.state = some .faulted ∧
    (sawAfter (.fault .saw1 none 0 .safety) .saw1 faulted).map (fun r => r.context.map Context.faults) = some (some 2) :=
  ⟨⟨rfl, rfl⟩, ⟨rfl, rfl⟩, by decide +kernel⟩

theorem test_witness_InterlockInput : shop.running = true ∧ (shop.saw .saw1).interlock = true ∧
    (sawAfter (.interlockDrop .saw3) .saw3 shop).map (fun r => (r.interlock, r.state)) = some (false, .idle) ∧
    (sawAfter (.interlockReturn .saw4) .saw4 shop).map SawRec.interlock = some true ∧
    (sawAfter (.interlockDrop .saw1) .saw1 shop).map SawRec.state = some .faulted ∧
    (sawAfter (.interlockDrop .saw1) .saw1 holding).map SawRec.state = some .faulted := by decide +kernel

theorem test_witness_ResumeSaw : faulted.ready ∧
    replies (.resumeSaw 0) faulted = some .form ∧ replies (.resumeSaw 3) faulted = some .state ∧
    replies (.resumeSaw 1) (faulted.updateSaw .saw1 fun r => { r with interlock := false }) = some .notReady ∧
    replies (.resumeSaw 1) (faulted.updateSaw .saw1 fun r => { r with demand := 61 }) = some .demand ∧
    fieldsOf (.resumeSaw 1) faulted = some [.u8 5] ∧
    fieldsOf (.resumeSaw 1) (faulted.withWau fun a => { a with capacity := 19 }) = some [.u8 4] ∧
    fieldsOf (.resumeSaw 1) (primed.updateSaw .saw1 fun r =>
      { r with state := .faulted, context := some ⟨.fault, some .stall, none, 0, 1⟩ }) = some [.u8 3] ∧
    fieldsOf (.resumeSaw 3) (shopWith .saw3 fun r =>
      { r with state := .faulted, context := some ⟨.fault, some .stall, none, 0, 1⟩ }) = some [.u8 1] :=
  ⟨⟨rfl, rfl⟩, by decide +kernel⟩

theorem test_witness_ResumingACut :
    (faulted.activePass? .saw1).isSome = true ∧ (faulted.saw .saw1).nextTag ≤ 7 ∧ faulted.activeTag? .saw1 = some 0 ∧
    ((faulted.resumeCut .saw1).saw .saw1).meters = ⟨true, 200, 0, 0, 0⟩ ∧
    (let s := faulted.updateSaw .saw1 fun r => { r with outstanding := [⟨7, 3⟩], nextTag := 7 };
      s.activeTag? .saw1 = none ∧ ((s.resumeCut .saw1).saw .saw1).outstanding = [⟨0, 1⟩, ⟨7, 3⟩]) ∧
    -- the empty set: the tag is the next tag itself, and the refill takes the one after
    (let s := faulted.updateSaw .saw1 fun r => { r with outstanding := [], nextTag := 7 };
      s.activeTag? .saw1 = none ∧ ((s.resumeCut .saw1).saw .saw1).outstanding = [⟨7, 1⟩, ⟨0, 3⟩] ∧
      ((s.resumeCut .saw1).saw .saw1).nextTag = 1) := by decide +kernel

/-! ## The blades and the channels -/

theorem test_witness_BladeRecords : shop.ready ∧
    replies (.addBlade 9 7 0 500) shop = some .form ∧ replies (.addBlade 9 2 0 499) shop = some .form ∧
    replies (.addBlade 1 2 0 500) shop = some .exists ∧ replies (.addBlade 9 6 5000000 20000) shop = some .ok ∧
    replies (.addBlade 99 2 0 500) (shop.withBlades fun _ => (List.range 32).map fun n => blade n .spare none) = some .full ∧
    replies (.amendBlade 99 0 500) shop = some .none ∧ replies (.amendBlade 1 0 500) shop = some .state ∧
    replies (.amendBlade 2 5000001 500) shop = some .form ∧ replies (.amendBlade 2 0 500) shop = some .ok ∧
    replies (.retireBlade 99) shop = some .none ∧ replies (.retireBlade 1) shop = some .state ∧
    replies (.retireBlade 2) shop = some .ok ∧ replies (.retireBlade 3) shop = some .ok ∧
    replies (.readBlade 99) shop = some .none ∧ replies (.readBlade 1) shop = some .ok := ⟨⟨rfl, rfl⟩, by decide +kernel⟩

theorem test_witness_HealthIsTested :
    (shop.blade? 1).isSome = true ∧ Blade.health { blade 1 .spare none with wear := 899999 } = .good ∧
    Blade.health { blade 1 .spare none with wear := 900000 } = .advisory ∧
    Blade.health { blade 1 .spare none with wear := 1000000 } = .exhausted ∧
    Blade.health { blade 1 .spare none with overloads := 8 } = .exhausted ∧
    ((State.testHealth (shop.updateBlade 1 fun b => { b with wear := 1000000 }) 1).olc.pending = 0x180#16) := by decide +kernel

theorem test_witness_FitAndRemoveBlade : shop.ready ∧
    replies (.fitBlade 2 5) shop = some .form ∧ replies (.fitBlade 0 3) shop = some .form ∧
    replies (.fitBlade 99 3) shop = some .none ∧ replies (.fitBlade 2 1) shop = some .state ∧
    replies (.fitBlade 3 3) shop = some .state ∧
    replies (.fitBlade 4 1) faulted = some .kerf ∧ replies (.fitBlade 2 3) shop = some .ok ∧
    replies (.removeBlade 0) shop = some .form ∧ replies (.removeBlade 1) shop = some .state ∧
    replies (.removeBlade 4) shop = some .none ∧ fieldsOf (.removeBlade 3) shop = some [.u16 6] :=
  ⟨⟨rfl, rfl⟩, by decide +kernel⟩

/-- Two accruals of blade 1: the ranges its record gives it hold before, and what R141 conserves holds after. -/
theorem test_witness_BladeCostIsConserved :
    let b := blade 1 .fitted (some .saw1)
    let runs := [(650, 120), (3000, 120)]
    b.wearRemainder < 100 ∧ 0 < b.life ∧ b.costRemainder < b.life * 1000 ∧ b.increases runs = 4380 ∧ b.charges runs = 175 ∧
    (b.accrued runs).costRemainder = 200000 ∧ (b.accrued runs).wearRemainder = 0 ∧
    Blade.wear (Blade.accrued { b with wear := 3999999999 } runs) = 4000000000 := by decide +kernel

/-- The shop with channel 2 configured and the field supply present. -/
def sensed (st : ChannelState) (g : Grace) : State :=
  let c : Channel := { Channel.reset with range := 1, high := 1000, raw := some 5000, history := [5000], value := some 500,
                                          lastGood := some 500, state := st, grace := g }
  { shop with pmn := ⟨shop.pmn.channels.set .c2 c, true⟩ }

theorem test_witness_SetAndReadChannel : shop.ready ∧
    replies (.setChannel 7 0 0 0 1 0) shop = some .form ∧ replies (.setChannel 6 5 0 0 1 0) shop = some .form ∧
    replies (.setChannel 6 0 0 1 1 0) shop = some .form ∧
    replies (.setChannel 2 1 0 0 1 0) (sensed .calibrating (.running 300)) = some .state ∧
    fieldsOf (.setChannel 6 4 3 (-9999) 9999 0) shop = some [.u8 4, .u8 2, .s16 (-9999), .s16 9999] ∧
    replies (.readChannel 7) shop = some .form ∧ replies (.readChannel 6) shop = some .ok ∧
    ((sensed .good .stopped).channel .c2).offers = ⟨.live, some 500⟩ ∧
    ((sensed .rangeLow (.running 1)).channel .c2).offers = ⟨.held, some 500⟩ ∧
    ((sensed .rangeLow .expired).channel .c2).offers = ⟨.lost, none⟩ ∧
    ((sensed .off .stopped).channel .c2).offers = ⟨.lost, none⟩ ∧
    Channel.offers { (sensed .fieldOff (.running 5)).channel .c2 with lastGood := none } = ⟨.absent, none⟩ :=
  ⟨⟨rfl, rfl⟩, by decide +kernel⟩

/-- The state channel 6 takes when it is set to a range code at a raw reading. -/
def setTo (range : Nat) (raw : Int) : Option ChannelState :=
  (nextOf (exec (.setChannel 6 range 0 0 1000 raw) (sensed .good .stopped))).map fun t => (t.channel .c6).state

theorem test_window_of_each_range_code :
    [setTo 1 (-401), setTo 2 (-1), setTo 3 (-1), setTo 4 (-201)] = List.replicate 4 (some .rangeLow) ∧
    [setTo 1 (-400), setTo 2 0, setTo 3 0, setTo 4 (-200)] = List.replicate 4 (some .good) ∧
    [setTo 1 10400, setTo 2 10400, setTo 3 10200, setTo 4 10200] = List.replicate 4 (some .good) ∧
    [setTo 1 10401, setTo 2 10401, setTo 3 10201, setTo 4 10201] = List.replicate 4 (some .rangeHigh) := by decide +kernel

def stateOf (i : Instr) (s : State) : Option (ChannelState × Grace) :=
  (nextOf (exec i s)).map fun t => ((t.channel .c2).state, (t.channel .c2).grace)

theorem test_witness_SampleAndGrace : (sensed .good .stopped).running = true ∧
    stateOf (.channelSample .c2 10401) (sensed .good .stopped) = some (.rangeHigh, .running 300) ∧
    stateOf (.channelSample .c2 (-400)) (sensed .rangeLow (.running 1)) = some (.good, .stopped) ∧
    stateOf (.channelSample .c2 0) (sensed .calibrating (.running 1)) = some (.calibrating, .running 1) ∧
    stateOf (.channelSample .c2 0) shop = some (.off, .stopped) ∧
    stateOf (.graceExpiry .c2) (sensed .rangeLow (.running 0)) = some (.rangeLow, .expired) ∧
    stateOf (.graceExpiry .c2) (sensed .good .stopped) = some (.good, .stopped) := by decide +kernel

theorem test_witness_FieldSupply : (sensed .good .stopped).running = true ∧ shop.pmn.fieldSupply = false ∧
    stateOf .fieldSupplyLoss (sensed .good .stopped) = some (.fieldOff, .running 300) ∧
    stateOf .fieldSupplyLoss shop = some (.off, .stopped) ∧
    stateOf (.fieldSupplyReturn inputs.raw) (sensed .good .stopped) = some (.good, .stopped) ∧
    stateOf (.fieldSupplyReturn inputs.raw) { sensed .fieldOff (.running 9) with
      pmn := { (sensed .fieldOff (.running 9)).pmn with fieldSupply := false } } = some (.good, .stopped) := by decide +kernel

theorem test_witness_Calibration : (sensed .calibrating (.running 9)).ready ∧
    replies (.calBegin []) shop = some .form ∧ replies (.calBegin [7]) shop = some .form ∧
    replies (.calBegin [6]) shop = some .state ∧ replies (.calBegin [2]) (sensed .good .stopped) = some .ok ∧
    replies (.calPoint [2] 2) (sensed .calibrating (.running 9)) = some .form ∧
    replies (.calPoint [2] 0) (sensed .good .stopped) = some .state ∧
    fieldsOf (.calPoint [2] 1) (sensed .calibrating (.running 9)) = some [.u8 1, .s16 5000] ∧
    replies (.calEnd [2] 2) (sensed .calibrating (.running 9)) = some .form ∧
    replies (.calEnd [2] 0) (sensed .good .stopped) = some .state ∧
    fieldsOf (.calEnd [2] 0) (sensed .calibrating (.running 9)) = some [.u8 1, .u8 2, .s16 0, .u16 10000] ∧
    fieldsOf (.calEnd [2] 1) (sensed .calibrating .expired) = some [.u8 1, .u8 1, .s16 0, .u16 10000] ∧
    replies (.calAbort []) shop = some .form ∧ replies (.calAbort [2]) shop = some .state ∧
    stateOf (.calAbort [2]) (sensed .calibrating (.running 9)) = some (.good, .stopped) := ⟨⟨rfl, rfl⟩, by decide +kernel⟩

/-! ## The water -/

/-- The tank at `level` per mille with clear water and a low sump (rows of the table in 9.3). -/
def plant (level : Int) (s : State) : State :=
  let c (v : Int) : Channel := { Channel.reset with range := 1, high := 1000, value := some v, lastGood := some v, state := .good }
  { s with pmn := ⟨((s.pmn.channels.set .c0 (c level)).set .c1 (c 400)).set .c2 (c 60), true⟩ }

theorem test_witness_CapacityEvaluation : shop.ready ∧
    (nextOf (exec .capacityEvaluation (plant 450 shop))).map (fun t => t.wau.capacity) = some 60 ∧
    (nextOf (exec .capacityEvaluation (plant 449 shop))).map (fun t => t.wau.capacity) = some 30 ∧
    (nextOf (exec .capacityEvaluation (plant 149 shop))).map (fun t => (t.wau.capacity, t.wau.level, t.olc.pending))
      = some (0, .low, 0x400#16) ∧
    fieldsOf (.setPlant 601 880 900 920 9 99 100001 4) shop =
      some [.u16 600, .u16 880, .u16 930, .u16 930, .u16 10, .u16 100, .u32 100000, .u16 5] := ⟨⟨rfl, rfl⟩, by decide +kernel⟩

theorem test_witness_Revocation :
    (revokeDown 19 shop.wau.order.reverse shop).wau.granted = 0 ∧
    ((revokeDown 19 shop.wau.order.reverse shop).saw .saw1).holdTimer = some 50 ∧
    revokeDown 20 shop.wau.order.reverse shop = shop := by decide +kernel

theorem test_witness_AdmissionPass :
    shop.runPass = shop ∧ heldShop.runPass = heldShop ∧
    ((State.runPass (heldShop.withWau fun a => { a with capacity := 20 })).saw .saw1).state = .cutting ∧
    ((State.runPass ((heldShop.updateSaw .saw1 fun r => { r with interlock := false }).withWau fun a =>
      { a with capacity := 20 })).saw .saw1).state = .faulted ∧
    ((State.runPass (primed.withWau fun a => { a with line := [⟨.saw1, .started⟩] })).saw .saw1).state = .cutting ∧
    (heldShop.removeFromLine .saw1).wau.order = [] ∧ shop.removeFromLine .saw1 = shop := by decide +kernel

theorem test_witness_ReadPlant : shop.ready ∧ replies .readPlant shop = some .ok := ⟨⟨rfl, rfl⟩, by decide +kernel⟩

/-! ## The jobs -/

theorem test_witness_JobRequests : shop.ready ∧
    replies (.openJob 0 0 0) shop = some .form ∧ replies (.openJob 1 0 1000000000) shop = some .form ∧
    replies (.openJob 7 0 0) shop = some .exists ∧ replies (.openJob 1 65535 999999999) shop = some .ok ∧
    replies (.openJob 999 0 0) (shop.withJobs fun _ => (List.range 128).map fun n => job n .opened []) = some .full ∧
    replies (.amendJob 1 0 0) shop = some .none ∧ replies (.amendJob 7 1000000000 0) shop = some .form ∧
    replies (.amendJob 8 0 0) shop = some .frozen ∧ replies (.amendJob 7 0 5) shop = some .inUse ∧
    fieldsOf (.amendJob 10 1 6) (shop.updateJob 10 fun j => { j with stone := 2 }) = some [.u32 2, .u8 1] ∧
    replies (.readJob 1) shop = some .none ∧ replies (.readJob 7) shop = some .ok ∧
    replies (.closeJob 1) shop = some .none ∧ replies (.closeJob 8) shop = some .frozen ∧
    replies (.closeJob 7) shop = some .state ∧ replies (.closeJob 10) shop = some .ok ∧
    replies (.retireJob 1) shop = some .none ∧ replies (.retireJob 7) shop = some .state ∧
    replies (.retireJob 9) shop = some .inUse ∧ replies (.retireJob 8) shop = some .ok := ⟨⟨rfl, rfl⟩, by decide +kernel⟩

/-- R200, R201 with the figures of the example in 10.3. -/
theorem test_witness_Charges : (shop.job? 7).isSome = true ∧
    (Job.chargeSawTime 9000 125 (job 7 .opened [])).sawRemainder = 9000 ∧
    ((job 7 .opened []).chargeWater 450 450).waterRemainder = 2500 ∧
    (Job.chargeStone 2 { job 7 .opened [] with stone := 999999998 }).stone = 999999999 ∧
    ((State.charge (shop.updateJob 7 fun j => { j with quote := 5 }) 7 (Job.chargeStone 6)).olc.pending = 0x800#16) := by
  decide +kernel

theorem test_witness_Metering : shop.running = true ∧
    (sawAfter (.meteringInterval .saw1) .saw1 shop).map SawRec.meters = some ⟨true, 0, 301, 60200, 0⟩ ∧
    ((nextOf (exec (.meteringInterval .saw1) shop)).bind fun t => (t.job? 7).map Job.waterEstimated) = some true ∧
    sawAfter (.meteringInterval .saw3) .saw3 shop = some (shop.saw .saw3) ∧
    (sawAfter (.meteringInterval .saw1) .saw1 (shop.setChannelRec .c3 { Channel.reset with state := .good, value := some (-1) })).map
      SawRec.meters = some ⟨true, 0, 301, 60000, 0⟩ := by decide +kernel

/-! ## The office link, the notices and the starts -/

theorem test_witness_Notices : shop.ready ∧
    replies (.setNotices 0x1000#16 0) shop = some .form ∧ replies (.setNotices 0#16 2) shop = some .form ∧
    ((nextOf (exec (.setNotices 0x0FFF#16 1) (shop.raise .overQuote))).map fun t => t.olc.attn) = some true ∧
    fieldsOf .readNotices (shop.raise .overQuote) = some [.u16 2048, .u16 0, .u8 0] := ⟨⟨rfl, rfl⟩, by decide +kernel⟩

/-- Commands one after the other. -/
def runs : List Instr → State → Option State
  | [], s => some s
  | i :: is, s => (nextOf (exec i s)).bind (runs is)

theorem test_witness_ReadStateAndWipeStore : shop.ready ∧ faulted.ready ∧
    replies (.readState true) shop = some .ok ∧ replies .wipeStore shop = some .state ∧ replies .wipeStore holding = some .state ∧
    replies .wipeStore faulted = some .ok ∧
    ((nextOf (exec .wipeStore faulted)).map fun t => t.stk.slabs) = some [] ∧
    -- main power lost before the reply of WIPE STORE is sent, and after it
    ((runs [.wipeStore, .powerLoss .mainPower, .powerReturn inputs] faulted).map fun t => (t.rsv.startKind, t.rsv.mark)) =
      some (.cold, true) ∧
    ((runs [.wipeStore, .powerLoss .mainPower, .powerReturn cutInputs] faulted).map fun t => (t.rsv.startKind, t.rsv.mark)) =
      some (.cold, false) ∧
    ((runs [.wipeStore, .replySent, .powerLoss .mainPower, .powerReturn inputs] faulted).map fun t => t.rsv.startKind) =
      some .warm := ⟨⟨rfl, rfl⟩, ⟨rfl, rfl⟩, by decide +kernel⟩

theorem test_witness_RequestsAreAnswered :
    (Instr.readJob 7).link? = some .office ∧ (Instr.readJob 7).body = [0x2E#8, 7#8, 0#8] ∧
    (let s : State := { shop with olc := { shop.olc with slot := .serving, owed := [1#8, 2#8, 3#8] } };
      ((nextOf (exec (.readJob 7) s)).map fun t => t.olc.owed) = some [1#8, 2#8, 3#8, 0x2E#8] ∧
      ((nextOf (exec .replySent s)).map fun t => t.olc.owed) = some [2#8, 3#8] ∧
      ((nextOf (exec (.busyRequest 9#8) (s.oweBusy 8#8))).map fun t => t.olc.owed) = some [1#8, 2#8, 3#8, 8#8]) := by
  decide +kernel

/-- A flaw list, a strip list and a piece list one beyond their limits; a kind that is no request. -/
theorem test_witness_Receiving : shop.ready ∧ shop.running = true ∧
    4 < (List.replicate 5 (⟨0, 1, 0, 1⟩ : Flaw)).length ∧ 8 < (List.replicate 9 (⟨600, []⟩ : Strip)).length ∧
    replies (.amendSlab 1 1 30 0 0 0 (List.replicate 5 ⟨0, 1, 0, 1⟩)) shop = some .form ∧
    replies (.revisePlan 21 4 (List.replicate 9 ⟨600, [⟨1, 50⟩]⟩)) shop = some .form ∧
    replies (.revisePlan 21 4 [⟨600, List.replicate 7 ⟨1, 50⟩⟩]) shop = some .form ∧
    replies (.unknownRequest 0x35#8) shop = some .form ∧
    ((nextOf (exec (.byteGapTimeout .office 0x5A#8) shop)).map fun t => t.olc.receiver) = some .length ∧
    ((nextOf (exec (.badFrame (.saw .saw1)) shop)).map fun t => t.sdp.receiver.get .saw1) = some .hunt :=
  ⟨⟨rfl, rfl⟩, by decide +kernel⟩

theorem test_witness_FramesBecomeTheirCommand :
    let i := Instr.setChannel 2 1 2 (-1) 1000 5000
    i.wf = true ∧ i.link? = some .office ∧ shop.receiver .office = .hunt ∧ i.sees inputs ∧
    (Instr.done .saw1 7).link? = some (.saw .saw1) ∧
    (shop.lineBytes inputs .office (frameBytes i.body)).pending = [i] := by
  refine ⟨by decide, by decide, by decide, rfl, by decide, by decide +kernel⟩

/-- R223, R224: the four ways a start is made or missed. -/
theorem test_witness_Starts :
    let off : State := { shop with rsv := { shop.rsv with mainPower := false } }
    let failed : State := { off with rsv := { off.rsv with latch := true } }
    let asserted : State := { shop with rsv := { shop.rsv with resetAsserted := true } }
    ((nextOf (exec (.powerReturn inputs) off)).map fun t => (t.rsv.startKind, (t.saw .saw1).state)) = some (.warm, .faulted) ∧
    ((nextOf (exec (.powerReturn inputs) failed)).map fun t => (t.rsv.startKind, (t.saw .saw1).state))
      = some (.cold, .offline) ∧
    ((nextOf (exec (.resetRelease inputs) asserted)).map fun t => (t.rsv.startKind, t.running)) = some (.warm, true) ∧
    -- a start cut short: a cold one leaves no mark and is followed by a cold one, a warm one by a warm one
    ((nextOf (exec (.powerReturn cutInputs) failed)).map fun t => (t.running, t.rsv.mark, t.rsv.latch, t.rsv.startKind))
      = some (false, false, false, .cold) ∧
    ((runs [.powerReturn cutInputs, .powerReturn inputs] failed).map fun t => (t.running, t.rsv.mark, t.rsv.startKind))
      = some (true, true, .cold) ∧
    ((runs [.resetRelease cutInputs, .powerReturn inputs] asserted).map fun t => (t.running, t.rsv.startKind))
      = some (true, .warm) ∧
    ((nextOf (exec (.resetRelease cutInputs) { off with rsv := { off.rsv with resetAsserted := true } })).map fun t => t.rsv)
      = some off.rsv ∧
    ((nextOf (exec (.powerLoss .mainPower) shop)).map fun t => (t.running, t.wau.permit)) = some (false, .all false) ∧
    ((nextOf (exec .backupFailure off)).map fun t => t.rsv.latch) = some true := by decide +kernel

/-- The front of the queue runs; an empty queue ticks, and the evaluation follows (log 5). -/
theorem test_witness_StepRunsTheFront :
    ((nextOf (step { shop with pending := [.endAudit, .readAudit] })).map fun t => t.pending) = some [.readAudit] ∧
    ((nextOf (step shop)).map fun t => t.pending) = some [.meteringInterval .saw1, .capacityEvaluation] := by decide +kernel

/-- The premises of the statements over every step (O56 to O60) hold together in the shop, and its step, with a command in front
and without, gives a next state. -/
theorem test_witness_StepsKeepTheLaws :
    (WaterLaw shop ∧ QueueLaw shop ∧ TableLaw shop ∧ WorkLaw shop ∧ RackLaw shop ∧ RangeLaw shop ∧ PieceLaw shop ∧ AttnLaw shop) ∧
    (nextOf (step shop)).isSome = true ∧ (nextOf (step { shop with pending := [.done .saw1 0] })).isSome = true :=
  ⟨⟨test_laws_water.1, test_laws_queue.1, test_laws_tables.1, test_laws_work, test_laws_rack, test_laws_tables.2.1,
    test_laws_tables.2.2.1, test_laws_tables.2.2.2⟩, by decide +kernel⟩

end Sys2Proof.Tests
end

section
/-! PROOFS. Materials and slabs (01_slab_stock.md): what a ready part does with a request its block performs or refuses, the
checks of the requests in the words of their rules, what each performed request does to the lookups, and the four statements. -/

namespace Sys2Proof.Machine

/-! ## A request taken while READY (R1, R213) -/

section Taken

variable {s u : State} {i : Instr} {kind : Byte} {perform : State → Answer × State} {st : Status} {fields : List Field}

/-- What a performed request leaves is answered OK. -/
theorem State.ready.performs (hs : s.ready) (hi : exec i s = hostRequest kind perform s)
    (hp : perform s = performed fields u) : exec i s = .next (u.answered kind .ok fields) := by
  rw [hi, hostRequest_ready hs, hp, sendReply_performed]

theorem State.ready.refuses (hs : s.ready) (hi : exec i s = hostRequest kind perform s)
    (hp : perform s = refused st s) : s.refuses i kind st := by
  rw [State.refuses, hi, hostRequest_ready hs, hp, sendReply_refused]

theorem State.ready.reports (hs : s.ready) (hi : exec i s = hostRequest kind perform s)
    (hp : perform s = performed fields s) : s.reports i kind fields :=
  hs.performs hi hp

end Taken

/-! ### The requests of the slab stock -/

theorem exec_defineMaterial (code hardness feed : Nat) (s : State) :
    exec (.defineMaterial code hardness feed) s = hostRequest Kind.defineMaterial (defineMaterial code hardness feed) s := rfl

theorem exec_dropMaterial (code : Nat) (s : State) :
    exec (.dropMaterial code) s = hostRequest Kind.dropMaterial (dropMaterial code) s := rfl

theorem exec_readMaterial (code : Nat) (s : State) :
    exec (.readMaterial code) s = hostRequest Kind.readMaterial (readMaterial code) s := rfl

theorem exec_createSlab (number material thickness lotNumber lotSeq length width basis : Nat) (flaws : List Flaw) (s : State) :
    exec (.createSlab number material thickness lotNumber lotSeq length width basis flaws) s =
      hostRequest Kind.createSlab (createSlab number material thickness lotNumber lotSeq length width basis flaws) s := rfl

theorem exec_amendSlab (number material thickness lotNumber lotSeq basis : Nat) (flaws : List Flaw) (s : State) :
    exec (.amendSlab number material thickness lotNumber lotSeq basis flaws) s =
      hostRequest Kind.amendSlab (amendSlab number material thickness lotNumber lotSeq basis flaws) s := rfl

theorem exec_scrapSlab (number : Nat) (s : State) :
    exec (.scrapSlab number) s = hostRequest Kind.scrapSlab (scrapSlab number) s := rfl

theorem exec_retireSlab (number : Nat) (s : State) :
    exec (.retireSlab number) s = hostRequest Kind.retireSlab (retireSlab number) s := rfl

theorem exec_findSlabs (material thickness minLength minWidth lotNumber : Nat) (s : State) :
    exec (.findSlabs material thickness minLength minWidth lotNumber) s =
      hostRequest Kind.findSlabs (findSlabs material thickness minLength minWidth lotNumber) s := rfl

/-! ## The checks in the words of the rules -/

@[simp] theorem within_iff {lo hi n : Nat} : within lo hi n = true ↔ lo ≤ n ∧ n ≤ hi := by
  simp [within]

theorem flawInSlab_iff {length width : Nat} {f : Flaw} :
    Flaw.inSlab length width f = true ↔ f.x0 < f.x1 ∧ f.x1 ≤ length ∧ f.y0 < f.y1 ∧ f.y1 ≤ width := by
  simp [Flaw.inSlab, and_assoc]

theorem lotForm_iff {number seq : Nat} :
    lotForm number seq = true ↔ (number = 0 → seq = 0) ∧ (number ≠ 0 → 1 ≤ seq ∧ seq ≤ 99) := by
  by_cases h : number = 0 <;> simp [lotForm, h]

/-- The model's check of the amendable fields is the ranges of R9. -/
theorem amendableForm_iff {material thickness lotNumber lotSeq length width basis : Nat} {flaws : List Flaw} :
    amendableForm material thickness lotNumber lotSeq length width basis flaws = true ↔
      InSlabRanges material thickness lotNumber lotSeq length width basis flaws := by
  simp [amendableForm, InSlabRanges, flawInSlab_iff, lotForm_iff, and_assoc]

/-! ## Records added, removed and changed, seen by number -/

theorem findBy_insertBy {α : Type} {key : α → Nat} {r : α} {xs : List α} (h : findBy key (key r) xs = none) (n : Nat) :
    findBy key n (insertBy key r xs) = if n = key r then some r else findBy key n xs := by
  split
  · next hn => rw [hn, findBy_insertBy_self h]
  · next hn => exact findBy_insertBy_ne hn

/-- An entry of the material table defined anew: the old one gives way to it (R3). -/
theorem define_material? (s : State) (m : Material) (c : Nat) :
    (s.withMaterials fun ms => insertBy Material.code m (removeBy Material.code m.code ms)).material? c =
      if c = m.code then some m else s.material? c := by
  have hfree : findBy Material.code m.code (removeBy Material.code m.code s.stk.materials) = none := by
    rw [findBy_removeBy, if_pos rfl]
  refine (findBy_insertBy hfree c).trans ?_
  split
  · rfl
  · next hc => rw [findBy_removeBy, if_neg hc]; rfl

theorem drop_material? (s : State) (code c : Nat) :
    (s.withMaterials (removeBy Material.code code)).material? c = if c = code then none else s.material? c :=
  findBy_removeBy code c _

theorem insert_slab? {s : State} {r : Slab} (h : s.slab? r.number = none) (n : Nat) :
    (s.withSlabs (insertBy Slab.number r)).slab? n = if n = r.number then some r else s.slab? n :=
  findBy_insertBy h n

theorem remove_slab? (s : State) (number n : Nat) :
    (s.withSlabs (removeBy Slab.number number)).slab? n = if n = number then none else s.slab? n :=
  findBy_removeBy number n _

/-- A record on file changed: its lookup gives the changed record, every other lookup what it gave. -/
theorem updateSlab_slab?_of_some {s : State} {n : Nat} {r : Slab} (h : s.slab? n = some r) (f : Slab → Slab)
    (hk : ∀ x, (f x).number = x.number := by intro; rfl) (m : Nat) :
    (s.updateSlab n f).slab? m = if m = n then some (f r) else s.slab? m := by
  rw [updateSlab_slab? s n f m hk]
  split
  · next hm => rw [hm, h]; rfl
  · rfl

/-! ## Materials (R3 to R5) -/

section Materials

variable {s : State} {code hardness feed : Nat}

theorem hardness_of_none (h : s.material? code = none) : s.hardness code = 0 := by simp [State.hardness, h]

theorem feed_of_none (h : s.material? code = none) : s.feed code = 0 := by simp [State.feed, h]

theorem defineMaterial_form (h : 31 < code ∨ hardness < 100 ∨ 250 < hardness ∨ feed < 100 ∨ 3000 < feed) :
    defineMaterial code hardness feed s = refused .form s := by
  refine if_pos ?_
  simp only [Bool.not_eq_true', ← Bool.not_eq_true, within_iff]
  omega

theorem defineMaterial_performed (hc : code ≤ 31) (hh : 100 ≤ hardness ∧ hardness ≤ 250)
    (hf : 100 ≤ feed ∧ feed ≤ 3000) :
    defineMaterial code hardness feed s = performed [] (s.withMaterials fun ms =>
      insertBy Material.code ⟨code, hardness, feed⟩ (removeBy Material.code code ms)) := by
  refine if_neg ?_
  simp only [Bool.not_eq_true', ← Bool.not_eq_true, within_iff]
  omega

theorem dropMaterial_form (h : 31 < code) : dropMaterial code s = refused .form s := if_pos h

theorem dropMaterial_none (hc : code ≤ 31) (hm : s.material? code = none) : dropMaterial code s = refused .none s := by
  simp [dropMaterial, hc, hm]

theorem dropMaterial_inUse (hc : code ≤ 31) (hm : s.material? code ≠ none) (hr : ∃ r ∈ s.stk.slabs, r.material = code) :
    dropMaterial code s = refused .inUse s := by
  simp [dropMaterial, Nat.not_lt.2 hc, hm, hr]

theorem dropMaterial_performed (hc : code ≤ 31) (hm : s.material? code ≠ none)
    (hr : ∀ r ∈ s.stk.slabs, r.material ≠ code) :
    dropMaterial code s = performed [] (s.withMaterials (removeBy Material.code code)) := by
  have hunused : ¬ ∃ r ∈ s.stk.slabs, r.material = code := fun ⟨r, hmem, he⟩ => hr r hmem he
  simp [dropMaterial, Nat.not_lt.2 hc, hm, hunused]

theorem readMaterial_form (h : 31 < code) : readMaterial code s = refused .form s := if_pos h

theorem readMaterial_undefined (hc : code ≤ 31) (hm : s.material? code = none) :
    readMaterial code s = performed [.u8 0, .u16 0, .u16 0] s := by
  simp [readMaterial, Nat.not_lt.2 hc, hm, flag, boolCode, hardness_of_none hm, feed_of_none hm]

theorem readMaterial_defined {m : Material} (hc : code ≤ 31) (hm : s.material? code = some m) :
    readMaterial code s = performed [.u8 1, .u16 m.hardness, .u16 m.feed] s := by
  simp [readMaterial, Nat.not_lt.2 hc, hm, flag, boolCode, State.hardness, State.feed]

end Materials

/-- Settles O1: each request by the case lemma of the check that decides it. -/
theorem materialRequests : Obligations.MaterialRequests := by
  intro s code hardness feed hs
  refine ⟨fun h => hs.refuses (exec_defineMaterial ..) (defineMaterial_form h), fun hc h1 h2 f1 f2 => ?define,
    fun hc => hs.refuses (exec_dropMaterial ..) (dropMaterial_form hc),
    fun hc hm => hs.refuses (exec_dropMaterial ..) (dropMaterial_none hc hm),
    fun hc hm hr => hs.refuses (exec_dropMaterial ..) (dropMaterial_inUse hc hm hr), fun hc hm hr => ?drop,
    fun hc => hs.refuses (exec_readMaterial ..) (readMaterial_form hc),
    fun hc hm => hs.reports (exec_readMaterial ..) (readMaterial_undefined hc hm),
    fun m hc hm => hs.reports (exec_readMaterial ..) (readMaterial_defined hc hm)⟩
  case define =>
    have hlook := define_material? s ⟨code, hardness, feed⟩
    exact ⟨_, hs.performs (exec_defineMaterial ..) (defineMaterial_performed hc ⟨h1, h2⟩ ⟨f1, f2⟩),
      (hlook code).trans (if_pos rfl), fun c hne => (hlook c).trans (if_neg hne), rfl⟩
  case drop =>
    have hlook := drop_material? s code
    have hgone := (hlook code).trans (if_pos rfl)
    exact ⟨_, hs.performs (exec_dropMaterial ..) (dropMaterial_performed hc hm hr), hgone, hardness_of_none hgone,
      feed_of_none hgone, fun c hne => (hlook c).trans (if_neg hne), rfl⟩

/-! ## CREATE SLAB (R9) -/

section CreateSlab

/-- The FORM check of CREATE SLAB: the numbers and sizes of R9 and the amendable fields. -/
def CreateForm (number material thickness lotNumber lotSeq length width basis : Nat) (flaws : List Flaw) : Prop :=
  (1 ≤ number ∧ number ≤ 49999) ∧ (300 ≤ length ∧ length ≤ 3600) ∧ (200 ≤ width ∧ width ≤ 2100) ∧
    InSlabRanges material thickness lotNumber lotSeq length width basis flaws

/-- The record CREATE SLAB makes: FULL, AVAILABLE, on the floor. -/
def newSlab (number material thickness lotNumber lotSeq length width basis : Nat) (flaws : List Flaw) : Slab :=
  { number := number, kind := .full, material := material, thickness := thickness, lot := lotOf lotNumber lotSeq,
    length := length, width := width, flaws := flaws, basis := basis, place := none, state := .available, plan := none,
    parent := none, missing := false, mark := false }

variable {s : State} {number material thickness lotNumber lotSeq length width basis : Nat} {flaws : List Flaw}

/-- The model's test of the form fails exactly where the form of R9 does. -/
theorem createChecks_iff :
    (!within 1 49999 number ∨ !within 300 3600 length ∨ !within 200 2100 width
      ∨ !amendableForm material thickness lotNumber lotSeq length width basis flaws) ↔
      ¬ CreateForm number material thickness lotNumber lotSeq length width basis flaws := by
  simp only [Bool.not_eq_true', ← Bool.not_eq_true, within_iff, amendableForm_iff, CreateForm, not_and_or]

theorem createSlab_form (hf : ¬ CreateForm number material thickness lotNumber lotSeq length width basis flaws) :
    createSlab number material thickness lotNumber lotSeq length width basis flaws s = refused .form s :=
  if_pos (createChecks_iff.2 hf)

section FormMet

variable (hf : CreateForm number material thickness lotNumber lotSeq length width basis flaws)
include hf

theorem createSlab_none (hm : s.material? material = none) :
    createSlab number material thickness lotNumber lotSeq length width basis flaws s = refused .none s := by
  rw [createSlab, if_neg (createChecks_iff.not_left.2 hf), if_pos (by simp [hm])]

theorem createSlab_exists (hm : s.material? material ≠ none) (hn : s.slab? number ≠ none) :
    createSlab number material thickness lotNumber lotSeq length width basis flaws s = refused .exists s := by
  rw [createSlab, if_neg (createChecks_iff.not_left.2 hf), if_neg (by simp [hm]), if_pos (by simpa [Option.isSome_iff_ne_none])]

theorem createSlab_full (hm : s.material? material ≠ none) (hn : s.slab? number = none) (hl : 1024 ≤ s.stk.slabs.length) :
    createSlab number material thickness lotNumber lotSeq length width basis flaws s = refused .full s := by
  rw [createSlab, if_neg (createChecks_iff.not_left.2 hf), if_neg (by simp [hm]), if_neg (by simp [hn]),
    if_pos (show Config.maxSlabs ≤ _ from hl)]

theorem createSlab_performed (hm : s.material? material ≠ none) (hn : s.slab? number = none)
    (hl : s.stk.slabs.length < 1024) :
    createSlab number material thickness lotNumber lotSeq length width basis flaws s =
      performed [] (s.withSlabs (insertBy Slab.number
        (newSlab number material thickness lotNumber lotSeq length width basis flaws))) := by
  rw [createSlab, if_neg (createChecks_iff.not_left.2 hf), if_neg (by simp [hm]), if_neg (by simp [hn]),
    if_neg (show ¬ Config.maxSlabs ≤ _ from Nat.not_le.2 hl)]
  rfl

end FormMet

end CreateSlab

/-! ## AMEND SLAB (R10) -/

section AmendSlab

/-- The five amendable fields replaced, all else kept. -/
def Slab.amended (material thickness lotNumber lotSeq basis : Nat) (flaws : List Flaw) (r : Slab) : Slab :=
  { r with material := material, thickness := thickness, lot := lotOf lotNumber lotSeq, flaws := flaws, basis := basis }

variable {s : State} {number material thickness lotNumber lotSeq basis : Nat} {flaws : List Flaw} {r : Slab}
variable (hl : flaws.length ≤ 4)
include hl

theorem amendSlab_none (hn : s.slab? number = none) :
    amendSlab number material thickness lotNumber lotSeq basis flaws s = refused .none s := by
  simp only [amendSlab, if_neg (Nat.not_lt.2 hl), hn]

variable (hr : s.slab? number = some r)
include hr

theorem amendSlab_state (ha : r.state ≠ .available) :
    amendSlab number material thickness lotNumber lotSeq basis flaws s = refused .state s := by
  simp only [amendSlab, if_neg (Nat.not_lt.2 hl), hr, if_pos ha]

variable (ha : r.state = .available)
include ha

theorem amendSlab_form (hf : ¬ InSlabRanges material thickness lotNumber lotSeq r.length r.width basis flaws) :
    amendSlab number material thickness lotNumber lotSeq basis flaws s = refused .form s := by
  simp [amendSlab, Nat.not_lt.2 hl, hr, ha, Bool.eq_false_iff.2 (amendableForm_iff.not.2 hf)]

theorem amendSlab_undefined (hf : InSlabRanges material thickness lotNumber lotSeq r.length r.width basis flaws)
    (hm : s.material? material = none) :
    amendSlab number material thickness lotNumber lotSeq basis flaws s = refused .none s := by
  simp [amendSlab, Nat.not_lt.2 hl, hr, ha, amendableForm_iff.2 hf, hm]

theorem amendSlab_performed (hf : InSlabRanges material thickness lotNumber lotSeq r.length r.width basis flaws)
    (hm : s.material? material ≠ none) :
    amendSlab number material thickness lotNumber lotSeq basis flaws s =
      performed [] (s.updateSlab number (Slab.amended material thickness lotNumber lotSeq basis flaws)) := by
  unfold Slab.amended
  simp [amendSlab, Nat.not_lt.2 hl, hr, ha, amendableForm_iff.2 hf, hm]

end AmendSlab

/-- Settles O2: each check by its case lemma; the record by the lookup after an insertion and after a change. -/
theorem createAndAmendSlab : Obligations.CreateAndAmendSlab := by
  refine ⟨?create, ?amend⟩
  case create =>
    intro s number material thickness lotNumber lotSeq length width basis flaws hs i form
    have hi := exec_createSlab number material thickness lotNumber lotSeq length width basis flaws s
    refine ⟨fun hf => hs.refuses hi (createSlab_form hf), fun hf hm => hs.refuses hi (createSlab_none hf hm),
      fun hf hm hn => hs.refuses hi (createSlab_exists hf hm hn),
      fun hf hm hn hl => hs.refuses hi (createSlab_full hf hm hn hl), fun hf hm hn hl => ?_⟩
    have hlook := insert_slab? (r := newSlab number material thickness lotNumber lotSeq length width basis flaws) hn
    exact ⟨_, hs.performs hi (createSlab_performed hf hm hn hl), (hlook number).trans (if_pos rfl),
      fun n hne => (hlook n).trans (if_neg hne), length_insertBy .., rfl⟩
  case amend =>
    intro s number material thickness lotNumber lotSeq basis flaws hs hl i
    have hi := exec_amendSlab number material thickness lotNumber lotSeq basis flaws s
    refine ⟨fun hn => hs.refuses hi (amendSlab_none hl hn), ?_⟩
    intro r hr form
    refine ⟨fun ha => hs.refuses hi (amendSlab_state hl hr ha), fun ha hf => hs.refuses hi (amendSlab_form hl hr ha hf),
      fun ha hf hm => hs.refuses hi (amendSlab_undefined hl hr ha hf hm), fun ha hf hm => ?_⟩
    have hlook := updateSlab_slab?_of_some hr (Slab.amended material thickness lotNumber lotSeq basis flaws)
    exact ⟨_, hs.performs hi (amendSlab_performed hl hr ha hf hm), (hlook number).trans (if_pos rfl),
      fun n hne => (hlook n).trans (if_neg hne), rfl⟩

/-! ## SCRAP SLAB (R11) and RETIRE SLAB (R12) -/

section ScrapAndRetire

/-- A slab scrapped: off its place, without a mark, its record SCRAPPED (R11, R37). -/
def State.scrapped (s : State) (n : Nat) : State :=
  ((s.setPlace n none).leaveAudit n).updateSlab n fun r => { r with state := .scrapped, missing := false }

variable {s : State} {number : Nat} {r : Slab}

theorem scrapSlab_none (hn : s.slab? number = none) : scrapSlab number s = refused .none s := by
  simp only [scrapSlab, hn]

theorem scrapSlab_state (hr : s.slab? number = some r) (ha : r.state ≠ .available) :
    scrapSlab number s = refused .state s := by
  simp only [scrapSlab, hr, if_pos ha]

theorem scrapSlab_performed (hr : s.slab? number = some r) (ha : r.state = .available) :
    scrapSlab number s = performed [] (s.scrapped number) := by
  simp only [scrapSlab, hr, ha, ne_eq, not_true, if_false]
  rfl

/-- What scrapping does: the place is cleared first, then the mark, then the record changes. -/
theorem scrapped_spec (hr : s.slab? number = some r) :
    (∀ n, (s.scrapped number).slab? n =
      if n = number then some { r with state := .scrapped, place := none, missing := false, mark := false }
      else s.slab? n) ∧
    (∀ p, (s.scrapped number).rackAt? p = if r.place = some p then none else s.rackAt? p) ∧
    s.scrapped number =
      { s with stk := { s.stk with slabs := (s.scrapped number).stk.slabs, rackMap := (s.scrapped number).stk.rackMap,
                                   audit := if r.mark then { s.stk.audit with marked := s.stk.audit.marked - 1 }
                                     else s.stk.audit } } := by
  obtain ⟨placed_slab, placed_rack, placed_frame⟩ := setPlace_spec hr none
  have hplaced := (placed_slab number).trans (if_pos rfl)
  obtain ⟨left_slab, left_frame⟩ := unmark_spec hplaced 0
  have hleft := (left_slab number).trans (if_pos rfl)
  have hlook := updateSlab_slab?_of_some hleft fun r => { r with state := .scrapped, missing := false }
  refine ⟨fun n => (hlook n).trans ?_, fun p => ?_, ?_⟩
  · by_cases hn : n = number
    · rw [if_pos hn, if_pos hn]
    · rw [if_neg hn, if_neg hn, left_slab, if_neg hn, placed_slab, if_neg hn]
  · calc (s.scrapped number).rackAt? p
      _ = ((s.setPlace number none).unmark number 0).rackAt? p := rfl
      _ = (s.setPlace number none).rackAt? p := by rw [left_frame]; rfl
      _ = if r.place = some p then none else s.rackAt? p := by rw [placed_rack, if_neg nofun]
  · unfold State.scrapped State.leaveAudit
    rw [left_frame]
    simp only [State.updateSlab, State.withSlabs]
    rw [placed_frame]
    rfl

theorem retireSlab_none (hn : s.slab? number = none) : retireSlab number s = refused .none s := by
  simp only [retireSlab, hn]

theorem retireSlab_state (hr : s.slab? number = some r) (hc : r.state ≠ .consumed) (hs : r.state ≠ .scrapped) :
    retireSlab number s = refused .state s := by
  simp only [retireSlab, hr, hc, hs, or_self, if_false]

theorem retireSlab_performed (hr : s.slab? number = some r) (hd : r.state = .consumed ∨ r.state = .scrapped) :
    retireSlab number s = performed [] (s.withSlabs (removeBy Slab.number number)) := by
  simp only [retireSlab, hr, if_pos hd]

end ScrapAndRetire

/-- Settles O3: the effect of SCRAP SLAB by `scrapped_spec`, that of RETIRE SLAB by the lookup after a removal. -/
theorem scrapAndRetireSlab : Obligations.ScrapAndRetireSlab := by
  intro s number hs
  have scrap := exec_scrapSlab number s
  have retire := exec_retireSlab number s
  refine ⟨fun hn => ⟨hs.refuses scrap (scrapSlab_none hn), hs.refuses retire (retireSlab_none hn)⟩, fun r hr =>
    ⟨fun ha => hs.refuses scrap (scrapSlab_state hr ha), fun ha => ?scrap,
      fun hc hd => hs.refuses retire (retireSlab_state hr hc hd), fun hd => ?retire⟩⟩
  case scrap =>
    obtain ⟨hlook, hrack, hframe⟩ := scrapped_spec hr
    exact ⟨_, hs.performs scrap (scrapSlab_performed hr ha), (hlook number).trans (if_pos rfl),
      fun n hne => (hlook n).trans (if_neg hne), hrack,
      congrArg (fun u : State => u.answered Kind.scrapSlab .ok []) hframe⟩
  case retire =>
    have hlook := remove_slab? s number
    exact ⟨_, hs.performs retire (retireSlab_performed hr hd), (hlook number).trans (if_pos rfl),
      fun n hne => (hlook n).trans (if_neg hne), rfl⟩

/-! ## FIND SLABS (R14 to R16) -/

section FindSlabs

/-- A slab meets the criteria of FIND SLABS (R15). -/
def Slab.Hit (material thickness minLength minWidth lotNumber : Nat) (r : Slab) : Prop :=
  r.state = .available ∧ r.missing = false ∧ r.material = material ∧ (thickness = 0 ∨ r.thickness = thickness) ∧
    minLength ≤ r.length ∧ minWidth ≤ r.width ∧ (lotNumber = 0 ∨ ∃ l, r.lot = some l ∧ l.number = lotNumber)

/-- The FORM check of FIND SLABS (R14). -/
def FindForm (material thickness minLength minWidth : Nat) : Prop :=
  material ≤ 31 ∧ (thickness = 0 ∨ (10 ≤ thickness ∧ thickness ≤ 50)) ∧ minLength ≤ 3600 ∧ minWidth ≤ 2100

variable {s : State} {material thickness minLength minWidth lotNumber : Nat}

theorem Slab.matches_iff {r : Slab} :
    r.matches material thickness minLength minWidth lotNumber = true ↔
      r.Hit material thickness minLength minWidth lotNumber := by
  have hlot : (r.lot.elim false fun l => l.number == lotNumber) = true ↔ ∃ l, r.lot = some l ∧ l.number = lotNumber := by
    cases r.lot <;> simp
  simp only [Slab.matches, Slab.Hit, Bool.and_eq_true, Bool.or_eq_true, Bool.not_eq_true', beq_iff_eq, decide_eq_true_eq,
    hlot, and_assoc]

theorem findChecks_iff :
    (31 < material ∨ !(thickness == 0 || within 10 50 thickness) ∨ 3600 < minLength ∨ 2100 < minWidth) ↔
      ¬ FindForm material thickness minLength minWidth := by
  simp only [FindForm, not_and_or, Nat.not_le, Bool.not_eq_true', ← Bool.not_eq_true, Bool.or_eq_true, beq_iff_eq,
    within_iff]

variable (slabs : List Slab)

/-- The ranking loses no match and adds none. -/
theorem rankedMatches_perm :
    (rankedMatches material thickness minLength minWidth lotNumber slabs).Perm
      (slabs.filter (Slab.matches material thickness minLength minWidth lotNumber)) := by
  unfold rankedMatches
  split <;> exact rankBy_perm ..

/-- The matches stand in the order of R16: without a lot by area, with one by lot sequence. -/
theorem rankedMatches_sorted :
    (rankedMatches material thickness minLength minWidth lotNumber slabs).Pairwise (RankedBefore lotNumber) := by
  unfold rankedMatches
  split
  · next h => exact (rankBy_sorted _ _ _).imp fun hab => by simpa [RankedBefore, ranked, h] using hab
  · next h => exact (rankBy_sorted _ _ _).imp fun hab => by simpa [RankedBefore, ranked, h] using hab

variable {slabs}

theorem hit_of_mem_rankedMatches {r : Slab}
    (hr : r ∈ rankedMatches material thickness minLength minWidth lotNumber slabs) :
    r.Hit material thickness minLength minWidth lotNumber :=
  Slab.matches_iff.1 (List.mem_filter.1 ((rankedMatches_perm slabs).mem_iff.1 hr)).2

/-- A slab the search leaves out fails some criterion. -/
theorem not_hit_of_mem_filter_not {r : Slab}
    (hr : r ∈ slabs.filter fun r => !r.matches material thickness minLength minWidth lotNumber) :
    ¬ r.Hit material thickness minLength minWidth lotNumber := by
  have hmiss := (List.mem_filter.1 hr).2
  rw [← Slab.matches_iff]
  simpa using hmiss

theorem findSlabs_form (hf : ¬ FindForm material thickness minLength minWidth) :
    findSlabs material thickness minLength minWidth lotNumber s = refused .form s :=
  if_pos (findChecks_iff.2 hf)

theorem counted_singleton {α : Type} (field : α → Field) (xs : List α) :
    counted (fun x => [field x]) xs = .u8 xs.length :: xs.map field := by
  rw [counted, ← List.map_eq_flatMap]

/-- The reply: the total of the matches, then the first 16 with their count. -/
theorem findSlabs_performed (hf : FindForm material thickness minLength minWidth) {found : List Slab}
    (hfound : rankedMatches material thickness minLength minWidth lotNumber s.stk.slabs = found) :
    findSlabs material thickness minLength minWidth lotNumber s =
      performed (.u16 found.length :: .u8 (min found.length 16) :: (found.take 16).map fun r => .u16 r.number) s := by
  rw [findSlabs, if_neg (findChecks_iff.not_left.2 hf), hfound]
  dsimp only
  rw [counted_singleton, List.length_take, Nat.min_comm]
  rfl

end FindSlabs

/-- Settles O5: the matches are the ranking of the filtered table, the others what the filter leaves out. -/
theorem findSlabsRanksTheMatches : Obligations.FindSlabsRanksTheMatches := by
  intro s material thickness minLength minWidth lotNumber hs i form hit
  have hi := exec_findSlabs material thickness minLength minWidth lotNumber s
  exact ⟨fun hf => hs.refuses hi (findSlabs_form hf), fun hf =>
    ⟨_, s.stk.slabs.filter fun r => !r.matches material thickness minLength minWidth lotNumber,
      ((rankedMatches_perm _).append_right _).trans (List.filter_append_perm _ _),
      fun _ hr => hit_of_mem_rankedMatches hr, fun _ hr => not_hit_of_mem_filter_not hr, rankedMatches_sorted _,
      hs.reports hi (findSlabs_performed hf rfl)⟩⟩

end Sys2Proof.Machine
end

section
/-! PROOFS. Racks and the stock audit (02_racks_and_stock_audit.md): the checks MOVE SLAB and VERIFY SLAB share, the
displacement, the marks an audit sets and settles, and the two statements. -/

namespace Sys2Proof.Machine

/-! ### The requests of the racks and the audit -/

theorem exec_moveSlab (number rack position : Nat) (s : State) :
    exec (.moveSlab number rack position) s = hostRequest Kind.moveSlab (moveSlab number rack position) s := rfl

theorem exec_verifySlab (number rack position : Nat) (s : State) :
    exec (.verifySlab number rack position) s = hostRequest Kind.verifySlab (verifySlab number rack position) s := rfl

theorem exec_startAudit (spans : List Span) (s : State) :
    exec (.startAudit spans) s = hostRequest Kind.startAudit (startAudit spans) s := rfl

theorem exec_endAudit (s : State) : exec .endAudit s = hostRequest Kind.endAudit endAudit s := rfl

theorem exec_abortAudit (s : State) : exec .abortAudit s = hostRequest Kind.abortAudit abortAudit s := rfl

/-! ## Places and stock in the words of the rules (R27, R29, R34) -/

theorem placeForm_iff {rack position : Nat} : placeForm rack position = true ↔ PlaceForm rack position := by
  simp [placeForm, PlaceForm, and_assoc]

theorem Slab.inStock_iff {r : Slab} : r.inStock = true ↔ r.state = .available ∨ r.state = .reserved := by
  simp [Slab.inStock]

theorem other?_eq (s : State) (n : Nat) (target : Option Place) :
    s.other? n target = (target.bind s.rackAt?).filter fun m => m != n := by
  cases target <;> rfl

theorem other?_eq_some_iff {s : State} {n m : Nat} {target : Option Place} :
    s.other? n target = some m ↔ ∃ p, target = some p ∧ s.rackAt? p = some m ∧ m ≠ n := by
  rw [other?_eq, Option.filter_eq_some_iff, Option.bind_eq_some_iff]
  simp only [bne_iff_ne, ← exists_and_right, and_assoc]

theorem other?_ne_self (s : State) (n : Nat) (target : Option Place) : s.other? n target ≠ some n := fun h =>
  have ⟨_, _, _, hne⟩ := other?_eq_some_iff.1 h
  hne rfl

/-! ## Displacement (R35) -/

/-- The slab displaced, if any, goes to the floor. -/
def State.displace (s : State) (displaced : Option Nat) : State := displaced.elim s fun m => s.setPlace m none

theorem setPlace_of_none {s : State} {n : Nat} (h : s.slab? n = none) (target : Option Place) :
    s.setPlace n target = s := by
  simp only [State.setPlace, h]

/-- What a displacement does: the displaced record and its position, and nothing else. -/
theorem displace_spec (s : State) (displaced : Option Nat) :
    (∀ n, (s.displace displaced).slab? n =
      if displaced = some n then (s.slab? n).map fun x => { x with place := none } else s.slab? n) ∧
    (∀ p, (s.displace displaced).rackAt? p =
      if (displaced.bind s.slab?).bind Slab.place = some p then none else s.rackAt? p) ∧
    s.displace displaced =
      { s with stk := { s.stk with slabs := (s.displace displaced).stk.slabs,
                                   rackMap := (s.displace displaced).stk.rackMap } } := by
  cases displaced with
  | none => exact ⟨fun n => (if_neg nofun).symm, fun p => (if_neg nofun).symm, rfl⟩
  | some m =>
    cases hm : s.slab? m with
    | none =>
      have hsame : s.displace (some m) = s := setPlace_of_none hm none
      rw [hsame]
      refine ⟨fun n => ?_, fun p => ?_, rfl⟩
      · split
        · next h => cases h; rw [hm]; rfl
        · rfl
      · simp [hm]
    | some x =>
      obtain ⟨hslab, hrack, hframe⟩ := setPlace_spec hm none
      refine ⟨fun n => (hslab n).trans ?_, fun p => (hrack p).trans ?_, hframe⟩
      · by_cases hn : n = m
        · subst hn; simp [hm]
        · rw [if_neg hn, if_neg fun h => hn (Option.some.inj h).symm]
      · simp [hm]

/-- Placing a slab after another was displaced (R34 to R36): both records, the positions left and filled, the mark settled,
and nothing else. -/
theorem displace_place_spec {s : State} {n : Nat} {r : Slab} (h : s.slab? n = some r) (target : Option Place)
    {displaced : Option Nat} (hd : displaced ≠ some n) :
    ((s.displace displaced).place n target).slab? n =
      some { r with place := target, missing := false, mark := false } ∧
    (∀ m, displaced = some m →
      ((s.displace displaced).place n target).slab? m = (s.slab? m).map fun x => { x with place := none }) ∧
    (∀ m, m ≠ n → displaced ≠ some m → ((s.displace displaced).place n target).slab? m = s.slab? m) ∧
    (∀ p, ((s.displace displaced).place n target).rackAt? p =
      if target = some p then some n
      else if r.place = some p ∨ (displaced.bind s.slab?).bind Slab.place = some p then none else s.rackAt? p) ∧
    (s.displace displaced).place n target =
      { s with stk := { s.stk with slabs := ((s.displace displaced).place n target).stk.slabs,
                                   rackMap := ((s.displace displaced).place n target).stk.rackMap,
                                   audit := if r.mark then { s.stk.audit with marked := s.stk.audit.marked - 1,
                                                                               verified := s.stk.audit.verified + 1 }
                                     else s.stk.audit } } := by
  obtain ⟨displaced_slab, displaced_rack, displaced_frame⟩ := displace_spec s displaced
  have hr : (s.displace displaced).slab? n = some r := by rw [displaced_slab, if_neg hd, h]
  obtain ⟨placed_slab, placed_rack, placed_frame⟩ := place_spec hr target
  refine ⟨(placed_slab n).trans (if_pos rfl), fun m hm => ?_, fun m hne hm => ?_, fun p => ?_, ?_⟩
  · have hne : m ≠ n := fun e => hd (e ▸ hm)
    rw [placed_slab, if_neg hne, displaced_slab, if_pos hm]
  · rw [placed_slab, if_neg hne, displaced_slab, if_neg hm]
  · rw [placed_rack, displaced_rack, ite_or]
  · generalize (s.displace displaced).place n target = t at placed_frame ⊢
    rw [placed_frame, displaced_frame]

/-! ## MOVE SLAB (R29, R30) and VERIFY SLAB (R34 to R36) -/

section MoveAndVerify

variable {s : State} {number rack position : Nat} {r : Slab}

/-- Both requests make the FORM check of a place first. -/
theorem moveVerify_form (hf : ¬ PlaceForm rack position) :
    moveSlab number rack position s = refused .form s ∧ verifySlab number rack position s = refused .form s := by
  simp [moveSlab, verifySlab, Bool.eq_false_iff.2 (placeForm_iff.not.2 hf)]

variable (hf : PlaceForm rack position)
include hf

theorem moveVerify_none (hn : s.slab? number = none) :
    moveSlab number rack position s = refused .none s ∧ verifySlab number rack position s = refused .none s := by
  simp [moveSlab, verifySlab, placeForm_iff.2 hf, hn]

variable (hr : s.slab? number = some r)
include hr

theorem moveVerify_state (ha : r.state ≠ .available) (hv : r.state ≠ .reserved) :
    moveSlab number rack position s = refused .state s ∧ verifySlab number rack position s = refused .state s := by
  have hout : r.inStock = false := Bool.eq_false_iff.2 (Slab.inStock_iff.not.2 (not_or.2 ⟨ha, hv⟩))
  simp [moveSlab, verifySlab, placeForm_iff.2 hf, hr, hout]

variable (hs : r.state = .available ∨ r.state = .reserved)
include hs

theorem moveSlab_occupied {m : Nat} (ho : s.other? number (placeOf rack position) = some m) :
    moveSlab number rack position s = refused .occupied s := by
  simp [moveSlab, placeForm_iff.2 hf, hr, Slab.inStock_iff.2 hs, ho]

theorem moveSlab_performed (ho : s.other? number (placeOf rack position) = none) :
    moveSlab number rack position s = performed [] (s.place number (placeOf rack position)) := by
  simp [moveSlab, placeForm_iff.2 hf, hr, Slab.inStock_iff.2 hs, ho]

theorem verifySlab_performed {displaced : Option Nat}
    (hd : s.other? number (placeOf rack position) = displaced) :
    verifySlab number rack position s =
      performed [.u16 (displaced.getD 0)] ((s.displace displaced).place number (placeOf rack position)) := by
  simp only [verifySlab, placeForm_iff.2 hf, hr, Slab.inStock_iff.2 hs, hd]
  rfl

end MoveAndVerify

/-- Settles O7: the refusals by their checks, MOVE SLAB's effect by `place_spec`, that of VERIFY SLAB by
`displace_place_spec`. -/
theorem moveAndVerifySlab : Obligations.MoveAndVerifySlab := by
  refine ⟨?move, ?verify⟩
  case move =>
    intro s number rack position hs i target
    have hi := exec_moveSlab number rack position s
    refine ⟨fun hf => hs.refuses hi (moveVerify_form hf).1, fun hf hn => hs.refuses hi (moveVerify_none hf hn).1,
      fun r hf hr => ⟨fun ha hv => hs.refuses hi (moveVerify_state hf hr ha hv).1, fun hin hocc => ?occupied,
        fun hin hfree => ?performed⟩⟩
    case occupied =>
      obtain ⟨p, m, hp, hm, hne⟩ := hocc
      exact hs.refuses hi (moveSlab_occupied hf hr hin (other?_eq_some_iff.2 ⟨p, hp, hm, hne⟩))
    case performed =>
      have hnone : s.other? number target = none := Option.eq_none_iff_forall_ne_some.2 fun m hm =>
        have ⟨p, hp, hat, hne⟩ := other?_eq_some_iff.1 hm
        hne (hfree p m hp hat)
      obtain ⟨hslab, hrack, hframe⟩ := place_spec hr target
      exact ⟨_, hs.performs hi (moveSlab_performed hf hr hin hnone), (hslab number).trans (if_pos rfl),
        fun n hne => (hslab n).trans (if_neg hne), hrack,
        congrArg (fun u : State => u.answered Kind.moveSlab .ok []) hframe⟩
  case verify =>
    intro s number rack position hs i target displaced
    have hi := exec_verifySlab number rack position s
    refine ⟨fun hf => hs.refuses hi (moveVerify_form hf).2, fun hf hn => hs.refuses hi (moveVerify_none hf hn).2,
      fun r hf hr => ⟨fun ha hv => hs.refuses hi (moveVerify_state hf hr ha hv).2, fun hin => ?_⟩⟩
    have hd : s.other? number target = displaced := other?_eq s number target
    obtain ⟨hslab, hdisplaced, hothers, hrack, hframe⟩ :=
      displace_place_spec hr target (hd ▸ other?_ne_self s number target)
    exact ⟨_, hs.performs hi (verifySlab_performed hf hr hin hd), hslab, hdisplaced, hothers, hrack,
      congrArg (fun u : State => u.answered Kind.verifySlab .ok [.u16 (displaced.getD 0)]) hframe⟩

/-! ## START AUDIT (R32, R33) -/

section StartAudit

/-- The FORM check of START AUDIT (R32). -/
def SpansForm (spans : List Span) : Prop :=
  1 ≤ spans.length ∧ spans.length ≤ 3 ∧
    ∀ sp ∈ spans, (1 ≤ sp.first ∧ sp.first ≤ 32) ∧ (1 ≤ sp.last ∧ sp.last ≤ 32) ∧ sp.first ≤ sp.last

variable {s : State} {spans : List Span}

theorem Span.form_iff {sp : Span} :
    Span.form sp = true ↔ (1 ≤ sp.first ∧ sp.first ≤ 32) ∧ (1 ≤ sp.last ∧ sp.last ≤ 32) ∧ sp.first ≤ sp.last := by
  simp [Span.form, and_assoc]

/-- The model's test of the spans fails exactly where the form of R32 does. -/
theorem startChecks_iff : (spans.length = 0 ∨ 3 < spans.length ∨ !spans.all Span.form) ↔ ¬ SpansForm spans := by
  simp only [SpansForm, not_and_or, Nat.not_le, Nat.lt_one_iff, Bool.not_eq_true', ← Bool.not_eq_true, List.all_eq_true,
    Span.form_iff]

/-- The slabs an audit over the spans marks: in stock, placed in a rack of some span (R32). -/
theorem Slab.walked_iff {r : Slab} :
    r.walked spans = true ↔ (r.state = .available ∨ r.state = .reserved) ∧
      ∃ p sp, r.place = some p ∧ sp ∈ spans ∧ sp.first ≤ p.rack ∧ p.rack ≤ sp.last := by
  have hplace : (r.place.elim false fun p => spans.any fun sp => Span.holds sp p.rack) = true ↔
      ∃ p sp, r.place = some p ∧ sp ∈ spans ∧ sp.first ≤ p.rack ∧ p.rack ≤ sp.last := by
    cases r.place <;> simp [Span.holds]
  rw [Slab.walked, Bool.and_eq_true, Slab.inStock_iff, hplace]

/-- An audit closed before another is opened leaves no trace: the marks it removes play no part in the new ones (R33). -/
theorem closeAudit_openAudit (s : State) (spans : List Span) : s.closeAudit.openAudit spans = s.openAudit spans := by
  have hmarks : (s.stk.slabs.map fun r => { r with mark := false }).map
      (fun r => { r with mark := r.walked spans }) = s.stk.slabs.map fun r => { r with mark := r.walked spans } := by
    rw [List.map_map]; rfl
  have hcount : ((s.stk.slabs.map fun r => { r with mark := false }).filter (Slab.walked spans)).length =
      (s.stk.slabs.filter (Slab.walked spans)).length := by
    rw [List.filter_map, List.length_map]; rfl
  simp only [State.openAudit, State.closeAudit, State.withAudit, State.withSlabs, hmarks, hcount]

theorem startAudit_form (hf : ¬ SpansForm spans) : startAudit spans s = refused .form s :=
  if_pos (startChecks_iff.2 hf)

/-- Whether an audit ran or not, the new one starts from the stock as it stands. -/
theorem startAudit_performed (hf : SpansForm spans) :
    startAudit spans s =
      performed [.u16 (s.stk.slabs.filter (Slab.walked spans)).length] (s.openAudit spans) := by
  rw [startAudit, if_neg (startChecks_iff.not_left.2 hf)]
  cases hrun : s.stk.audit.state with
  | idle => rfl
  | running =>
    dsimp only
    rw [closeAudit_openAudit]
    rfl

end StartAudit

/-! ## END AUDIT (R38) and ABORT AUDIT (R39) -/

section EndAndAbort

variable {s : State}

theorem endAudit_idle (h : s.stk.audit.state = .idle) : endAudit s = refused .state s := by
  simp only [endAudit, h]

theorem endAudit_running (h : s.stk.audit.state = .running) :
    endAudit s = performed [.u16 s.stk.audit.marked, .u16 s.stk.audit.verified]
      (s.declareMissing.closeAudit.raise .auditEnded) := by
  simp only [endAudit, h]

theorem abortAudit_idle (h : s.stk.audit.state = .idle) : abortAudit s = refused .state s := by
  simp only [abortAudit, h]

theorem abortAudit_running (h : s.stk.audit.state = .running) :
    abortAudit s = performed [.u16 s.stk.audit.marked, .u16 s.stk.audit.verified] s.closeAudit := by
  simp only [abortAudit, h]

/-- After END AUDIT a slab that was marked is missing and on the floor, and no slab is marked. -/
theorem declareMissing_closeAudit_slabs (s : State) :
    s.declareMissing.closeAudit.stk.slabs = s.stk.slabs.map fun r =>
      if r.mark then { r with missing := true, place := none, mark := false } else { r with mark := false } := by
  calc s.declareMissing.closeAudit.stk.slabs
    _ = (s.stk.slabs.map Slab.declareMissing).map fun r => { r with mark := false } := rfl
    _ = s.stk.slabs.map _ := by
      rw [List.map_map]
      refine List.map_congr_left fun r _ => ?_
      simp only [Function.comp_apply, Slab.declareMissing]
      split <;> rfl

/-- The rack positions END AUDIT empties are those that name a marked slab. -/
theorem mem_declareMissing_rackMap {e : RackEntry} :
    e ∈ s.declareMissing.stk.rackMap ↔ e ∈ s.stk.rackMap ∧ ∀ r, s.slab? e.slab = some r → r.mark = false := by
  refine List.mem_filter.trans (and_congr_right fun _ => ?_)
  cases s.slab? e.slab <;> simp

end EndAndAbort

/-- Settles O8: the marks of START AUDIT by `Slab.walked_iff`, the slabs and positions END AUDIT declares missing by their
lemmas; ABORT AUDIT is `closeAudit` alone. -/
theorem stockAudit : Obligations.StockAudit := by
  refine ⟨?start, ?finish⟩
  case start =>
    intro s spans hs form walked
    have hi := exec_startAudit spans s
    exact ⟨fun hf => hs.refuses hi (startAudit_form hf), fun hf =>
      ⟨_, Slab.walked spans, hs.performs hi (startAudit_performed hf), fun _ => Slab.walked_iff, rfl⟩⟩
  case finish =>
    intro s hs
    have hend := exec_endAudit s
    have habort := exec_abortAudit s
    exact ⟨fun hidle => ⟨hs.refuses hend (endAudit_idle hidle), hs.refuses habort (abortAudit_idle hidle)⟩,
      fun hrun => ⟨⟨_, hs.performs hend (endAudit_running hrun), declareMissing_closeAudit_slabs s,
        fun _ => mem_declareMissing_rackMap, rfl⟩, hs.performs habort (abortAudit_running hrun)⟩⟩

end Sys2Proof.Machine
end

section
/-! PROOFS. Plans and the jobs that list them (03_cut_plans.md, 10_jobs_and_cost_accrual.md): the checks of the plan and job
requests in the words of their rules, what each performed request does to the lookups, and the five statements about them. -/

namespace Sys2Proof.Machine

/-! ### The requests of the plans and the jobs -/

theorem exec_createPlan (number job slab kerf : Nat) (strips : List Strip) (s : State) :
    exec (.createPlan number job slab kerf strips) s =
      hostRequest Kind.createPlan (createPlan number job slab kerf strips) s := rfl

theorem exec_revisePlan (number kerf : Nat) (strips : List Strip) (s : State) :
    exec (.revisePlan number kerf strips) s = hostRequest Kind.revisePlan (revisePlan number kerf strips) s := rfl

theorem exec_checkPlan (number : Nat) (s : State) :
    exec (.checkPlan number) s = hostRequest Kind.checkPlan (checkPlan number) s := rfl

theorem exec_releasePlan (number saw : Nat) (s : State) :
    exec (.releasePlan number saw) s = hostRequest Kind.releasePlan (releasePlan number saw) s := rfl

theorem exec_readPlan (number : Nat) (s : State) :
    exec (.readPlan number) s = hostRequest Kind.readPlan (readPlan number) s := rfl

theorem exec_readPassList (number : Nat) (s : State) :
    exec (.readPassList number) s = hostRequest Kind.readPassList (readPassList number) s := rfl

theorem exec_retirePlan (number : Nat) (s : State) :
    exec (.retirePlan number) s = hostRequest Kind.retirePlan (retirePlan number) s := rfl

theorem exec_openJob (number lot quote : Nat) (s : State) :
    exec (.openJob number lot quote) s = hostRequest Kind.openJob (openJob number lot quote) s := rfl

theorem exec_amendJob (number quote lot : Nat) (s : State) :
    exec (.amendJob number quote lot) s = hostRequest Kind.amendJob (amendJob number quote lot) s := rfl

theorem exec_readJob (number : Nat) (s : State) :
    exec (.readJob number) s = hostRequest Kind.readJob (readJob number) s := rfl

theorem exec_closeJob (number : Nat) (s : State) :
    exec (.closeJob number) s = hostRequest Kind.closeJob (closeJob number) s := rfl

theorem exec_retireJob (number : Nat) (s : State) :
    exec (.retireJob number) s = hostRequest Kind.retireJob (retireJob number) s := rfl

/-! ## Records added, removed and changed, seen by number -/

section Lookups

variable {s : State}

theorem insert_plan? {p : Plan} (h : s.plan? p.number = none) (n : Nat) :
    (s.withPlans (insertBy Plan.number p)).plan? n = if n = p.number then some p else s.plan? n :=
  findBy_insertBy h n

theorem remove_plan? (s : State) (number n : Nat) :
    (s.withPlans (removeBy Plan.number number)).plan? n = if n = number then none else s.plan? n :=
  findBy_removeBy number n _

theorem insert_job? {j : Job} (h : s.job? j.number = none) (n : Nat) :
    (s.withJobs (insertBy Job.number j)).job? n = if n = j.number then some j else s.job? n :=
  findBy_insertBy h n

theorem remove_job? (s : State) (number n : Nat) :
    (s.withJobs (removeBy Job.number number)).job? n = if n = number then none else s.job? n :=
  findBy_removeBy number n _

theorem plan?_number {n : Nat} {p : Plan} (h : s.plan? n = some p) : p.number = n := (findBy_some h).2

theorem job?_number {n : Nat} {j : Job} (h : s.job? n = some j) : j.number = n := (findBy_some h).2

theorem updatePlan_plan?_self (s : State) (n : Nat) (f : Plan → Plan)
    (hk : ∀ x, (f x).number = x.number := by intro; rfl) :
    (s.updatePlan n f).plan? n = (s.plan? n).map f :=
  (updatePlan_plan? s n f n hk).trans (if_pos rfl)

theorem updatePlan_plan?_ne (s : State) {n m : Nat} (f : Plan → Plan) (h : m ≠ n)
    (hk : ∀ x, (f x).number = x.number := by intro; rfl) :
    (s.updatePlan n f).plan? m = s.plan? m :=
  (updatePlan_plan? s n f m hk).trans (if_neg h)

theorem updateJob_job?_self (s : State) (n : Nat) (f : Job → Job)
    (hk : ∀ x, (f x).number = x.number := by intro; rfl) :
    (s.updateJob n f).job? n = (s.job? n).map f :=
  (updateJob_job? s n f n hk).trans (if_pos rfl)

theorem updateJob_job?_ne (s : State) {n m : Nat} (f : Job → Job) (h : m ≠ n)
    (hk : ∀ x, (f x).number = x.number := by intro; rfl) :
    (s.updateJob n f).job? m = s.job? m :=
  (updateJob_job? s n f m hk).trans (if_neg h)

theorem updateSlab_slab?_self (s : State) (n : Nat) (f : Slab → Slab)
    (hk : ∀ x, (f x).number = x.number := by intro; rfl) :
    (s.updateSlab n f).slab? n = (s.slab? n).map f :=
  (updateSlab_slab? s n f n hk).trans (if_pos rfl)

theorem updateSlab_slab?_ne (s : State) {n m : Nat} (f : Slab → Slab) (h : m ≠ n)
    (hk : ∀ x, (f x).number = x.number := by intro; rfl) :
    (s.updateSlab n f).slab? m = s.slab? m :=
  (updateSlab_slab? s n f m hk).trans (if_neg h)

end Lookups

/-! ## READ PLAN, READ PASS LIST and RETIRE PLAN (R60, R61, R216) -/

section ReadAndRetirePlan

variable {s : State} {number : Nat} {p : Plan}

theorem readPlan_none (hn : s.plan? number = none) : readPlan number s = refused .none s := by
  simp only [readPlan, hn]

theorem readPlan_performed (hp : s.plan? number = some p) : readPlan number s = performed p.fields s := by
  simp only [readPlan, hp]

theorem readPassList_none (hn : s.plan? number = none) : readPassList number s = refused .none s := by
  simp only [readPassList, hn]

theorem readPassList_performed (hp : s.plan? number = some p) :
    readPassList number s = performed (.u16 p.number :: counted Pass.fields p.passes) s := by
  simp only [readPassList, hp]

theorem retirePlan_none (hn : s.plan? number = none) : retirePlan number s = refused .none s := by
  simp only [retirePlan, hn]

theorem retirePlan_state (hp : s.plan? number = some p)
    (hl : p.state = .draft ∨ p.state = .checked ∨ p.state = .released ∨ p.state = .cutting) :
    retirePlan number s = refused .state s := by
  rcases hl with h | h | h | h <;> simp [retirePlan, hp, h, PlanState.ended]

theorem retirePlan_performed (hp : s.plan? number = some p)
    (he : p.state = .done ∨ p.state = .cancelled ∨ p.state = .abandoned) :
    retirePlan number s = performed []
      ((s.updateJob p.job fun j => { j with plans := j.plans.filter fun n => n != number }).withPlans
        (removeBy Plan.number number)) := by
  rcases he with h | h | h <;> simp [retirePlan, hp, h, PlanState.ended]

/-- The number of passes of a plan, 0 without a derived part (R60). -/
theorem Plan.passes_length (p : Plan) : p.passes.length = p.derived.elim 0 fun d => d.passes.length := by
  unfold Plan.passes
  cases p.derived <;> rfl

end ReadAndRetirePlan

/-- Settles O17: the replies are the records of `Plan.fields` and `Pass.fields`, the finished indications by
`finishedBits_testBit`. -/
theorem readAndRetirePlan : Obligations.ReadAndRetirePlan := by
  refine ⟨?read, ?others⟩
  case read =>
    intro s number hs
    have hi := exec_readPlan number s
    refine ⟨fun hn => hs.refuses hi (readPlan_none hn), fun p hp => ?_⟩
    refine ⟨finishedBits p.finished, finishedBits_testBit p.finished, ?_⟩
    rw [p.passes_length]
    exact hs.reports hi (readPlan_performed hp)
  case others =>
    intro s number hs
    have list := exec_readPassList number s
    have retire := exec_retirePlan number s
    refine ⟨fun hn => ⟨hs.refuses list (readPassList_none hn), hs.refuses retire (retirePlan_none hn)⟩, fun p hp =>
      ⟨hs.reports list (readPassList_performed hp), fun hl => hs.refuses retire (retirePlan_state hp hl), fun he => ?_⟩⟩
    have hlook := remove_plan? (s.updateJob p.job fun j => { j with plans := j.plans.filter fun n => n != number }) number
    exact ⟨_, hs.performs retire (retirePlan_performed hp he), (hlook number).trans (if_pos rfl),
      fun n hne => (hlook n).trans (if_neg hne), updateJob_job?_self .., fun n hne => updateJob_job?_ne s _ hne, rfl⟩

/-! ## The checks of a plan in the words of the rules (R45, R50, R51) -/

theorem Piece.form_iff {p : Piece} :
    Piece.form p = true ↔ (1 ≤ p.mark ∧ p.mark ≤ 999) ∧ (50 ≤ p.length ∧ p.length ≤ 3600) := by
  simp only [Piece.form, Bool.and_eq_true, within_iff]

theorem Strip.form_iff {t : Strip} :
    Strip.form t = true ↔ (20 ≤ t.width ∧ t.width ≤ 2100) ∧ (1 ≤ t.pieces.length ∧ t.pieces.length ≤ 6) ∧
      ∀ p ∈ t.pieces, (1 ≤ p.mark ∧ p.mark ≤ 999) ∧ (50 ≤ p.length ∧ p.length ≤ 3600) := by
  simp only [Strip.form, Bool.and_eq_true, within_iff, List.all_eq_true, Piece.form_iff, and_assoc]

/-- The model's test of a layout is the FORM check of R50. -/
theorem layoutForm_iff {kerf : Nat} {strips : List Strip} : layoutForm kerf strips = true ↔ LayoutForm kerf strips := by
  simp only [layoutForm, LayoutForm, Bool.and_eq_true, within_iff, List.all_eq_true, Strip.form_iff, decide_eq_true_eq,
    and_assoc]
  rfl

/-- The model's test of the lot binding is the rule of R51. -/
theorem lotMet_iff {job : Option Job} {r : Slab} : lotMet job r = true ↔ LotMet job r := by
  cases job with
  | none => exact ⟨fun _ => nofun, fun _ => rfl⟩
  | some j =>
    have hone : LotMet (some j) r ↔ ∀ l, j.lot = some l → ∃ x, r.lot = some x ∧ x.number = l :=
      ⟨fun h l => h j l rfl, fun h _ l hj => Option.some.inj hj ▸ h l⟩
    rw [hone, lotMet, Option.bind_some]
    cases j.lot <;> cases r.lot <;> simp

/-- A layout a frame carries is not too long (R211). -/
theorem layoutTooLong_eq_false {strips : List Strip} (hl : strips.length ≤ 8) (hp : ∀ t ∈ strips, t.pieces.length ≤ 6) :
    layoutTooLong strips = false := by
  simpa [layoutTooLong, hl] using hp

/-! ## CREATE PLAN (R50, R51) -/

section CreatePlan

/-- The FORM check of CREATE PLAN (R50). -/
def PlanForm (number job slab kerf : Nat) (strips : List Strip) : Prop :=
  number ≠ 0 ∧ job ≠ 0 ∧ slab ≠ 0 ∧ LayoutForm kerf strips

/-- The plan table or the job's plan list is full (R50). -/
def PlansFull (s : State) (j : Job) : Prop := 256 ≤ s.pln.plans.length ∨ 16 ≤ j.plans.length

/-- The plan on record in DRAFT and listed at the end of its job's plans. -/
def State.planCreated (s : State) (number job slab kerf : Nat) (strips : List Strip) : State :=
  (s.withPlans (insertBy Plan.number (newPlan number job slab kerf strips))).updateJob job fun j =>
    { j with plans := j.plans ++ [number] }

variable {s : State} {number job slab kerf : Nat} {strips : List Strip} {j : Job} {r : Slab}

theorem planChecks_iff :
    (number = 0 ∨ job = 0 ∨ slab = 0 ∨ !layoutForm kerf strips) ↔ ¬ PlanForm number job slab kerf strips := by
  simp only [PlanForm, ← layoutForm_iff, not_and_or, not_not, Bool.not_eq_true', Bool.not_eq_true]

theorem createPlan_form (hf : ¬ PlanForm number job slab kerf strips) :
    createPlan number job slab kerf strips s = refused .form s :=
  if_pos (planChecks_iff.2 hf)

variable (hf : PlanForm number job slab kerf strips)
include hf

theorem createPlan_none (hn : s.job? job = none ∨ s.slab? slab = none) :
    createPlan number job slab kerf strips s = refused .none s := by
  rw [createPlan, if_neg (planChecks_iff.not_left.2 hf)]
  rcases hn with hn | hn
  · rw [hn]
  · rw [hn]; cases s.job? job <;> rfl

variable (hj : s.job? job = some j) (hr : s.slab? slab = some r)
include hj hr

theorem createPlan_frozen (hc : j.state = .closed) : createPlan number job slab kerf strips s = refused .frozen s := by
  simp only [createPlan, if_neg (planChecks_iff.not_left.2 hf), hj, hr, if_pos hc]

variable (hc : j.state ≠ .closed)
include hc

theorem createPlan_lot (hl : ¬ LotMet (some j) r) : createPlan number job slab kerf strips s = refused .lot s := by
  have hl' : lotMet (some j) r = false := Bool.eq_false_iff.2 (lotMet_iff.not.2 hl)
  simp only [createPlan, if_neg (planChecks_iff.not_left.2 hf), hj, hr, if_neg hc, hl', Bool.not_false, if_true]

variable (hl : LotMet (some j) r)
include hl

theorem createPlan_full (hfull : PlansFull s j) : createPlan number job slab kerf strips s = refused .full s := by
  simp only [createPlan, if_neg (planChecks_iff.not_left.2 hf), hj, hr, if_neg hc, lotMet_iff.2 hl]
  exact if_pos hfull

variable (hfit : ¬ PlansFull s j)
include hfit

theorem createPlan_exists (hn : s.plan? number ≠ none) :
    createPlan number job slab kerf strips s = refused .exists s := by
  simp only [createPlan, if_neg (planChecks_iff.not_left.2 hf), hj, hr, if_neg hc, lotMet_iff.2 hl]
  exact (if_neg hfit).trans (if_pos (Option.isSome_iff_ne_none.2 hn))

theorem createPlan_performed (hn : s.plan? number = none) :
    createPlan number job slab kerf strips s = performed [] (s.planCreated number job slab kerf strips) := by
  simp only [createPlan, if_neg (planChecks_iff.not_left.2 hf), hj, hr, if_neg hc, lotMet_iff.2 hl]
  exact (if_neg hfit).trans (if_neg (by simp [hn]))

end CreatePlan

/-! ## REVISE PLAN (R52, R53, R206) -/

section RevisePlan

variable {s : State} {number kerf : Nat} {strips : List Strip} {p : Plan}
variable (hlong : layoutTooLong strips = false)
include hlong

theorem revisePlan_none (hn : s.plan? number = none) : revisePlan number kerf strips s = refused .none s := by
  simp [revisePlan, hlong, hn]

variable (hp : s.plan? number = some p)
include hp

theorem revisePlan_state (hd : p.state ≠ .draft) (hc : p.state ≠ .checked) :
    revisePlan number kerf strips s = refused .state s := by
  cases h : p.state <;> simp_all [revisePlan]

theorem revisePlan_form (hs : p.state = .draft ∨ p.state = .checked) (hf : ¬ LayoutForm kerf strips) :
    revisePlan number kerf strips s = refused .form s := by
  have hf' : layoutForm kerf strips = false := Bool.eq_false_iff.2 (layoutForm_iff.not.2 hf)
  rcases hs with h | h <;> simp [revisePlan, hlong, hp, h, hf']

theorem revisePlan_draft (hd : p.state = .draft) (hf : LayoutForm kerf strips) :
    revisePlan number kerf strips s = performed [] (s.updatePlan number (Plan.revise kerf strips)) := by
  simp [revisePlan, hlong, hp, hd, layoutForm_iff.2 hf]

theorem revisePlan_checked (hc : p.state = .checked) (hf : LayoutForm kerf strips) :
    revisePlan number kerf strips s =
      performed [] ((s.undoCheck p).updatePlan number (Plan.revise kerf strips)) := by
  simp [revisePlan, hlong, hp, hc, layoutForm_iff.2 hf]

end RevisePlan

/-- What undoing a check does to the slab and the job (R53, R57, R206). -/
theorem undoCheck_spec (s : State) (p : Plan) :
    ((s.undoCheck p).slab? p.slab = (s.slab? p.slab).map fun r => { r with state := .available, plan := none }) ∧
    (∀ n, n ≠ p.slab → (s.undoCheck p).slab? n = s.slab? n) ∧
    ((s.undoCheck p).job? p.job = (s.job? p.job).map fun j => { j with
      planned := if 65535 ≤ j.planned then j.planned else j.planned - pieceCount p.strips }) ∧
    ∀ n, n ≠ p.job → (s.undoCheck p).job? n = s.job? n :=
  ⟨updateSlab_slab?_self s p.slab _, fun _ hne => updateSlab_slab?_ne s _ hne,
    updateJob_job?_self (s.unreserve p.slab) p.job _, fun _ hne => updateJob_job?_ne (s.unreserve p.slab) _ hne⟩

/-- Settles O9: each check by its case lemma; REVISE PLAN of a CHECKED plan by `undoCheck_spec`. -/
theorem createAndRevisePlan : Obligations.CreateAndRevisePlan := by
  refine ⟨?create, ?revise⟩
  case create =>
    intro s number job slab kerf strips hs i form
    have hi := exec_createPlan number job slab kerf strips s
    refine ⟨fun hf => hs.refuses hi (createPlan_form hf), fun hf hn => hs.refuses hi (createPlan_none hf hn),
      fun j r hf hj hr => ⟨fun hc => hs.refuses hi (createPlan_frozen hf hj hr hc),
        fun hc hl => hs.refuses hi (createPlan_lot hf hj hr hc hl),
        fun hc hl hfull => hs.refuses hi (createPlan_full hf hj hr hc hl hfull),
        fun hc hl hfit hn => hs.refuses hi (createPlan_exists hf hj hr hc hl hfit hn), fun hc hl hfit hn => ?_⟩⟩
    have hplan := insert_plan? (p := newPlan number job slab kerf strips) hn
    have hjob := updateJob_job?_self (s.withPlans (insertBy Plan.number (newPlan number job slab kerf strips))) job
      fun j => { j with plans := j.plans ++ [number] }
    exact ⟨_, hs.performs hi (createPlan_performed hf hj hr hc hl hfit hn), (hplan number).trans (if_pos rfl),
      fun n hne => (hplan n).trans (if_neg hne), length_insertBy .., hjob.trans (congrArg (Option.map _) hj),
      fun n hne => updateJob_job?_ne (s.withPlans _) _ hne, rfl⟩
  case revise =>
    intro s number kerf strips hs hl hpieces i
    have hlong := layoutTooLong_eq_false hl hpieces
    have hi := exec_revisePlan number kerf strips s
    refine ⟨fun hn => hs.refuses hi (revisePlan_none hlong hn), fun p hp => ?_⟩
    intro revised
    refine ⟨fun hd hc => hs.refuses hi (revisePlan_state hlong hp hd hc),
      fun hst hf => hs.refuses hi (revisePlan_form hlong hp hst hf), fun hd hf => ?draft, fun hc hf => ?checked⟩
    case draft =>
      have hplan := updatePlan_plan?_self s number (Plan.revise kerf strips)
      exact ⟨_, hs.performs hi (revisePlan_draft hlong hp hd hf), hplan.trans (congrArg (Option.map _) hp),
        fun n hne => updatePlan_plan?_ne s _ hne, rfl⟩
    case checked =>
      obtain ⟨hslab, hslabs, hjob, hjobs⟩ := undoCheck_spec s p
      have hplan := updatePlan_plan?_self (s.undoCheck p) number (Plan.revise kerf strips)
      exact ⟨_, hs.performs hi (revisePlan_checked hlong hp hc hf), hplan.trans (congrArg (Option.map _) hp),
        fun n hne => updatePlan_plan?_ne (s.undoCheck p) _ hne, hslab, hslabs, hjob, hjobs, rfl⟩

/-! ## CHECK PLAN (R54, R55) -/

section CheckPlan

variable {s : State} {number : Nat} {p : Plan} {r : Slab}

theorem checkPlan_none (hn : s.plan? number = none) : checkPlan number s = refused .none s := by
  simp only [checkPlan, hn]

variable (hp : s.plan? number = some p)
include hp

theorem checkPlan_state (hd : p.state ≠ .draft) : checkPlan number s = refused .state s := by
  simp only [checkPlan, hp, if_pos hd]

variable (hd : p.state = .draft)
include hd

theorem checkPlan_slabNone (hn : s.slab? p.slab = none) : checkPlan number s = refused .none s := by
  simp [checkPlan, hp, hd, hn]

variable (hr : s.slab? p.slab = some r)
include hr

theorem checkPlan_slabState (ha : r.state ≠ .available) : checkPlan number s = refused .state s := by
  simp [checkPlan, hp, hd, hr, ha]

variable (ha : r.state = .available)
include ha

theorem checkPlan_missing (hm : r.missing = true) : checkPlan number s = refused .missing s := by
  simp [checkPlan, hp, hd, hr, ha, hm]

variable (hm : r.missing = false)
include hm

theorem checkPlan_lot (hl : ¬ LotMet (s.job? p.job) r) : checkPlan number s = refused .lot s := by
  simp [checkPlan, hp, hd, hr, ha, hm, Bool.eq_false_iff.2 (lotMet_iff.not.2 hl)]

variable (hl : LotMet (s.job? p.job) r)
include hl

theorem checkPlan_geometry {f : Failure} (hlay : layout (layoutInput r p) = .error f) :
    checkPlan number s = (⟨.geometry, f.fields⟩, s) := by
  simp [checkPlan, hp, hd, hr, ha, hm, lotMet_iff.2 hl, hlay]

theorem checkPlan_performed {d : Derived} (hlay : layout (layoutInput r p) = .ok d) :
    checkPlan number s = performed d.checkFields (s.performCheck p d) := by
  simp [checkPlan, hp, hd, hr, ha, hm, lotMet_iff.2 hl, hlay]

end CheckPlan

/-- What a check that passes writes: the plan, the slab and the job (R55). -/
theorem performCheck_spec {s : State} {p : Plan} {r : Slab} (hp : s.plan? p.number = some p)
    (hr : s.slab? p.slab = some r) (d : Derived) :
    (s.performCheck p d).plan? p.number = some { p with derived := some d, state := .checked } ∧
    (∀ n, n ≠ p.number → (s.performCheck p d).plan? n = s.plan? n) ∧
    (s.performCheck p d).slab? p.slab = some { r with state := .reserved, plan := some p.number } ∧
    (∀ n, n ≠ p.slab → (s.performCheck p d).slab? n = s.slab? n) ∧
    ((s.performCheck p d).job? p.job = (s.job? p.job).map fun j =>
      { j with planned := min 65535 (j.planned + pieceCount p.strips) }) ∧
    ∀ n, n ≠ p.job → (s.performCheck p d).job? n = s.job? n :=
  ⟨(updatePlan_plan?_self s p.number _).trans (congrArg (Option.map _) hp), fun _ hne => updatePlan_plan?_ne s _ hne,
    (updateSlab_slab?_self s p.slab _).trans (congrArg (Option.map _) hr), fun _ hne => updateSlab_slab?_ne s _ hne,
    updateJob_job?_self s p.job _, fun _ hne => updateJob_job?_ne s _ hne⟩

/-- Settles O10: each check by its case lemma, what a passed check writes by `performCheck_spec`. -/
theorem checkPlan_holds : Obligations.CheckPlan := by
  intro s number hs i
  have hi := exec_checkPlan number s
  refine ⟨fun hn => hs.refuses hi (checkPlan_none hn), fun p hp => ⟨fun hd => hs.refuses hi (checkPlan_state hp hd),
    fun hd hn => hs.refuses hi (checkPlan_slabNone hp hd hn), fun r hd hr => ?_⟩⟩
  intro input
  refine ⟨fun ha => hs.refuses hi (checkPlan_slabState hp hd hr ha),
    fun ha hm => hs.refuses hi (checkPlan_missing hp hd hr ha hm),
    fun ha hm hl => hs.refuses hi (checkPlan_lot hp hd hr ha hm hl), fun f ha hm hl hlay => ?geometry,
    fun d ha hm hl hlay => ?performed⟩
  case geometry =>
    rw [hi, hostRequest_ready hs, checkPlan_geometry hp hd hr ha hm hl hlay]
    rfl
  case performed =>
    obtain rfl := plan?_number hp
    obtain ⟨hplan, hplans, hslab, hslabs, hjob, hjobs⟩ := performCheck_spec hp hr d
    exact ⟨_, hs.performs hi (checkPlan_performed hp hd hr ha hm hl hlay), hplan, hplans, hslab, hslabs, hjob, hjobs, rfl⟩

/-! ## RELEASE PLAN (R56) -/

section ReleasePlan

theorem Saw.ofNat?_eq_none {n : Nat} (h : n = 0 ∨ 4 < n) : Saw.ofNat? n = none := by
  rcases h with rfl | h
  · rfl
  · obtain ⟨k, rfl⟩ := Nat.exists_eq_add_of_lt h
    rw [show 4 + k + 1 = k + 5 by omega]
    rfl

theorem Saw.ofNat?_toNat (w : Saw) : Saw.ofNat? w.toNat = some w := by cases w <;> rfl

/-- The plan RELEASED to the saw and at the tail of its queue (R56), before the loading of the head. -/
def State.planReleased (s : State) (number : Nat) (w : Saw) : State :=
  (s.updatePlan number fun p => { p with state := .released, saw := some w }).updateSaw w fun r =>
    { r with queue := r.queue ++ [number] }

variable {s : State} {number : Nat} {w : Saw} {p : Plan} {b : Blade} {n : Nat}

theorem releasePlan_form {saw : Nat} (h : saw = 0 ∨ 4 < saw) : releasePlan number saw s = refused .form s := by
  simp only [releasePlan, Saw.ofNat?_eq_none h]

theorem releasePlan_none (hn : s.plan? number = none) : releasePlan number w.toNat s = refused .none s := by
  simp only [releasePlan, Saw.ofNat?_toNat, hn]

variable (hp : s.plan? number = some p)
include hp

theorem releasePlan_state (hc : p.state ≠ .checked) : releasePlan number w.toNat s = refused .state s := by
  simp only [releasePlan, Saw.ofNat?_toNat, hp, if_pos hc]

variable (hc : p.state = .checked)
include hc

theorem releasePlan_full (hq : 4 ≤ (s.saw w).queue.length) : releasePlan number w.toNat s = refused .full s := by
  simp [releasePlan, Saw.ofNat?_toNat, hp, hc, Config.maxQueue, hq]

variable (hq : (s.saw w).queue.length < 4)
include hq

theorem releasePlan_noBlade (hb : (s.saw w).blade = none) : releasePlan number w.toNat s = refused .blade s := by
  simp [releasePlan, Saw.ofNat?_toNat, hp, hc, Config.maxQueue, Nat.not_le.2 hq, hb]

variable (hn : (s.saw w).blade = some n) (hb : s.blade? n = some b)
include hn hb

theorem releasePlan_exhausted (hh : b.health = .exhausted) : releasePlan number w.toNat s = refused .blade s := by
  simp [releasePlan, Saw.ofNat?_toNat, hp, hc, Config.maxQueue, Nat.not_le.2 hq, hn, hb, hh]

variable (hh : b.health ≠ .exhausted)
include hh

theorem releasePlan_kerf (hk : p.kerf < b.kerf) : releasePlan number w.toNat s = refused .kerf s := by
  simp [releasePlan, Saw.ofNat?_toNat, hp, hc, Config.maxQueue, Nat.not_le.2 hq, hn, hb, hh, hk]

variable (hk : b.kerf ≤ p.kerf)
include hk

theorem releasePlan_missing (hm : ∃ r, s.slab? p.slab = some r ∧ r.missing = true) :
    releasePlan number w.toNat s = refused .missing s := by
  obtain ⟨r, hr, hm⟩ := hm
  simp [releasePlan, Saw.ofNat?_toNat, hp, hc, Config.maxQueue, Nat.not_le.2 hq, hn, hb, hh, Nat.not_lt.2 hk, hr, hm]

theorem releasePlan_performed (hm : ∀ r, s.slab? p.slab = some r → r.missing = false) :
    releasePlan number w.toNat s = performed [] ((s.planReleased number w).loadHead w) := by
  have hpresent : (s.slab? p.slab).elim false Slab.missing = false := by
    cases hr : s.slab? p.slab with
    | none => rfl
    | some r => exact hm r hr
  simp [releasePlan, Saw.ofNat?_toNat, hp, hc, Config.maxQueue, Nat.not_le.2 hq, hn, hb, hh, Nat.not_lt.2 hk, hpresent,
    State.planReleased]

end ReleasePlan

/-- Settles O14: each check by its case lemma; the release is `State.planReleased`, the head is loaded after it. -/
theorem releasePlan_holds : Obligations.ReleasePlan := by
  intro s number saw hs i
  have hi := exec_releasePlan number saw s
  refine ⟨fun h => hs.refuses hi (releasePlan_form h), ?_⟩
  rintro w rfl
  refine ⟨fun hn => hs.refuses hi (releasePlan_none hn), fun p hp =>
    ⟨fun hc => hs.refuses hi (releasePlan_state hp hc), fun hc hq => hs.refuses hi (releasePlan_full hp hc hq),
      fun hc hq hb => hs.refuses hi (releasePlan_noBlade hp hc hq hb), fun n b hc hq hn hb =>
        ⟨fun hh => hs.refuses hi (releasePlan_exhausted hp hc hq hn hb hh),
          fun hh hk => hs.refuses hi (releasePlan_kerf hp hc hq hn hb hh hk),
          fun hh hk hm => hs.refuses hi (releasePlan_missing hp hc hq hn hb hh hk hm), fun hh hk hm => ?_⟩⟩⟩
  exact ⟨s.planReleased number w, (updatePlan_plan?_self s number _).trans (congrArg (Option.map _) hp),
    fun m hne => updatePlan_plan?_ne s _ hne, rfl, rfl,
    hs.performs hi (releasePlan_performed hp hc hq hn hb hh hk hm)⟩

/-! ## OPEN, AMEND, READ, CLOSE and RETIRE JOB (R191 to R194, R197) -/

section JobRequests

/-- The record OPEN JOB makes: OPEN, nothing charged, counted or listed (R191). -/
def newJob (number lot quote : Nat) : Job :=
  { number := number, state := .opened, lot := if lot = 0 then none else some lot, quote := quote, stone := 0,
    sawTime := 0, water := 0, blade := 0, sawRemainder := 0, waterRemainder := 0, planned := 0, cut := 0, plans := [],
    waterEstimated := false, overQuote := false }

/-- The total passes a quote, where it is one (R205). -/
def Job.exceeds (quote : Nat) (j : Job) : Bool := decide (0 < quote ∧ quote < j.total)

/-- The quote and the binding replaced, the over-quote flag as the new quote has it (R192). -/
def Job.amended (quote lot : Nat) (j : Job) : Job :=
  { j with quote := quote, lot := if lot = 0 then none else some lot, overQuote := j.exceeds quote }

/-- A listed plan stands in the way of CLOSE JOB: CHECKED, RELEASED or CUTTING (R194). -/
def LivePlan (s : State) (j : Job) : Prop :=
  ∃ p ∈ s.pln.plans, p.number ∈ j.plans ∧ (p.state = .checked ∨ p.state = .released ∨ p.state = .cutting)

variable {s : State} {number lot quote : Nat} {j : Job}

theorem openJob_form (hf : number = 0 ∨ 999999999 < quote) : openJob number lot quote s = refused .form s := if_pos hf

theorem openJob_exists (hn : number ≠ 0) (hq : quote ≤ 999999999) (hj : s.job? number ≠ none) :
    openJob number lot quote s = refused .exists s := by
  simp [openJob, hn, Config.maxCents, Nat.not_lt.2 hq, Option.isSome_iff_ne_none.2 hj]

theorem openJob_full (hn : number ≠ 0) (hq : quote ≤ 999999999) (hj : s.job? number = none)
    (hl : 128 ≤ s.jcu.jobs.length) : openJob number lot quote s = refused .full s := by
  simp [openJob, hn, Config.maxCents, Nat.not_lt.2 hq, hj, Config.maxJobs, hl]

theorem openJob_performed (hn : number ≠ 0) (hq : quote ≤ 999999999) (hj : s.job? number = none)
    (hl : s.jcu.jobs.length < 128) :
    openJob number lot quote s = performed [] (s.withJobs (insertBy Job.number (newJob number lot quote))) := by
  simp [openJob, hn, Config.maxCents, Nat.not_lt.2 hq, hj, Config.maxJobs, Nat.not_le.2 hl, newJob]

/-- Without a record every other job request is answered NONE. -/
theorem jobRequests_none (hn : s.job? number = none) :
    amendJob number quote lot s = refused .none s ∧ readJob number s = refused .none s ∧
      closeJob number s = refused .none s ∧ retireJob number s = refused .none s := by
  simp [amendJob, readJob, closeJob, retireJob, hn]

theorem Job.passesQuote_eq (j : Job) : j.passesQuote = j.exceeds j.quote := (Bool.decide_and ..).symm

variable (hj : s.job? number = some j)
include hj

theorem amendJob_form (hq : 999999999 < quote) : amendJob number quote lot s = refused .form s := by
  simp [amendJob, hj, Config.maxCents, hq]

theorem amendJob_frozen (hq : quote ≤ 999999999) (hc : j.state = .closed) :
    amendJob number quote lot s = refused .frozen s := by
  simp [amendJob, hj, Config.maxCents, Nat.not_lt.2 hq, hc]

theorem amendJob_inUse (hq : quote ≤ 999999999) (hc : j.state ≠ .closed) (hl : lot ≠ j.lot.getD 0) (hp : j.plans ≠ []) :
    amendJob number quote lot s = refused .inUse s := by
  simp [amendJob, hj, Config.maxCents, Nat.not_lt.2 hq, hc, hl, hp]

theorem amendJob_performed (hq : quote ≤ 999999999) (hc : j.state ≠ .closed) (hl : lot = j.lot.getD 0 ∨ j.plans = []) :
    amendJob number quote lot s = performed [.u32 j.total, .u8 (boolCode (j.exceeds quote))]
      ((s.updateJob number fun _ => j.amended quote lot).raiseIf (j.exceeds quote && !j.overQuote) .overQuote) := by
  have hfree : ¬ (lot ≠ j.lot.getD 0 ∧ j.plans ≠ []) := fun ⟨h, h'⟩ => hl.elim h h'
  simp only [amendJob, hj, Config.maxCents, if_neg (Nat.not_lt.2 hq), if_neg hc, if_neg hfree, Job.passesQuote_eq]
  rfl

theorem readJob_performed : readJob number s = performed j.fields s := by simp only [readJob, hj]

theorem closeJob_frozen (hc : j.state = .closed) : closeJob number s = refused .frozen s := by
  simp only [closeJob, hj, if_pos hc]

omit hj in
theorem PlanState.live_iff {x : PlanState} : x.live = true ↔ x = .checked ∨ x = .released ∨ x = .cutting := by
  cases x <;> simp [PlanState.live]

omit hj in
theorem livePlan_iff :
    (s.pln.plans.any fun p => j.plans.contains p.number && p.state.live) = true ↔ LivePlan s j := by
  simp only [List.any_eq_true, Bool.and_eq_true, List.contains_iff_mem, PlanState.live_iff, LivePlan]

theorem closeJob_state (hc : j.state ≠ .closed) (hl : LivePlan s j) : closeJob number s = refused .state s := by
  simp only [closeJob, hj, if_neg hc, if_pos (livePlan_iff.2 hl)]

theorem closeJob_performed (hc : j.state ≠ .closed) (hl : ¬ LivePlan s j) :
    closeJob number s = performed [.u32 j.stone, .u32 j.sawTime, .u32 j.water, .u32 j.blade, .u32 j.total]
      ((s.withPlans (List.map (Plan.cancelDraft j.plans))).updateJob number fun j => { j with state := .closed }) := by
  simp only [closeJob, hj, if_neg hc, if_neg (livePlan_iff.not.2 hl)]

theorem retireJob_state (hc : j.state ≠ .closed) : retireJob number s = refused .state s := by
  simp only [retireJob, hj, if_pos hc]

theorem retireJob_inUse (hc : j.state = .closed) (hp : j.plans ≠ []) : retireJob number s = refused .inUse s := by
  simp [retireJob, hj, hc, hp]

theorem retireJob_performed (hc : j.state = .closed) (hp : j.plans = []) :
    retireJob number s = performed [] (s.withJobs (removeBy Job.number number)) := by
  simp [retireJob, hj, hc, hp]

end JobRequests

/-- A plan looked up after a job was closed: a listed DRAFT is CANCELLED, any other as it was (R58). -/
theorem cancelDraft_plan? (s : State) (listed : List Nat) (n : Nat) :
    (s.withPlans (List.map (Plan.cancelDraft listed))).plan? n = (s.plan? n).map fun p =>
      if n ∈ listed ∧ p.state = .draft then { p with state := .cancelled } else p := by
  have hkey (p : Plan) : (p.cancelDraft listed).number = p.number := by unfold Plan.cancelDraft; split <;> rfl
  refine (findBy_map hkey n s.pln.plans).trans (Option.map_congr fun p hp => ?_)
  obtain rfl := plan?_number (s := s) hp
  simp [Plan.cancelDraft]

/-- The reply to READ JOB with its count and its list of plans (R193). -/
theorem Job.fields_eq (j : Job) :
    j.fields = [.u16 j.number, .u8 j.state.code, .u16 (j.lot.getD 0), .u32 j.quote, .u32 j.stone, .u32 j.sawTime,
        .u32 j.water, .u32 j.blade, .u16 j.sawRemainder, .u16 j.waterRemainder, .u16 j.planned, .u16 j.cut,
        .u8 j.plans.length] ++ (j.plans.map fun n => .u16 n) ++
      [.u8 (boolCode j.waterEstimated), .u8 (boolCode j.overQuote), .u32 j.total] := by
  rw [Job.fields, counted_singleton]
  rfl

/-- A record of a table replaced by one of its number. -/
theorem findBy_replace {α : Type} {key : α → Nat} {r : α} {n : Nat} (h : key r = n) (m : Nat) (xs : List α) :
    findBy key m (updateBy key n (fun _ => r) xs) = if m = n then (findBy key m xs).map fun _ => r else findBy key m xs := by
  induction xs with
  | nil => simp [updateBy]
  | cons x xs ih =>
    have hcons : updateBy key n (fun _ => r) (x :: xs) =
        (if key x = n then r else x) :: updateBy key n (fun _ => r) xs := rfl
    rw [hcons, findBy_cons, findBy_cons, ih]
    by_cases hx : key x = n <;> by_cases hm : m = n <;> by_cases hxm : key x = m <;> simp_all

theorem replaceJob_job? (s : State) {n : Nat} {j : Job} (h : j.number = n) (m : Nat) :
    (s.updateJob n fun _ => j).job? m = if m = n then (s.job? m).map fun _ => j else s.job? m :=
  findBy_replace h m _

theorem raiseIf_job? (s : State) (c : Bool) (x : Notice) (n : Nat) : (s.raiseIf c x).job? n = s.job? n :=
  congrArg (fun u : JobUnit => findBy Job.number n u.jobs) (State.raiseIf_jcu s c x)

/-- A job changed and a notice raised where a flag goes from clear to set: the job table, the notice, and nothing else. -/
theorem updateJob_raiseIf_frame (s : State) (n : Nat) (f : Job → Job) (exceeds flag : Bool) (x : Notice) :
    (s.updateJob n f).raiseIf (exceeds && !flag) x =
      { (if exceeds = true ∧ flag = false then s.raise x else s) with
        jcu := ((s.updateJob n f).raiseIf (exceeds && !flag) x).jcu } := by
  cases exceeds <;> cases flag <;> rfl

/-- What AMEND JOB leaves: the record amended, OVER_QUOTE raised where the flag goes from clear to set (R192, R205). -/
theorem amended_spec {s : State} {number : Nat} {j : Job} (hj : s.job? number = some j) (quote lot : Nat) :
    let t := (s.updateJob number fun _ => j.amended quote lot).raiseIf (j.exceeds quote && !j.overQuote) .overQuote
    t.job? number = some (j.amended quote lot) ∧ (∀ n, n ≠ number → t.job? n = s.job? n) ∧
      t = { (if j.exceeds quote = true ∧ j.overQuote = false then s.raise .overQuote else s) with jcu := t.jcu } := by
  intro t
  have hnumber : (j.amended quote lot).number = number := (job?_number hj :)
  have hlook (n : Nat) : t.job? n = if n = number then (s.job? n).map fun _ => j.amended quote lot else s.job? n :=
    (raiseIf_job? ..).trans (replaceJob_job? s hnumber n)
  exact ⟨(hlook number).trans ((if_pos rfl).trans (congrArg (Option.map _) hj)),
    fun n hne => (hlook n).trans (if_neg hne), updateJob_raiseIf_frame ..⟩

/-- Settles O45: each check by its case lemma; the amended job by `amended_spec`, the plans of a closed one by
`cancelDraft_plan?`. -/
theorem jobRequests : Obligations.JobRequests := by
  intro s number lot quote hs opening amend binding
  have hopen := exec_openJob number lot quote s
  have hamend := exec_amendJob number quote lot s
  have hread := exec_readJob number s
  have hclose := exec_closeJob number s
  have hretire := exec_retireJob number s
  refine ⟨fun hf => hs.refuses hopen (openJob_form hf), fun hn hq hj => hs.refuses hopen (openJob_exists hn hq hj),
    fun hn hq hj hl => hs.refuses hopen (openJob_full hn hq hj hl), fun hn hq hj hl => ?opened, fun hn => ?none,
    fun j hj => ?_⟩
  case opened =>
    have hlook := insert_job? (j := newJob number lot quote) hj
    exact ⟨_, hs.performs hopen (openJob_performed hn hq hj hl), (hlook number).trans (if_pos rfl),
      fun n hne => (hlook n).trans (if_neg hne), rfl⟩
  case none =>
    obtain ⟨h1, h2, h3, h4⟩ := jobRequests_none (quote := quote) (lot := lot) hn
    exact ⟨hs.refuses hamend h1, hs.refuses hread h2, hs.refuses hclose h3, hs.refuses hretire h4⟩
  intro total exceeds live
  refine ⟨fun hq => hs.refuses hamend (amendJob_form hj hq), fun hq hc => hs.refuses hamend (amendJob_frozen hj hq hc),
    fun hq hc hl hp => hs.refuses hamend (amendJob_inUse hj hq hc hl hp), fun hq hc hl => ?amended,
    hs.reports hread ((readJob_performed hj).trans (congrArg (performed · s) j.fields_eq)),
    fun hc => hs.refuses hclose (closeJob_frozen hj hc), fun hc hl => hs.refuses hclose (closeJob_state hj hc hl),
    fun hc hl => ?closed, fun hc => hs.refuses hretire (retireJob_state hj hc),
    fun hc hp => hs.refuses hretire (retireJob_inUse hj hc hp), fun hc hp => ?retired⟩
  case amended =>
    obtain ⟨hlook, hothers, hframe⟩ := amended_spec hj quote lot
    exact ⟨_, hs.performs hamend (amendJob_performed hj hq hc hl), hlook, hothers,
      congrArg (fun u : State => u.answered Kind.amendJob .ok [.u32 total, .u8 (boolCode exceeds)]) hframe⟩
  case closed =>
    have hjob := updateJob_job?_self (s.withPlans (List.map (Plan.cancelDraft j.plans))) number
      fun j => { j with state := .closed }
    exact ⟨_, hs.performs hclose (closeJob_performed hj hc hl), hjob.trans (congrArg (Option.map _) hj),
      fun n hne => updateJob_job?_ne (s.withPlans _) _ hne, cancelDraft_plan? s j.plans, rfl⟩
  case retired =>
    have hlook := remove_job? s number
    exact ⟨_, hs.performs hretire (retireJob_performed hj hc hp), (hlook number).trans (if_pos rfl),
      fun n hne => (hlook n).trans (if_neg hne), rfl⟩

end Sys2Proof.Machine
end

section
/-! PROOFS. The saw's messages of a plan (03_cut_plans.md, 05_saw_links_and_pass_dispatch.md): a slab put on the saw, the
completion chain, what the passes of other saws leave of a saw and its plan, the strips a DONE finishes, and the three
statements about them. -/

namespace Sys2Proof.Machine

/-! ## States block by block -/

/-- Two states with the same ten blocks are one. -/
theorem State.ext_blocks {s t : State} (stk : s.stk = t.stk) (pln : s.pln = t.pln) (sdp : s.sdp = t.sdp)
    (bld : s.bld = t.bld) (pmn : s.pmn = t.pmn) (wau : s.wau = t.wau) (jcu : s.jcu = t.jcu) (olc : s.olc = t.olc)
    (rsv : s.rsv = t.rsv) (pending : s.pending = t.pending) : s = t := by
  cases s; cases t
  simp only at *
  subst stk pln sdp bld pmn wau jcu olc rsv pending
  rfl

theorem plan?_congr {s t : State} (h : t.pln = s.pln) (n : Nat) : t.plan? n = s.plan? n :=
  congrArg (fun x : PlanStore => findBy Plan.number n x.plans) h

theorem job?_congr {s t : State} (h : t.jcu = s.jcu) (n : Nat) : t.job? n = s.job? n :=
  congrArg (fun x : JobUnit => findBy Job.number n x.jobs) h

theorem slab?_congr {s t : State} (h : t.stk = s.stk) (n : Nat) : t.slab? n = s.slab? n :=
  congrArg (fun x : Stock => findBy Slab.number n x.slabs) h

theorem Four.set_set {α : Type} (f : Four α) (w : Saw) (a b : α) : (f.set w a).set w b = f.set w b := by cases w <;> rfl

/-! ## LOADED (R62, R94) -/

section Loaded

theorem exec_loaded (w : Saw) (plan : Nat) (s : State) :
    exec (.loaded w plan) s = sawMessage w Kind.loaded (checkLoaded w plan) (loaded w plan) s := rfl

/-- A slab taken off its place, its mark off without being verified, and its record changed (R20, R37). -/
theorem offRack_spec {s : State} {n : Nat} {r : Slab} (hr : s.slab? n = some r) (f : Slab → Slab)
    (hk : ∀ x, (f x).number = x.number := by intro; rfl) :
    let t := ((s.setPlace n none).leaveAudit n).updateSlab n f
    (∀ m, t.slab? m = if m = n then some (f { r with place := none, mark := false }) else s.slab? m) ∧
    (∀ p, t.rackAt? p = if r.place = some p then none else s.rackAt? p) ∧
    t = { s with stk := { s.stk with slabs := t.stk.slabs, rackMap := t.stk.rackMap,
                                     audit := if r.mark then { s.stk.audit with marked := s.stk.audit.marked - 1 }
                                       else s.stk.audit } } := by
  intro t
  obtain ⟨placed_slab, placed_rack, placed_frame⟩ := setPlace_spec hr none
  have hplaced := (placed_slab n).trans (if_pos rfl)
  obtain ⟨left_slab, left_frame⟩ := unmark_spec hplaced 0
  have hleft := (left_slab n).trans (if_pos rfl)
  have hlook := updateSlab_slab?_of_some hleft f hk
  refine ⟨fun m => (hlook m).trans ?_, fun p => ?_, ?_⟩
  · by_cases hm : m = n
    · rw [if_pos hm, if_pos hm]
    · rw [if_neg hm, if_neg hm, left_slab, if_neg hm, placed_slab, if_neg hm]
  · calc t.rackAt? p
      _ = ((s.setPlace n none).unmark n 0).rackAt? p := rfl
      _ = (s.setPlace n none).rackAt? p := by rw [left_frame]; rfl
      _ = if r.place = some p then none else s.rackAt? p := by rw [placed_rack, if_neg nofun]
  · have hframe : t = ((s.setPlace n none).unmark n 0).updateSlab n f := rfl
    rw [hframe, left_frame]
    simp only [State.updateSlab, State.withSlabs]
    rw [placed_frame]
    rfl

variable {s : State} {w : Saw} {plan : Nat} {p : Plan} {r : Slab}

theorem checkLoaded_stale (h : (s.saw w).pendingLoad ≠ some plan) : checkLoaded w plan s = some .stale := if_pos h

variable (hload : (s.saw w).pendingLoad = some plan)
include hload

theorem checkLoaded_state (h : (s.saw w).state ≠ .loading) : checkLoaded w plan s = some .state :=
  (if_neg (not_not.2 hload)).trans (if_pos h)

theorem checkLoaded_taken (h : (s.saw w).state = .loading) : checkLoaded w plan s = none :=
  (if_neg (not_not.2 hload)).trans (if_neg (not_not.2 h))

omit hload in
/-- The checks read nothing a heartbeat touches. -/
theorem checkLoaded_sawFrame (s : State) (w : Saw) (plan : Nat) :
    checkLoaded w plan (s.sawFrame w) = checkLoaded w plan s := by
  simp only [checkLoaded, State.sawFrame, State.saw_updateSaw_same]

omit hload

theorem reportLoad_cutting (hp : s.plan? plan = some p) (hc : p.state = .cutting) : s.reportLoad plan = s := by
  simp only [State.reportLoad, hp, hc]

theorem reportLoad_released (hp : s.plan? plan = some p) (hc : p.state = .released) :
    s.reportLoad plan = (s.updatePlan plan fun p => { p with state := .cutting }).putOnSaw p.slab := by
  simp only [State.reportLoad, hp, hc]

theorem putOnSaw_reserved {n : Nat} (hr : s.slab? n = some r) (ha : r.state = .reserved) :
    s.putOnSaw n = ((s.setPlace n none).leaveAudit n).updateSlab n fun r =>
      { r with state := .onSaw, missing := false } := by
  simp [State.putOnSaw, hr, ha]

end Loaded

/-- Settles O23: the load of a RELEASED plan by `offRack_spec`; the window is filled by two refills. -/
theorem loadedTaken : Obligations.LoadedTaken := by
  intro s w plan hs i u filled
  have refused {st : Status} (h : checkLoaded w plan s = some st) : exec i s = .next (s.acked w Kind.loaded st) :=
    (exec_loaded w plan s).trans (sawMessage_refused hs Kind.loaded ((checkLoaded_sawFrame s w plan).trans h) _)
  have taken (h : checkLoaded w plan s = none) : exec i s = .next (filled (u.reportLoad plan)) :=
    (exec_loaded w plan s).trans (sawMessage_taken hs Kind.loaded ((checkLoaded_sawFrame s w plan).trans h) _)
  refine ⟨fun h => refused (checkLoaded_stale h), fun hl h => refused (checkLoaded_state hl h), fun p hl hst hp => ?_⟩
  have hexec := taken (checkLoaded_taken hl hst)
  refine ⟨fun hc => hexec.trans (by rw [reportLoad_cutting (s := u) hp hc]), fun r hc hr ha => ?_⟩
  have hload : u.reportLoad plan = _ := (reportLoad_released (s := u) hp hc).trans (putOnSaw_reserved (r := r) hr ha)
  obtain ⟨hlook, hrack, hframe⟩ := offRack_spec (s := u.updatePlan plan fun p => { p with state := .cutting }) hr
    fun r => { r with state := .onSaw, missing := false }
  rw [← hload] at hlook hrack hframe
  have hpln : (u.reportLoad plan).pln = (u.updatePlan plan fun p => { p with state := .cutting }).pln := by rw [hframe]
  have hplan (n : Nat) : (u.reportLoad plan).plan? n = (s.updatePlan plan fun p => { p with state := .cutting }).plan? n :=
    plan?_congr hpln n
  refine ⟨u.reportLoad plan, ?_, fun n hne => ?_, (hlook p.slab).trans (if_pos rfl),
    fun n hne => (hlook n).trans (if_neg hne), hrack, ?_, hexec⟩
  · exact (hplan plan).trans ((updatePlan_plan?_self ..).trans (congrArg (Option.map _) hp))
  · exact (hplan n).trans (updatePlan_plan?_ne s _ hne)
  · rw [hpln]
    exact hframe

/-! ## The completion chain (R64, R65, R97) -/

section CompletionChain

/-- Two states carry the same jobs, notices and supplies: all that a charge or a notice reads or writes. -/
structure SameBooks (s t : State) : Prop where
  jcu : t.jcu = s.jcu
  olc : t.olc = s.olc
  rsv : t.rsv = s.rsv

theorem SameBooks.trans {s t u : State} (h : SameBooks s t) (k : SameBooks t u) : SameBooks s u :=
  ⟨k.jcu.trans h.jcu, k.olc.trans h.olc, k.rsv.trans h.rsv⟩

theorem SameBooks.raise {s t : State} (h : SameBooks s t) (x : Notice) : SameBooks (s.raise x) (t.raise x) where
  jcu := h.jcu
  olc := by simp only [State.raise, State.settleAttn, State.running, h.olc, h.rsv]
  rsv := h.rsv

theorem SameBooks.raiseIf {s t : State} (h : SameBooks s t) (c : Bool) (x : Notice) :
    SameBooks (s.raiseIf c x) (t.raiseIf c x) := by
  cases c
  · exact h
  · exact h.raise x

theorem SameBooks.updateJob {s t : State} (h : SameBooks s t) (n : Nat) (f : Job → Job) :
    SameBooks (s.updateJob n f) (t.updateJob n f) where
  jcu := by simp only [State.updateJob, State.withJobs, h.jcu]
  olc := h.olc
  rsv := h.rsv

theorem SameBooks.charge {s t : State} (h : SameBooks s t) (n : Nat) (f : Job → Job) :
    SameBooks (s.charge n f) (t.charge n f) := by
  have hjob : t.job? n = s.job? n := job?_congr h.jcu n
  unfold State.charge
  rw [hjob]
  split
  · exact h
  · exact (h.updateJob ..).raiseIf ..

/-- The remnant made, if any, and the state with it on record. -/
def State.remnantMade (s : State) (slab : Nat) (d : Derived) : Option Nat × State :=
  d.remnant.elim (none, s) fun part => s.createRemnant slab part

/-- A remnant made, its number and the stock, are the same whatever the plans hold. -/
theorem createRemnant_stk {s t : State} (h : t.stk = s.stk) (n : Nat) (part : RemnantPart) :
    (t.createRemnant n part).1 = (s.createRemnant n part).1 ∧
      (t.createRemnant n part).2.stk = (s.createRemnant n part).2.stk := by
  have hslab : t.slab? n = s.slab? n := slab?_congr h n
  simp only [State.createRemnant, hslab, h]
  split
  · exact ⟨rfl, h⟩
  · split
    · exact ⟨rfl, h⟩
    · exact ⟨rfl, by simp only [State.withSlabs, h]⟩

theorem remnantMade_stk {s t : State} (h : t.stk = s.stk) (n : Nat) (d : Derived) :
    (t.remnantMade n d).1 = (s.remnantMade n d).1 ∧ (t.remnantMade n d).2.stk = (s.remnantMade n d).2.stk := by
  unfold State.remnantMade
  cases d.remnant with
  | none => exact ⟨rfl, h⟩
  | some part => exact createRemnant_stk h n part

/-- The stone charge at the end of a plan: the whole basis where a remnant was derived and not made (R65). -/
def stoneOf (d : Derived) (made : Option Nat) : Nat :=
  if d.remnant.isSome ∧ made = none then d.basisAtCheck else d.stoneCharge

/-- The notices at the end of a plan (R64). -/
def State.raiseDone (s : State) (d : Derived) (made : Option Nat) : State :=
  if made.isSome then (s.raise .planDone).raise .remnantMade
  else if d.remnant.isSome then (s.raise .planDone).raise .stockFull else s.raise .planDone

/-- The number given to the remnant, in the plan's record. -/
def Plan.given (made : Option Nat) (p : Plan) : Plan :=
  { p with remnantGiven := if made.isSome then made else p.remnantGiven }

theorem SameBooks.raiseDone {s t : State} (h : SameBooks s t) (d : Derived) (made : Option Nat) :
    SameBooks (s.raiseDone d made) (t.raiseDone d made) := by
  unfold State.raiseDone
  split
  · exact (h.raise _).raise _
  · split
    · exact (h.raise _).raise _
    · exact h.raise _

theorem State.raiseDone_jcu (s : State) (d : Derived) (made : Option Nat) : (s.raiseDone d made).jcu = s.jcu := by
  unfold State.raiseDone
  split
  · rfl
  · split <;> rfl

/-- Steps 3 to 5 of the completion chain: the stock of the remnant made, the number in the plan's record, the stone charge
and the notices. -/
theorem settleRemnant_spec (s : State) (p : Plan) (d : Derived) :
    let made := s.remnantMade p.slab d
    (s.settleRemnant p d).stk = made.2.stk ∧
    (∀ n, (s.settleRemnant p d).plan? n = if n = p.number then (s.plan? n).map (Plan.given made.1) else s.plan? n) ∧
    SameBooks ((s.charge p.job (Job.chargeStone (stoneOf d made.1))).raiseDone d made.1) (s.settleRemnant p d) := by
  have hsame (n : Nat) : s.plan? n = if n = p.number then (s.plan? n).map (Plan.given none) else s.plan? n := by
    rw [show Plan.given none = id from rfl, Option.map_id, id_eq, ite_self]
  cases hd : d.remnant with
  | none =>
    simp only [State.settleRemnant, State.remnantMade, State.raiseDone, stoneOf, hd, Option.elim_none]
    refine ⟨by simp, fun n => ?_, ⟨rfl, rfl, rfl⟩⟩
    exact (plan?_congr (by simp) n).trans (hsame n)
  | some part =>
    simp only [State.settleRemnant, State.remnantMade, State.raiseDone, stoneOf, hd, Option.elim_some]
    have hpln := State.createRemnant_pln s p.slab part
    have hbooks : SameBooks s (s.createRemnant p.slab part).2 := ⟨by simp, by simp, by simp⟩
    cases hm : (s.createRemnant p.slab part).1 with
    | none =>
      refine ⟨by simp, fun n => ?_, ((hbooks.charge ..).raise _).raise _⟩
      exact (plan?_congr (by simp) n).trans (hsame n)
    | some m =>
      have hbooks' : SameBooks s ((s.createRemnant p.slab part).2.updatePlan p.number (Plan.given (some m))) :=
        ⟨hbooks.jcu, hbooks.olc, hbooks.rsv⟩
      refine ⟨by simp, fun n => ?_, ((hbooks'.charge ..).raise _).raise _⟩
      have hplan := updatePlan_plan? (s.createRemnant p.slab part).2 p.number (Plan.given (some m)) n
      rw [plan?_congr hpln] at hplan
      exact (plan?_congr (by simp; rfl) n).trans hplan

theorem unload_up {s : State} {w : Saw} (hup : (s.saw w).link = .up) (n : Nat) :
    s.unload w n = (s.send w ⟨Kind.unload, none, [.u16 n]⟩).updateSaw w fun r =>
      { r with pendingLoad := if r.pendingLoad = some n then none else r.pendingLoad } := by
  simp only [State.unload, hup]

/-- A plan leaves an UP saw without a pending load: the queue, IDLE and UNLOAD (R49, R95, R97), before the next head is
loaded. -/
theorem leaveSaw_sdp {s : State} {w : Saw} (hup : (s.saw w).link = .up) (hl : (s.saw w).pendingLoad = none) (n : Nat) :
    (((s.leaveQueue w n).unload w n).setSawState w .idle).sdp = { s.sdp with
      saws := s.sdp.saws.set w { s.saw w with queue := (s.saw w).queue.filter (fun m => m != n), state := .idle },
      queued := s.sdp.queued.set w (s.sdp.queued.get w ++ [⟨Kind.unload, none, [.u16 n]⟩]) } := by
  have hleft := State.saw_updateSaw_same s w fun r => { r with queue := r.queue.filter fun m => m != n }
  have hup' : ((s.leaveQueue w n).saw w).link = .up := (congrArg SawRec.link hleft).trans hup
  have hl' : (s.sdp.saws.get w).pendingLoad = none := hl
  rw [unload_up hup']
  simp [State.setSawState, State.leaveQueue, State.updateSaw, State.send, Four.set_set, State.saw, hl']

/-- The records at the end of a plan, before the remnant: the plan DONE, its slab consumed. -/
def State.planConsumed (s : State) (p : Plan) : State :=
  (s.updatePlan p.number fun p => { p with state := .done }).consume p.slab

/-- The end of a plan up to the loading of the next head. -/
def State.planLeft (s : State) (w : Saw) (p : Plan) (d : Derived) : State :=
  (((((s.planConsumed p).settleRemnant p d).leaveQueue w p.number).unload w p.number).setSawState w .idle)

variable {s : State} {w : Saw} {p : Plan} {d : Derived}

theorem complete_eq_planLeft (hd : p.derived = some d) : s.complete w p = (s.planLeft w p d).loadHead w := by
  simp only [State.complete, hd]
  rfl

theorem planLeft_plan? (n : Nat) : (s.planLeft w p d).plan? n =
    if n = p.number then (s.plan? n).map fun q =>
      { q.given ((s.planConsumed p).remnantMade p.slab d).1 with state := .done, saw := none }
    else s.plan? n := by
  have hpln : (s.planLeft w p d).pln = (((s.planConsumed p).settleRemnant p d).leaveQueue w p.number).pln := by
    simp [State.planLeft]
  have hleft := updatePlan_plan? ((s.planConsumed p).settleRemnant p d) p.number (fun q => { q with saw := none }) n
  have hdone := updatePlan_plan? s p.number (fun q => { q with state := .done }) n
  have hgiven := (settleRemnant_spec (s.planConsumed p) p d).2.1 n
  refine (plan?_congr hpln n).trans (hleft.trans ?_)
  rw [hgiven, show (s.planConsumed p).plan? n = _ from hdone]
  split
  · rw [Option.map_map, Option.map_map]; rfl
  · rfl

/-- The jobs and the notices at the end of a plan are those of the charge and the notices made on the state before. -/
theorem planLeft_books : SameBooks
    ((s.charge p.job (Job.chargeStone (stoneOf d ((s.planConsumed p).remnantMade p.slab d).1))).raiseDone d
      ((s.planConsumed p).remnantMade p.slab d).1) (s.planLeft w p d) := by
  have hconsumed : SameBooks s (s.planConsumed p) := ⟨rfl, rfl, rfl⟩
  have hleft : SameBooks ((s.planConsumed p).settleRemnant p d) (s.planLeft w p d) :=
    ⟨by simp [State.planLeft], by simp [State.planLeft], by simp [State.planLeft]⟩
  exact (((hconsumed.charge ..).raiseDone ..).trans (settleRemnant_spec (s.planConsumed p) p d).2.2).trans hleft

theorem planLeft_stk : (s.planLeft w p d).stk = ((s.planConsumed p).remnantMade p.slab d).2.stk :=
  Eq.trans (by simp [State.planLeft]) (settleRemnant_spec (s.planConsumed p) p d).1

end CompletionChain

/-- Settles O27: the remnant by `settleRemnant_spec`, the saw by `leaveSaw_sdp`; the charge and the notices are those of the
state before, whose books the plan and the slab leave alone. -/
theorem completionChain : Obligations.CompletionChain := by
  intro s w p r d hp hr hd hup hl consumed made stone charged
  obtain ⟨hnumber, hstk⟩ : ((s.planConsumed p).remnantMade p.slab d).1 = made.1 ∧
      ((s.planConsumed p).remnantMade p.slab d).2.stk = made.2.stk :=
    remnantMade_stk (s := consumed) (t := s.planConsumed p) rfl p.slab d
  have hplan := planLeft_plan? (s := s) (w := w) (p := p) (d := d)
  have hbooks := planLeft_books (s := s) (w := w) (p := p) (d := d)
  rw [hnumber] at hplan hbooks
  have hsdp : ((s.planConsumed p).settleRemnant p d).sdp = s.sdp := by simp [State.planConsumed]
  refine ⟨s.planLeft w p d, complete_eq_planLeft hd,
    (hplan p.number).trans ((if_pos rfl).trans (congrArg (Option.map _) hp)),
    fun n hne => (hplan n).trans (if_neg hne), ?sdp, ?frame⟩
  case sdp =>
    have hsaw : ((s.planConsumed p).settleRemnant p d).saw w = s.saw w :=
      congrArg (fun x : Dispatcher => x.saws.get w) hsdp
    have hleft := leaveSaw_sdp (hsaw.symm ▸ hup) (hsaw.symm ▸ hl) p.number
    rw [hsaw, hsdp] at hleft
    exact hleft
  case frame =>
    refine State.ext_blocks (planLeft_stk.trans hstk) rfl rfl ?_ ?_ ?_ (hbooks.jcu.trans (State.raiseDone_jcu ..)) hbooks.olc
      ?_ ?_ <;> simp [State.planLeft, State.planConsumed]

/-! ## What the passes of other saws leave of a saw and its plan (R178)

An admission pass moves saws of the line alone, each with its own head plan. So it leaves a saw that stands in no line as it
is, and with it the plan at the head of that saw's queue, which heads no other queue. -/

section OtherSaws

/-- The pieces cut of every job stay. -/
def CutsKept (s t : State) : Prop := ∀ m, (t.job? m).map Job.cut = (s.job? m).map Job.cut

theorem CutsKept.trans {s t u : State} (h : CutsKept s t) (k : CutsKept t u) : CutsKept s u := fun m => (k m).trans (h m)

theorem CutsKept.of_jcu {s t : State} (h : t.jcu = s.jcu) : CutsKept s t := fun m => by rw [job?_congr h]

/-- A charge touches money alone: not the number of the job, nor its pieces cut. -/
def MoneyOnly (f : Job → Job) : Prop := ∀ j, (f j).number = j.number ∧ (f j).cut = j.cut

theorem CutsKept.charge (s : State) (n : Nat) {f : Job → Job} (hf : MoneyOnly f) : CutsKept s (s.charge n f) := by
  intro m
  unfold State.charge
  split
  · rfl
  · next j hj =>
    obtain ⟨hnumber, hcut⟩ := hf j
    dsimp only
    rw [raiseIf_job?]
    refine (congrArg (Option.map Job.cut) (replaceJob_job? s ?number m)).trans ?_
    case number => exact hnumber.trans (job?_number hj)
    split
    · next hm => subst hm; rw [hj]; exact congrArg some hcut
    · rfl

theorem CutsKept.chargeHead (s : State) (v : Saw) {f : Job → Job} (hf : MoneyOnly f) : CutsKept s (s.chargeHead v f) := by
  unfold State.chargeHead
  split
  · exact .charge s _ hf
  · exact fun _ => rfl

theorem CutsKept.chargeWear (s : State) (v : Saw) (p : Nat) : CutsKept s (s.chargeWear v p) := by
  unfold State.chargeWear
  split
  · exact .trans (.of_jcu (by simp)) (.chargeHead _ v fun _ => ⟨rfl, rfl⟩)
  · exact fun _ => rfl

theorem CutsKept.closeSegment (s : State) (v : Saw) (p : Nat) : CutsKept s (s.closeSegment v p) := by
  unfold State.closeSegment
  dsimp only
  refine .trans ?_ (.of_jcu rfl)
  refine .trans ?_ (.chargeHead _ v fun _ => ⟨rfl, rfl⟩)
  refine .trans ?_ (.chargeHead _ v fun _ => ⟨rfl, rfl⟩)
  exact .trans (.chargeWear s v _) (.of_jcu rfl)

/-- A saw other than `w`, whose queue is not headed by the plan `n`. -/
structure Apart (w : Saw) (n : Nat) (s : State) (v : Saw) : Prop where
  ne : v ≠ w
  head : (s.saw v).queue.head? ≠ some n

/-- Every saw in the line is apart. -/
def LineApart (w : Saw) (n : Nat) (s : State) : Prop := ∀ e ∈ s.wau.line, Apart w n s e.saw

/-- The saw, the plan and the pieces cut stay; the line gains nobody and the queues stay. -/
structure Unmoved (w : Saw) (n : Nat) (s t : State) : Prop where
  saw : t.saw w = s.saw w
  plan : t.plan? n = s.plan? n
  cut : CutsKept s t
  line : ∀ e ∈ t.wau.line, e ∈ s.wau.line
  queue : ∀ v, (t.saw v).queue = (s.saw v).queue

variable {w v : Saw} {n : Nat} {s t u : State}

theorem Unmoved.refl (w : Saw) (n : Nat) (s : State) : Unmoved w n s s := ⟨rfl, rfl, fun _ => rfl, fun _ h => h, fun _ => rfl⟩

theorem Unmoved.trans (h : Unmoved w n s t) (k : Unmoved w n t u) : Unmoved w n s u :=
  ⟨k.saw.trans h.saw, k.plan.trans h.plan, h.cut.trans k.cut, fun e he => h.line e (k.line e he),
    fun v => (k.queue v).trans (h.queue v)⟩

theorem Unmoved.apart (h : Unmoved w n s t) (ha : Apart w n s v) : Apart w n t v :=
  ⟨ha.ne, by rw [h.queue v]; exact ha.head⟩

theorem Unmoved.lineApart (h : Unmoved w n s t) (ha : LineApart w n s) : LineApart w n t :=
  fun e he => h.apart (ha e (h.line e he))

theorem headPlan?_some {p : Plan} (h : s.headPlan? v = some p) :
    (s.saw v).queue.head? = some p.number ∧ s.plan? p.number = some p := by
  unfold State.headPlan? at h
  split at h
  · next m ms hq =>
    obtain rfl := plan?_number h
    exact ⟨by rw [hq]; rfl, h⟩
  · cases h

theorem activePass?_some {p : Plan} {q : Pass} (h : s.activePass? v = some (p, q)) :
    s.headPlan? v = some p ∧ p.activePass? = some q := by
  unfold State.activePass? at h
  split at h
  · next p' hp =>
    obtain ⟨q', hq, heq⟩ := Option.map_eq_some_iff.1 h
    cases heq
    exact ⟨hp, hq⟩
  · cases h

/-- The head plan of a saw apart is another plan. -/
theorem Apart.plan_ne (h : Apart w n s v) {p : Plan} (hp : s.headPlan? v = some p) : n ≠ p.number := fun e =>
  h.head (e ▸ (headPlan?_some hp).1)

/-- What is done for a saw apart leaves the saw and the plan. -/
structure Spares (w : Saw) (n : Nat) (v : Saw) (s t : State) : Prop where
  unmoved : Apart w n s v → Unmoved w n s t

theorem Spares.refl (s : State) : Spares w n v s s := ⟨fun _ => .refl w n s⟩

theorem Spares.trans (h : Spares w n v s t) (k : Spares w n v t u) : Spares w n v s u where
  unmoved ha := (h.unmoved ha).trans (k.unmoved ((h.unmoved ha).apart ha))

/-! ### The plain updates -/

theorem Spares.updateSaw (s : State) {f : SawRec → SawRec} (hf : ∀ r, (f r).queue = r.queue := by intro; rfl) :
    Spares w n v s (s.updateSaw v f) where
  unmoved ha := ⟨State.saw_updateSaw_ne s f ha.ne.symm, rfl, fun _ => rfl, fun _ h => h, fun x => by
    rw [State.saw_updateSaw]
    split
    · next hx => rw [hf, hx]
    · rfl⟩

theorem Spares.updatePlan (s : State) {m : Nat} (hm : n ≠ m) (f : Plan → Plan)
    (hk : ∀ x, (f x).number = x.number := by intro; rfl) : Spares w n v s (s.updatePlan m f) where
  unmoved _ := ⟨rfl, updatePlan_plan?_ne s f hm hk, fun _ => rfl, fun _ h => h, fun _ => rfl⟩

theorem Spares.updatePass (s : State) {m : Nat} (hm : n ≠ m) (i : Nat) (f : Pass → Pass) :
    Spares w n v s (s.updatePass m i f) := Spares.updatePlan s hm _

/-- The saws and the plans untouched, the line no longer, the pieces cut kept. -/
theorem Spares.of_blocks (hsaws : t.sdp.saws = s.sdp.saws) (hpln : t.pln = s.pln) (hcut : CutsKept s t)
    (hline : ∀ e ∈ t.wau.line, e ∈ s.wau.line) : Spares w n v s t where
  unmoved _ :=
    have hsaw (x : Saw) : t.saw x = s.saw x := congrArg (fun f : Four SawRec => f.get x) hsaws
    ⟨hsaw w, plan?_congr hpln n, hcut, hline, fun x => congrArg SawRec.queue (hsaw x)⟩

theorem Spares.send (s : State) (x : Saw) (f : Frame) : Spares w n v s (s.send x f) :=
  .of_blocks rfl rfl (fun _ => rfl) fun _ h => h

theorem Spares.withWau (s : State) {f : Admission → Admission} (hf : ∀ e ∈ (f s.wau).line, e ∈ s.wau.line) :
    Spares w n v s (s.withWau f) := .of_blocks rfl rfl (fun _ => rfl) hf

theorem Spares.raise (s : State) (x : Notice) : Spares w n v s (s.raise x) :=
  .of_blocks rfl rfl (fun _ => rfl) fun _ h => h

/-! ### The shared operations of a cut -/

theorem Spares.reportReached (s : State) (p : Nat) : Spares w n v s (s.reportReached v p) := by
  unfold State.reportReached
  split
  · next p q hp => exact ⟨fun ha => (Spares.updatePass s (ha.plan_ne (activePass?_some hp).1) ..).unmoved ha⟩
  · exact .refl s

theorem Spares.stagePass (s : State) : Spares w n v s (s.stagePass v) := by
  unfold State.stagePass
  split
  · exact .refl s
  · next p hp =>
    split
    · exact .refl s
    · refine ⟨fun ha => Spares.unmoved (Spares.trans ?_ (.updatePass _ (ha.plan_ne hp) ..)) ha⟩
      exact .trans (.updateSaw s) (.send ..)

theorem Spares.refill (s : State) : Spares w n v s (s.refill v) := by
  unfold State.refill
  split
  · exact .stagePass s
  · exact .refl s

theorem Spares.openSegment (s : State) : Spares w n v s (s.openSegment v) := by
  unfold State.openSegment
  exact .updateSaw s

theorem Spares.chargeHead (s : State) {f : Job → Job} (hf : MoneyOnly f) : Spares w n v s (s.chargeHead v f) :=
  .of_blocks (by simp) (by simp) (.chargeHead s v hf) (by simp)

theorem Spares.chargeWear (s : State) (p : Nat) : Spares w n v s (s.chargeWear v p) :=
  .of_blocks (by simp) (by simp) (.chargeWear s v p) (by simp)

theorem Spares.closeSegment (s : State) (p : Nat) : Spares w n v s (s.closeSegment v p) := by
  unfold State.closeSegment
  dsimp only
  refine .trans ?_ (.updateSaw _)
  refine .trans ?_ (.chargeHead _ fun _ => ⟨rfl, rfl⟩)
  refine .trans ?_ (.chargeHead _ fun _ => ⟨rfl, rfl⟩)
  exact .trans (.chargeWear s _) (.updateSaw _)

theorem Spares.grantGo (s : State) : Spares w n v s (s.grantGo v) := by
  unfold State.grantGo
  dsimp only
  refine .trans (.trans (.trans ?_ (.updateSaw _)) (.openSegment _)) (.updateSaw _)
  split
  · next o os p _ hp => exact ⟨fun ha => ((Spares.send s v _).trans (.updatePass _ (ha.plan_ne hp) ..)).unmoved ha⟩
  · exact .refl s

theorem Spares.sendResume (s : State) (p : Plan) (q : Pass) : Spares w n v s (s.sendResume v p q) := by
  unfold State.sendResume State.tagActive
  dsimp only
  refine .trans ?_ (.send ..)
  split
  · exact .refl s
  · dsimp only
    exact .updateSaw s

theorem Spares.resumeCut (s : State) : Spares w n v s (s.resumeCut v) := by
  unfold State.resumeCut
  dsimp only
  refine .trans (.trans (.trans (.trans ?_ (.openSegment _)) (.refill _)) (.updateSaw _))
    (.updateSaw _)
  split
  · exact .sendResume s ..
  · exact .refl s

theorem Spares.enterCut (s : State) : Spares w n v s (s.enterCut v) := by
  unfold State.enterCut
  split
  · exact .resumeCut s
  · exact .grantGo s

theorem Spares.faultBlade (s : State) (c : Cause) : Spares w n v s (s.faultBlade v c) :=
  .of_blocks (by simp) (by simp) (.of_jcu (by simp)) (by simp)

/-! ### Admission passes -/

/-- A pass leaves the saw and the plan when every saw of the line is apart. -/
def SparingPass (w : Saw) (n : Nat) (pass : State → State) : Prop := ∀ s, LineApart w n s → Unmoved w n s (pass s)

variable {pass : State → State}

theorem Unmoved.leaveWater (hp : SparingPass w n pass) (hl : LineApart w n s) (ha : Apart w n s v) :
    Unmoved w n s (s.leaveWater pass v) := by
  unfold State.leaveWater
  split
  · have hrelease : Unmoved w n s (s.withWau (Admission.release v)) := (Spares.withWau s fun _ h => h).unmoved ha
    exact hrelease.trans (hp _ (hrelease.lineApart hl))
  · exact (Spares.withWau s fun _ h => h).unmoved ha
  · exact .refl w n s

theorem Unmoved.faultInCut (hp : SparingPass w n pass) (hl : LineApart w n s) (ha : Apart w n s v) (p : Nat) (c : Cause) :
    Unmoved w n s (s.faultInCut pass v p c) := by
  have hclosed : Unmoved w n s (((s.updateSaw v fun r => { r with holdTimer := none }).reportReached v p).closeSegment v p) :=
    (Spares.trans (.trans (.updateSaw s) (.reportReached _ p)) (.closeSegment _ p)).unmoved ha
  have hleft := hclosed.trans (Unmoved.leaveWater hp (hclosed.lineApart hl) (hclosed.apart ha))
  refine hleft.trans (Spares.unmoved ?_ (hleft.apart ha))
  exact .trans (.trans (.trans (.faultBlade _ c) (.updateSaw _)) (.updateSaw _)) (.raise _ _)

theorem Unmoved.settleInterlock (hp : SparingPass w n pass) (hl : LineApart w n s) (ha : Apart w n s v) :
    Unmoved w n s (s.settleInterlock pass v) := by
  unfold State.settleInterlock
  split
  · exact .refl w n s
  · exact .faultInCut hp hl ha ..

theorem admissionPass_spares (w : Saw) (n k : Nat) : SparingPass w n (admissionPass k) := by
  induction k with
  | zero => exact fun s _ => .refl w n s
  | succ k ih =>
    intro s hl
    unfold admissionPass
    split
    · exact .refl w n s
    · next e es he =>
      split
      · have ha : Apart w n s e.saw := hl e (he ▸ .head _)
        have hentered : Unmoved w n s (((s.withWau fun a => { a with line := es }).admitSaw e.saw).enterCut e.saw) :=
          (Spares.trans (.trans (.withWau s fun x hx => he ▸ .tail _ hx) (.withWau _ fun _ h => h)) (.enterCut _)).unmoved ha
        have hsettled := hentered.trans (.settleInterlock ih (hentered.lineApart hl) (hentered.apart ha))
        exact hsettled.trans (ih _ (hsettled.lineApart hl))
      · exact .refl w n s

/-- The water a stopped saw gives up, with its admission pass, leaves the saw and its head plan (R180, R182). -/
theorem waterGivenUp_unmoved (hl : LineApart w n s) : Unmoved w n s (s.waterGivenUp w) := by
  unfold State.waterGivenUp
  split
  · have hreleased : Unmoved w n s (s.withWau (Admission.release w)) :=
      ⟨rfl, rfl, fun _ => rfl, fun _ h => h, fun _ => rfl⟩
    exact hreleased.trans (admissionPass_spares w n _ _ (hreleased.lineApart hl))
  · exact ⟨rfl, rfl, fun _ => rfl, fun _ h => h, fun _ => rfl⟩

end OtherSaws

/-! ## The strips a DONE finishes (R63) -/

section Strips

variable {passes : List Pass}

/-- A strip is cut when every rip pass is DONE and every cross pass of the strip is: the model's test, in the words of R63. -/
theorem stripCut_eq (passes : List Pass) (strip : Nat) :
    stripCut passes strip = passes.all fun x => x.state == .done || !(x.kind == .rip || x.strip == strip) := by
  unfold stripCut
  congr 1
  funext x
  cases x.kind <;> rfl

/-- The strip at place `i` is finished afterwards when it was, or when it is cut now. -/
theorem settleStrips_finished (n : Nat) (strips : List Strip) (finished : List Bool) {i : Nat} {t : Strip} {f : Bool}
    (ht : strips[i]? = some t) (hf : finished[i]? = some f) :
    (settleStrips passes n strips finished).1[i]? = some (f || stripCut passes (n + i)) := by
  induction strips generalizing n finished i with
  | nil => simp at ht
  | cons x xs ih =>
    cases finished with
    | nil => simp at hf
    | cons g gs =>
      cases i with
      | zero =>
        obtain rfl : g = f := by simpa using hf
        cases g <;> simp [settleStrips]
      | succ i =>
        have hrest := ih (n + 1) gs (by simpa using ht) (by simpa using hf)
        rw [show n + (i + 1) = n + 1 + i by omega, ← hrest]
        rfl

/-- The pieces of the strips newly finished, the first strip being number `n + 1`. -/
theorem settleStrips_pieces (n : Nat) (strips : List Strip) (finished : List Bool) :
    (settleStrips passes (n + 1) strips finished).2 = (((strips.zip finished).zipIdx n).map fun x =>
      if !x.1.2 && stripCut passes (x.2 + 1) then x.1.1.pieces.length else 0).sum := by
  induction strips generalizing n finished with
  | nil => simp [settleStrips]
  | cons t ts ih =>
    cases finished with
    | nil => simp [settleStrips]
    | cons f fs =>
      simp only [List.zip_cons_cons, List.zipIdx_cons, List.map_cons, List.sum_cons, ← ih]
      rfl

end Strips

/-! ## DONE reported to PLN (R48, R63, R207) -/

section ReportDone

/-- A pass DONE at its length. -/
def Pass.finish (q : Pass) : Pass := { q with state := .done, reached := q.length }

/-- The passes of a plan with one of them DONE. -/
def Plan.passesDone (index : Nat) (p : Plan) : List Pass := p.passes.map fun x => if x.index = index then x.finish else x

/-- The pieces of the strips newly finished. -/
def Plan.piecesDone (index : Nat) (p : Plan) : Nat := (settleStrips (p.passesDone index) 1 p.strips p.finished).2

/-- The plan with a pass DONE and the strips it completes finished. -/
def Plan.afterDone (index : Nat) (p : Plan) : Plan :=
  { p.updatePass index Pass.finish with
    finished := (settleStrips (p.passesDone index) 1 p.strips p.finished).1
    piecesFinished := p.piecesFinished + p.piecesDone index }

theorem updatePass_passes (p : Plan) (index : Nat) : (p.updatePass index Pass.finish).passes = p.passesDone index := by
  unfold Plan.passes Plan.updatePass Plan.passesDone Plan.passes
  cases p.derived <;> rfl

theorem afterDone_passes (p : Plan) (index : Nat) : (p.afterDone index).passes = p.passesDone index :=
  updatePass_passes p index

variable {s : State} {p : Plan} {number index : Nat}

theorem reportDone_eq (hp : s.plan? number = some p) :
    s.reportDone number index = ((s.updatePass number index Pass.finish).updatePlan number fun x =>
      { x with finished := (p.afterDone index).finished, piecesFinished := x.piecesFinished + p.piecesDone index }).updateJob
        p.job (Job.addCut (p.piecesDone index)) := by
  have hplan : (s.updatePass number index Pass.finish).plan? number = some (p.updatePass index Pass.finish) :=
    (updatePlan_plan?_self s number _).trans (congrArg (Option.map _) hp)
  show (s.updatePass number index Pass.finish).finishStrips number = _
  simp only [State.finishStrips, hplan, updatePass_passes]
  rfl

theorem reportDone_plan? (hp : s.plan? number = some p) :
    (s.reportDone number index).plan? number = some (p.afterDone index) := by
  rw [reportDone_eq hp]
  have hpass : (s.updatePass number index Pass.finish).plan? number = some (p.updatePass index Pass.finish) :=
    (updatePlan_plan?_self s number _).trans (congrArg (Option.map _) hp)
  exact (updatePlan_plan?_self (s.updatePass number index Pass.finish) number _).trans (congrArg (Option.map _) hpass)

theorem reportDone_job? (hp : s.plan? number = some p) (n : Nat) :
    (s.reportDone number index).job? n = (s.job? n).map fun j =>
      if n = p.job then { j with cut := min 65535 (j.cut + p.piecesDone index) } else j := by
  rw [reportDone_eq hp]
  refine (updateJob_job? (State.updatePlan _ _ _) p.job _ n).trans ?_
  split
  · rfl
  · exact Option.map_id'.symm

end ReportDone

/-! ## A segment closed, seen from its saw (R107, R114) -/

/-- The saw's record once its segment is closed. -/
def SawRec.segmentClosed (r : SawRec) : SawRec :=
  { r with passTime := satAdd Config.maxTime r.passTime r.meters.time
           meters := { r.meters.settle with isOpen := false, time := 0, startAt := 0 } }

theorem closeSegment_sdp (s : State) (w : Saw) (position : Nat) :
    (s.closeSegment w position).sdp = { s.sdp with saws := s.sdp.saws.set w (s.saw w).segmentClosed } := by
  simp [State.closeSegment, State.updateSaw, Four.set_set, State.saw, SawRec.segmentClosed, Meters.settle]

theorem closeSegment_saw (s : State) (w : Saw) (position : Nat) :
    (s.closeSegment w position).saw w = (s.saw w).segmentClosed := by
  rw [State.saw, closeSegment_sdp]
  exact Four.get_set_same ..

/-! ## DONE (R108 to R110, R119) -/

section Congruence

variable {s t : State} {w : Saw}

theorem headPlan?_congr (hq : (t.saw w).queue = (s.saw w).queue) (hp : t.pln = s.pln) : t.headPlan? w = s.headPlan? w := by
  unfold State.headPlan?
  rw [hq]
  split
  · exact plan?_congr hp _
  · rfl

theorem activePass?_congr (hq : (t.saw w).queue = (s.saw w).queue) (hp : t.pln = s.pln) :
    t.activePass? w = s.activePass? w := by
  unfold State.activePass?
  rw [headPlan?_congr hq hp]

theorem activeTag?_congr (hq : (t.saw w).queue = (s.saw w).queue) (hp : t.pln = s.pln)
    (ho : (t.saw w).outstanding = (s.saw w).outstanding) : t.activeTag? w = s.activeTag? w := by
  unfold State.activeTag?
  rw [activePass?_congr hq hp, ho]

end Congruence

section DoneChecks

theorem exec_done (w : Saw) (tag : Nat) (s : State) :
    exec (.done w tag) s = sawMessage w Kind.done (checkDone w tag) (done w) s := rfl

theorem SawRec.holds_iff {r : SawRec} {tag : Nat} : r.holds tag = true ↔ ∃ o ∈ r.outstanding, o.tag = tag := by
  simp only [SawRec.holds, List.any_eq_true, beq_iff_eq]

theorem SawState.inCut_iff {x : SawState} : x.inCut = true ↔ x = .cutting ∨ x = .holding := by
  cases x <;> simp [SawState.inCut]

/-- The tag of the ACTIVE pass is in the outstanding set. -/
theorem exists_of_activeTag? {s : State} {w : Saw} {tag : Nat} (h : s.activeTag? w = some tag) :
    ∃ o ∈ (s.saw w).outstanding, o.tag = tag := by
  unfold State.activeTag? at h
  split at h
  · obtain ⟨o, ho, htag⟩ := Option.map_eq_some_iff.1 h
    exact ⟨o, List.mem_of_find?_eq_some ho, htag⟩
  · cases h

variable {s : State} {w : Saw} {tag : Nat}

/-- The checks read nothing a heartbeat touches. -/
theorem checkDone_sawFrame (s : State) (w : Saw) (tag : Nat) : checkDone w tag (s.sawFrame w) = checkDone w tag s := by
  have hsaw : (s.sawFrame w).saw w = { s.saw w with heartbeat := 0 } := State.saw_updateSaw_same ..
  have htag : (s.sawFrame w).activeTag? w = s.activeTag? w := activeTag?_congr (by rw [hsaw]) rfl (by rw [hsaw])
  unfold checkDone
  rw [htag, hsaw]
  rfl

theorem checkDone_stale (h : ∀ o ∈ (s.saw w).outstanding, o.tag ≠ tag) : checkDone w tag s = some .stale := by
  have hnone : (s.saw w).holds tag = false :=
    Bool.eq_false_iff.2 (SawRec.holds_iff.not.2 fun ⟨o, ho, he⟩ => h o ho he)
  simp [checkDone, hnone]

variable (hheld : ∃ o ∈ (s.saw w).outstanding, o.tag = tag)
include hheld

theorem checkDone_order (h : s.activeTag? w ≠ some tag) : checkDone w tag s = some .order := by
  simp [checkDone, SawRec.holds_iff.2 hheld, h]

variable (htag : s.activeTag? w = some tag)
include htag

theorem checkDone_state (hc : (s.saw w).state ≠ .cutting) (hh : (s.saw w).state ≠ .holding) :
    checkDone w tag s = some .state := by
  have hout : (s.saw w).state.inCut = false := Bool.eq_false_iff.2 (SawState.inCut_iff.not.2 (not_or.2 ⟨hc, hh⟩))
  simp [checkDone, SawRec.holds_iff.2 hheld, htag, hout]

theorem checkDone_taken (hx : (s.saw w).state = .cutting ∨ (s.saw w).state = .holding) : checkDone w tag s = none := by
  simp [checkDone, SawRec.holds_iff.2 hheld, htag, SawState.inCut_iff.2 hx]

end DoneChecks

section PassEnded

/-- The segment of a DONE closed at the pass length (R109 step 1, R107). -/
def State.cutClosed (s : State) (w : Saw) (q : Pass) : State :=
  (s.updateSaw w fun r => { r with holdTimer := none }).closeSegment w q.length

/-- The saw's record once its pass is over: out of the set, pass time 0. -/
def SawRec.passOver (index : Nat) (r : SawRec) : SawRec :=
  { r with outstanding := r.outstanding.filter fun o => o.index != index, passTime := 0 }

/-- Steps 1 and 2 of a DONE: the segment, the pass and its strips (R109), before the water is given up. -/
def State.passEnded (s : State) (w : Saw) (p : Plan) (q : Pass) : State :=
  ((s.cutClosed w q).updateSaw w (SawRec.passOver q.index)).reportDone p.number q.index

variable {s : State} {w : Saw} {p : Plan} {q : Pass}

theorem cutClosed_saw : (s.cutClosed w q).saw w = { (s.saw w).segmentClosed with holdTimer := none } := by
  refine (closeSegment_saw ..).trans ?_
  rw [State.saw_updateSaw_same]
  rfl

theorem cutClosed_pln : (s.cutClosed w q).pln = s.pln := State.closeSegment_pln ..

theorem cutClosed_cuts : CutsKept s (s.cutClosed w q) :=
  .trans (.of_jcu rfl) (.closeSegment (s.updateSaw w fun r => { r with holdTimer := none }) w q.length)

theorem passEnded_saw : (s.passEnded w p q).saw w = ((s.cutClosed w q).saw w).passOver q.index := by
  have hsdp : (s.passEnded w p q).sdp = ((s.cutClosed w q).updateSaw w (SawRec.passOver q.index)).sdp :=
    State.reportDone_sdp ..
  exact (congrArg (fun x : Dispatcher => x.saws.get w) hsdp).trans (State.saw_updateSaw_same ..)

theorem passEnded_state : ((s.passEnded w p q).saw w).state = (s.saw w).state := by
  rw [passEnded_saw, cutClosed_saw]
  rfl

/-- Only the plan and the job of the pass change, beside the saw's own record. -/
theorem passEnded_frame : s.passEnded w p q = { s.cutClosed w q with
    pln := (s.passEnded w p q).pln, jcu := (s.passEnded w p q).jcu,
    sdp := { (s.cutClosed w q).sdp with
      saws := (s.cutClosed w q).sdp.saws.set w (((s.cutClosed w q).saw w).passOver q.index) } } := by
  refine State.ext_blocks ?_ rfl ?_ ?_ ?_ ?_ rfl ?_ ?_ ?_
  case refine_2 => exact State.reportDone_sdp ..
  all_goals simp [State.passEnded]

theorem passEnded_plan? (hp : s.plan? p.number = some p) :
    (s.passEnded w p q).plan? p.number = some (p.afterDone q.index) :=
  reportDone_plan? ((plan?_congr cutClosed_pln p.number).trans hp)

theorem passEnded_job? (hp : s.plan? p.number = some p) (n : Nat) :
    (s.passEnded w p q).job? n = ((s.cutClosed w q).job? n).map fun j =>
      if n = p.job then { j with cut := min 65535 (j.cut + p.piecesDone q.index) } else j :=
  reportDone_job? (s := (s.cutClosed w q).updateSaw w (SawRec.passOver q.index))
    ((plan?_congr cutClosed_pln p.number).trans hp) n

/-- The count of pieces cut of the plan's job rises by the pieces of the strips newly finished (R207). -/
theorem passEnded_cut (hp : s.plan? p.number = some p) :
    ((s.passEnded w p q).job? p.job).map Job.cut =
      (s.job? p.job).map fun j => min 65535 (j.cut + p.piecesDone q.index) := by
  have hclosed := cutClosed_cuts (s := s) (w := w) (q := q) p.job
  have hcut := congrArg (Option.map fun c => min 65535 (c + p.piecesDone q.index)) hclosed
  rw [Option.map_map, Option.map_map] at hcut
  rw [passEnded_job? hp, Option.map_map]
  refine Eq.trans ?_ hcut
  simp [Function.comp_def]

theorem passEnded_kept : Kept s (s.passEnded w p q) := by
  unfold State.passEnded State.cutClosed
  refine Kept.trans ?_ (Kept.reportDone ..)
  refine Kept.trans ?_ (Kept.updateSaw _ _ (by intro; rfl))
  exact Kept.trans (Kept.updateSaw _ _ (by intro; rfl)) (Kept.closeSegment ..)

theorem passEnded_wau : (s.passEnded w p q).wau = s.wau := by simp [State.passEnded, State.cutClosed]

theorem passEnded_states (v : Saw) : (s.passEnded w p q).states v = s.states v := by
  simp only [State.passEnded, State.cutClosed, State.states_reportDone]
  refine (State.states_updateSaw_keep _ _ _ (by intro; rfl) _).trans ?_
  rw [State.states_closeSegment]
  exact State.states_updateSaw_keep _ _ _ (by intro; rfl) _

end PassEnded

/-! ### The water of a stopped saw -/

section Water

variable {s : State} {w : Saw}

theorem leaveWater_eq_waterGivenUp (hx : (s.saw w).state = .cutting ∨ (s.saw w).state = .holding) :
    s.leaveWater State.runPass w = s.waterGivenUp w := by
  rcases hx with h | h <;> simp only [State.leaveWater, State.waterGivenUp, h] <;> rfl

/-- The water law of a running part as the agreement of the water records with the saw states. -/
theorem WaterLaw.agree (h : WaterLaw s) (hr : s.running = true) : Agree (fun _ => False) s where
  run := hr
  allotted v _ := h.allotted v
  permit v _ := (h.permit v).trans (by rw [h.allotted v]; exact ⟨fun x => x.2, fun x => ⟨hr, x⟩⟩)
  ordered v _ := h.ordered v
  started v _ := h.started v
  held v _ := h.held v
  out _ := False.elim
  orderNodup := h.orderNodup
  lineNodup := h.lineNodup
  granted := h.granted

/-- A saw that gave its water up stands in no water record. -/
theorem Agree.waterGivenUp (h : Agree (fun _ => False) s)
    (hx : (s.saw w).state = .cutting ∨ (s.saw w).state = .holding) :
    (s.waterGivenUp w).wau.allotment.get w = none ∧ (s.waterGivenUp w).wau.permit.get w = false ∧
      w ∉ (s.waterGivenUp w).wau.order ∧ ∀ e ∈ (s.waterGivenUp w).wau.line, e.saw ≠ w := by
  have hleft := Agree.leaveWater runPass_agree h id hx
  rw [leaveWater_eq_waterGivenUp hx] at hleft
  obtain ⟨hallot, hpermit, horder, hline⟩ := hleft.out w (.inr rfl)
  exact ⟨hallot, hpermit, horder, fun e he hw => hline e.kind (hw ▸ he)⟩

/-- A saw in a cut stands in no line, and its head plan heads no other queue. -/
theorem lineApart_of_laws {p : Plan} (hq : QueueLaw s) (hw : WaterLaw s) (hp : s.headPlan? w = some p)
    (hx : (s.saw w).state = .cutting ∨ (s.saw w).state = .holding) : LineApart w p.number s := by
  obtain ⟨hhead, hplan⟩ := headPlan?_some hp
  have hnames {v : Saw} (hv : (s.saw v).queue.head? = some p.number) : p.saw = some v := by
    obtain ⟨p', hp', hsaw, -⟩ := hq.queued v p.number (List.mem_of_head? hv)
    obtain rfl : p = p' := Option.some.inj (hplan.symm.trans hp')
    exact hsaw
  intro e he
  have hne : e.saw ≠ w := by
    rintro rfl
    cases hk : e.kind with
    | started =>
      have hwaiting := (hw.started e.saw).1 (hk ▸ he)
      rcases hx with h | h <;> exact nomatch h.symm.trans hwaiting
    | held =>
      have hheld := (hw.held e.saw).1 (hk ▸ he)
      rcases hx with h | h <;> exact nomatch h.symm.trans hheld
  exact ⟨hne, fun hhead' => hne (Option.some.inj ((hnames hhead').symm.trans (hnames hhead)))⟩

theorem LineApart.of_queue {t : State} {n : Nat} (h : LineApart w n s) (hw : t.wau = s.wau)
    (hq : ∀ v, (t.saw v).queue = (s.saw v).queue) : LineApart w n t := fun e he => by
  obtain ⟨hne, hhead⟩ := h e (hw ▸ he)
  exact ⟨hne, by rw [hq]; exact hhead⟩

end Water

section DoneTaken

variable {s : State} {w : Saw} {p : Plan} {q : Pass}

theorem finishPass_eq (hx : (s.saw w).state = .cutting ∨ (s.saw w).state = .holding) :
    s.finishPass w p q = (s.passEnded w p q).waterGivenUp w :=
  leaveWater_eq_waterGivenUp (s := s.passEnded w p q) (by rw [passEnded_state]; exact hx)

/-- What a DONE does to the plan and the saw when its passes and its saw are these (R109, R110). -/
theorem done_eq {p' : Plan} (ha : s.activePass? w = some (p, q))
    (hx : (s.saw w).state = .cutting ∨ (s.saw w).state = .holding)
    (hp' : ((s.passEnded w p q).waterGivenUp w).plan? p.number = some p') :
    done w s = if p'.passes.all fun x => x.state == .done then ((s.passEnded w p q).waterGivenUp w).complete w p'
      else (((s.passEnded w p q).waterGivenUp w).stagePass w).setSawState w .primed := by
  simp only [done, ha, finishPass_eq hx, hp']

/-- Giving the water up leaves the saw and its plan as the pass left them. -/
theorem passEnded_unmoved (hl : LineApart w p.number s) :
    Unmoved w p.number (s.passEnded w p q) ((s.passEnded w p q).waterGivenUp w) :=
  waterGivenUp_unmoved (hl.of_queue passEnded_wau passEnded_kept.queue)

theorem passEnded_agree (h : Agree (fun _ => False) s) : Agree (fun _ => False) (s.passEnded w p q) :=
  h.congr passEnded_wau passEnded_states (by simp [State.passEnded, State.cutClosed])

theorem passEnded_waterGivenUp_blocks (hx : (s.saw w).state = .cutting ∨ (s.saw w).state = .holding) :
    ((s.passEnded w p q).waterGivenUp w).stk = s.stk ∧ ((s.passEnded w p q).waterGivenUp w).pmn = s.pmn ∧
      ((s.passEnded w p q).waterGivenUp w).rsv = s.rsv := by
  rw [← finishPass_eq hx]
  exact ⟨State.finishPass_stk .., State.finishPass_pmn .., State.finishPass_rsv ..⟩

end DoneTaken

/-! ### The answer to a message (R89) -/

theorem acked_saw (s : State) (w : Saw) (kind : Byte) (st : Status) :
    (s.acked w kind st).saw w = { s.saw w with heartbeat := 0 } :=
  State.saw_updateSaw_same s w fun r => { r with heartbeat := 0 }

theorem acked_queue {s : State} {w : Saw} {kind : Byte} {st : Status} (v : Saw) :
    ((s.acked w kind st).saw v).queue = (s.saw v).queue := by
  show ((s.updateSaw w fun r => { r with heartbeat := 0 }).saw v).queue = _
  rw [State.saw_updateSaw]
  split
  · next hv => rw [hv]
  · rfl

theorem acked_activePass? (s : State) (w : Saw) (kind : Byte) (st : Status) :
    (s.acked w kind st).activePass? w = s.activePass? w :=
  activePass?_congr (s := s) (t := s.acked w kind st) (acked_queue w) rfl

/-- A strip is finished after a DONE when it was before, or when it is cut now (R63). -/
theorem afterDone_finished_iff {p : Plan} {index i : Nat} {t : Strip} {f : Bool} (ht : p.strips[i]? = some t)
    (hf : p.finished[i]? = some f) :
    (p.afterDone index).finished[i]? = some true ↔ f = true ∨ stripCut (p.passesDone index) (i + 1) = true := by
  have hnow := settleStrips_finished (passes := p.passesDone index) 1 p.strips p.finished ht hf
  rw [Nat.add_comm] at hnow
  rw [show (p.afterDone index).finished[i]? = _ from hnow]
  simp

theorem afterDone_all_done {p : Plan} {index : Nat} :
    ((p.afterDone index).passes.all fun x => x.state == .done) = true ↔ ∀ x ∈ p.passesDone index, x.state = .done := by
  rw [afterDone_passes]
  simp only [List.all_eq_true, beq_iff_eq]

/-- The saw's record when its pass is over and its water given up: all but the cut's own fields as it was. -/
theorem passEnded_waterGivenUp_saw {s : State} {w : Saw} {p : Plan} {q : Pass} (hl : LineApart w p.number s) :
    ((s.passEnded w p q).waterGivenUp w).saw w =
      SawRec.passOver q.index { (s.saw w).segmentClosed with holdTimer := none } := by
  rw [(passEnded_unmoved hl).saw, passEnded_saw, cutClosed_saw]

/-- Settles O26: the checks by their case lemmas; the pass ended by the lemmas of `State.passEnded`; the saw and its plan are
unmoved by the water given up, and the saw stands in no water record after it. -/
theorem doneTaken : Obligations.DoneTaken := by
  intro s w tag hs i r
  have refused {st : Status} (h : checkDone w tag s = some st) : exec i s = .next (s.acked w Kind.done st) :=
    (exec_done w tag s).trans (sawMessage_refused hs Kind.done ((checkDone_sawFrame s w tag).trans h) _)
  refine ⟨fun h => refused (checkDone_stale h), fun hheld h => refused (checkDone_order hheld h),
    fun hheld htag hc hh => refused (checkDone_state hheld htag hc hh), fun p q hq hw ha htag hx => ?_⟩
  have hcheck := checkDone_taken (exists_of_activeTag? htag) htag hx
  have taken : exec i s = .next (done w (s.acked w Kind.done .ok)) :=
    (exec_done w tag s).trans (sawMessage_taken hs Kind.done ((checkDone_sawFrame s w tag).trans hcheck) _)
  have hsaw := acked_saw s w Kind.done .ok
  have hactive := (acked_activePass? s w Kind.done .ok).trans ha
  obtain ⟨hhead, -⟩ := activePass?_some ha
  have hplan : (s.acked w Kind.done .ok).plan? p.number = some p := (headPlan?_some hhead).2
  have hcutting : ((s.acked w Kind.done .ok).saw w).state = .cutting ∨
      ((s.acked w Kind.done .ok).saw w).state = .holding := by rw [hsaw]; exact hx
  have hline : LineApart w p.number (s.acked w Kind.done .ok) :=
    (lineApart_of_laws hq hw hhead hx).of_queue rfl acked_queue
  have hagree : Agree (fun _ => False) (s.acked w Kind.done .ok) :=
    (hw.agree hs.1).congr rfl (fun v => State.states_sawFrame s w v) rfl
  have hstay := passEnded_unmoved (q := q) hline
  have hafter := hstay.plan.trans (passEnded_plan? hplan)
  have hover := passEnded_waterGivenUp_saw (q := q) hline
  rw [hsaw] at hover
  obtain ⟨hallot, hpermit, horder, hgone⟩ :=
    (passEnded_agree (p := p) (q := q) hagree).waterGivenUp (by rw [passEnded_state]; exact hcutting)
  obtain ⟨hstk, hpmn, hrsv⟩ := passEnded_waterGivenUp_blocks (p := p) (q := q) hcutting
  have hdone := done_eq hactive hcutting hafter
  intro passes cut pieces closed
  have hcut (n : Nat) : cut n = stripCut (p.passesDone q.index) (n + 1) := (stripCut_eq _ (n + 1)).symm
  have hpieces : pieces = p.piecesDone q.index := by
    rw [Plan.piecesDone, settleStrips_pieces 0]
    simp only [pieces, hcut]
  refine ⟨(s.acked w Kind.done .ok).passEnded w p q, _, p.afterDone q.index, ?blades, ?jobs, ?frame, rfl, hafter,
    afterDone_passes p q.index, rfl, rfl, rfl, fun n st f hst hf => ?finishedStrips, ?piecesFinished, ?piecesCut,
    congrArg SawRec.outstanding hover, congrArg SawRec.passTime hover, congrArg SawRec.holdTimer hover,
    congrArg (fun x => x.meters.isOpen) hover, (congrArg SawRec.queue hover :), (congrArg SawRec.nextTag hover :), hallot,
    hpermit, horder, hgone, hstk, hpmn, hrsv, fun h => ?last, fun h => ?more⟩
  case blades => rw [passEnded_frame]; rfl
  case jobs => rw [hpieces]; exact passEnded_job? hplan
  case frame =>
    have hset : (closed.saw w).outstanding = r.outstanding := by
      rw [show closed = (s.acked w Kind.done .ok).cutClosed w q from rfl, cutClosed_saw, hsaw]; rfl
    rw [← hset]
    exact passEnded_frame
  case finishedStrips => rw [hcut]; exact afterDone_finished_iff hst hf
  case piecesFinished => rw [hpieces]; rfl
  case piecesCut => rw [hpieces]; exact (hstay.cut p.job).trans (passEnded_cut hplan)
  case last => rw [taken, hdone, if_pos (afterDone_all_done.2 h)]
  case more => rw [taken, hdone, if_neg (afterDone_all_done.not.2 h)]; rfl

end Sys2Proof.Machine
end

section
/-! PROOFS. The layout computation (04_layout_arithmetic.md): the verdict of the checks from a strip or a piece on, the pass list
and the remnant in the words of the rules, and the statement about their outcome. -/

namespace Sys2Proof.Machine

/-! ## Lists cut at a place

The model walks the rest of a list, the rules count places in it. -/

theorem drop_of_getElem?_some {α : Type} {xs : List α} {n : Nat} {x : α} (h : xs[n]? = some x) :
    xs.drop n = x :: xs.drop (n + 1) := by
  simp [List.drop_eq_getElem?_toList_append (i := n), h]

theorem getElem?_of_drop_cons {α : Type} {xs ys : List α} {n : Nat} {x : α} (h : xs.drop n = x :: ys) :
    xs[n]? = some x ∧ xs.drop (n + 1) = ys := by
  constructor
  · rw [← List.head?_drop, h, List.head?_cons]
  · rw [← List.tail_drop, h, List.tail_cons]

/-! ## Placement (R68, R69) -/

section Placement

variable {i : LayoutInput} {s j : Nat} {t : Strip} {p : Piece}

theorem nearEdge_succ (ht : i.strips[s]? = some t) : i.nearEdge (s + 1) = i.nearEdge s + t.width + i.kerf := by
  simp [LayoutInput.nearEdge, List.take_add_one, ht, Nat.add_assoc]

theorem pieceStart_succ (hp : t.pieces[j]? = some p) :
    i.pieceStart t (j + 1) = i.pieceStart t j + p.length + i.kerf := by
  simp [LayoutInput.pieceStart, List.take_add_one, hp, Nat.add_assoc]

end Placement

/-! ## The flaw checks (R70, R71) -/

theorem sharesArea_iff {i : LayoutInput} {s j : Nat} {t : Strip} {p : Piece} {f : Flaw} :
    sharesArea (i.pieceStart t j) (i.pieceStart t j + p.length) (i.nearEdge s) (i.nearEdge s + t.width) f = true ↔
      i.flawed s t j p f := by
  simp [sharesArea, LayoutInput.flawed, and_assoc]

/-- The model's count is the place of the first flaw overlapped, counted from `n`. -/
theorem firstFlaw_eq_findIdx? (a0 a1 b0 b1 n : Nat) (fs : List Flaw) :
    firstFlaw a0 a1 b0 b1 n fs = (fs.findIdx? (sharesArea a0 a1 b0 b1)).elim 0 (n + ·) := by
  induction fs generalizing n with
  | nil => rfl
  | cons f fs ih =>
    rw [firstFlaw, List.findIdx?_cons]
    split
    · rfl
    · rw [ih]
      cases fs.findIdx? (sharesArea a0 a1 b0 b1) with
      | none => rfl
      | some k => simp only [Option.map_some, Option.elim_some]; omega

/-- The verdict of the checks of a strip from the piece at place `j` on. -/
def LayoutInput.piecesFrom (i : LayoutInput) (s : Nat) (t : Strip) (j : Nat) : Option Failure :=
  checkPieces i (s + 1) (i.nearEdge s) t.width (j + 1) (i.pieceStart t j) (t.pieces.drop j)

/-- The verdict of the checks from the strip at place `s` on. -/
def LayoutInput.stripsFrom (i : LayoutInput) (s : Nat) : Option Failure :=
  checkStrips i (s + 1) (i.nearEdge s) (i.strips.drop s)

theorem checkPieces_eq_piecesFrom (i : LayoutInput) (s : Nat) (t : Strip) :
    checkPieces i (s + 1) (i.nearEdge s) t.width 1 0 t.pieces = i.piecesFrom s t 0 := rfl

theorem checkStrips_eq_stripsFrom (i : LayoutInput) : checkStrips i 1 0 i.strips = i.stripsFrom 0 := rfl

section Pieces

variable {i : LayoutInput} {s j : Nat} {t : Strip} {p : Piece}

theorem piecesFrom_of_none (hp : t.pieces[j]? = none) : i.piecesFrom s t j = none := by
  rw [LayoutInput.piecesFrom, List.drop_eq_nil_of_le (List.getElem?_eq_none_iff.1 hp), checkPieces]

/-- One piece checked: its length, then its flaws, then the pieces after it (R71). -/
theorem piecesFrom_of_some (hp : t.pieces[j]? = some p) :
    i.piecesFrom s t j =
      if i.length < i.pieceStart t j + p.length then
        some ⟨.length, s + 1, j + 1, 0, i.pieceStart t j + p.length - i.length⟩
      else
        match i.flaws.findIdx? (sharesArea (i.pieceStart t j) (i.pieceStart t j + p.length) (i.nearEdge s)
          (i.nearEdge s + t.width)) with
        | none => i.piecesFrom s t (j + 1)
        | some n => some ⟨.flaw, s + 1, j + 1, n + 1, 0⟩ := by
  rw [LayoutInput.piecesFrom, drop_of_getElem?_some hp, checkPieces, firstFlaw_eq_findIdx?]
  split
  · rfl
  · cases i.flaws.findIdx? _ with
    | none => rw [LayoutInput.piecesFrom, pieceStart_succ hp]; rfl
    | some n => simp [Nat.add_comm 1 n]

theorem piecesFrom_length (hp : t.pieces[j]? = some p) (hl : i.length < i.pieceStart t j + p.length) :
    i.piecesFrom s t j = some ⟨.length, s + 1, j + 1, 0, i.pieceStart t j + p.length - i.length⟩ := by
  rw [piecesFrom_of_some hp, if_pos hl]

theorem piecesFrom_flaw {n : Nat} {f : Flaw} (hp : t.pieces[j]? = some p) (hl : i.pieceStart t j + p.length ≤ i.length)
    (hf : i.flaws[n]? = some f) (hover : i.flawed s t j p f)
    (hfirst : ∀ n' f', n' < n → i.flaws[n']? = some f' → ¬ i.flawed s t j p f') :
    i.piecesFrom s t j = some ⟨.flaw, s + 1, j + 1, n + 1, 0⟩ := by
  obtain ⟨hn, rfl⟩ := List.getElem?_eq_some_iff.1 hf
  have hidx := List.findIdx?_eq_some_iff_getElem.2 ⟨hn, sharesArea_iff.2 hover, fun m hm =>
    sharesArea_iff.not.2 (hfirst m _ hm (List.getElem?_eq_getElem (hm.trans hn)))⟩
  rw [piecesFrom_of_some hp, if_neg hl.not_gt, hidx]

theorem piecesFrom_of_clear (hp : t.pieces[j]? = some p) (hc : i.pieceClear s t j p) :
    i.piecesFrom s t j = i.piecesFrom s t (j + 1) := by
  obtain ⟨hl, hflaws⟩ := hc
  have hidx := List.findIdx?_eq_none_iff.2 fun f hf => Bool.eq_false_iff.2 (sharesArea_iff.not.2 (hflaws f hf))
  rw [piecesFrom_of_some hp, if_neg hl.not_gt, hidx]

/-- The verdict on a strip is that from any piece before which every piece passes. -/
theorem piecesFrom_zero (hc : ∀ j' p', j' < j → t.pieces[j']? = some p' → i.pieceClear s t j' p') :
    i.piecesFrom s t 0 = i.piecesFrom s t j := by
  induction j with
  | zero => rfl
  | succ j ih =>
    rw [ih fun j' p' hj => hc j' p' (by omega)]
    cases hp : t.pieces[j]? with
    | none =>
      have hend : t.pieces[j + 1]? = none := by rw [List.getElem?_eq_none_iff] at hp ⊢; omega
      rw [piecesFrom_of_none hp, piecesFrom_of_none hend]
    | some p => exact piecesFrom_of_clear hp (hc j p j.lt_succ_self hp)

theorem piecesFrom_zero_of_clear (hc : ∀ j p, t.pieces[j]? = some p → i.pieceClear s t j p) :
    i.piecesFrom s t 0 = none :=
  (piecesFrom_zero fun j p _ => hc j p).trans (piecesFrom_of_none (List.getElem?_length ..))

end Pieces

/-! ## The checks strip by strip (R71) -/

section Strips

variable {i : LayoutInput} {s : Nat} {t : Strip}

theorem stripsFrom_of_none (ht : i.strips[s]? = none) : i.stripsFrom s = none := by
  rw [LayoutInput.stripsFrom, List.drop_eq_nil_of_le (List.getElem?_eq_none_iff.1 ht), checkStrips]

/-- One strip checked: its width, then its pieces, then the strips after it (R71). -/
theorem stripsFrom_of_some (ht : i.strips[s]? = some t) :
    i.stripsFrom s =
      if i.width < i.nearEdge s + t.width then some ⟨.width, s + 1, 0, 0, i.nearEdge s + t.width - i.width⟩
      else (i.piecesFrom s t 0).or (i.stripsFrom (s + 1)) := by
  rw [LayoutInput.stripsFrom, drop_of_getElem?_some ht, checkStrips, checkPieces_eq_piecesFrom, LayoutInput.stripsFrom,
    nearEdge_succ ht]
  split
  · rfl
  · cases i.piecesFrom s t 0 <;> rfl

theorem stripsFrom_width (ht : i.strips[s]? = some t) (hw : i.width < i.nearEdge s + t.width) :
    i.stripsFrom s = some ⟨.width, s + 1, 0, 0, i.nearEdge s + t.width - i.width⟩ := by
  rw [stripsFrom_of_some ht, if_pos hw]

theorem stripsFrom_piece {f : Failure} (ht : i.strips[s]? = some t) (hw : i.nearEdge s + t.width ≤ i.width)
    (hf : i.piecesFrom s t 0 = some f) : i.stripsFrom s = some f := by
  rw [stripsFrom_of_some ht, if_neg hw.not_gt, hf, Option.some_or]

theorem stripsFrom_of_clear (ht : i.strips[s]? = some t) (hc : i.stripClear s t) :
    i.stripsFrom s = i.stripsFrom (s + 1) := by
  obtain ⟨hw, hpieces⟩ := hc
  rw [stripsFrom_of_some ht, if_neg hw.not_gt, piecesFrom_zero_of_clear hpieces, Option.none_or]

/-- The verdict on a layout is that from any strip before which every strip passes. -/
theorem stripsFrom_zero (hc : ∀ s' t', s' < s → i.strips[s']? = some t' → i.stripClear s' t') :
    i.stripsFrom 0 = i.stripsFrom s := by
  induction s with
  | zero => rfl
  | succ s ih =>
    rw [ih fun s' t' hs => hc s' t' (by omega)]
    cases ht : i.strips[s]? with
    | none =>
      have hend : i.strips[s + 1]? = none := by rw [List.getElem?_eq_none_iff] at ht ⊢; omega
      rw [stripsFrom_of_none ht, stripsFrom_of_none hend]
    | some t => exact stripsFrom_of_clear ht (hc s t s.lt_succ_self ht)

theorem stripsFrom_zero_of_clear (hc : ∀ s t, i.strips[s]? = some t → i.stripClear s t) : i.stripsFrom 0 = none :=
  (stripsFrom_zero fun s t _ => hc s t).trans (stripsFrom_of_none (List.getElem?_length ..))

theorem layout_of_stripsFrom_some {f : Failure} (h : i.stripsFrom 0 = some f) : layout i = .error f := by
  rw [layout, checkStrips_eq_stripsFrom, h]

theorem layout_of_stripsFrom_none (h : i.stripsFrom 0 = none) :
    layout i = if (passList i).isEmpty then .error ⟨.empty, 0, 0, 0, 0⟩ else .ok (layoutDerived i) := by
  rw [layout, checkStrips_eq_stripsFrom, h]

end Strips

/-! ## The pass list (R74 to R76) -/

section Passes

variable {i : LayoutInput} {s : Nat} {t : Strip}

theorem ripPasses_eq {ts : List Strip} (h : i.strips.drop s = ts) :
    ripPasses i (s + 1) (i.nearEdge s) ts = (ts.zipIdx s).filterMap fun x => i.rip? x.2 x.1 := by
  induction ts generalizing s with
  | nil => rfl
  | cons t ts ih =>
    obtain ⟨ht, hrest⟩ := getElem?_of_drop_cons h
    rw [ripPasses, ← nearEdge_succ ht, ih hrest, List.zipIdx_cons, List.filterMap_cons, LayoutInput.rip?]
    split <;> rfl

theorem crossPieces_eq {j : Nat} {ps : List Piece} (h : t.pieces.drop j = ps) :
    crossPieces i (s + 1) t.width (i.pieceStart t j) ps = (ps.zipIdx j).filterMap fun y => i.cross? s t y.2 y.1 := by
  induction ps generalizing j with
  | nil => rfl
  | cons p ps ih =>
    obtain ⟨hp, hrest⟩ := getElem?_of_drop_cons h
    rw [crossPieces, ← pieceStart_succ hp, ih hrest, List.zipIdx_cons, List.filterMap_cons, LayoutInput.cross?]
    split <;> rfl

theorem crossPasses_eq (ts : List Strip) :
    crossPasses i (s + 1) ts =
      (ts.zipIdx s).flatMap fun x => x.1.pieces.zipIdx.filterMap fun y => i.cross? x.2 x.1 y.2 y.1 := by
  induction ts generalizing s with
  | nil => rfl
  | cons t ts ih =>
    have hcross : crossPieces i (s + 1) t.width 0 t.pieces = _ := crossPieces_eq (j := 0) rfl
    rw [crossPasses, hcross, ih, List.zipIdx_cons, List.flatMap_cons]

theorem numberPasses_eq (n : Nat) (qs : List Pass) :
    numberPasses (n + 1) qs = (qs.zipIdx n).map fun z => { z.1 with index := z.2 + 1 } := by
  induction qs generalizing n with
  | nil => rfl
  | cons q qs ih => rw [numberPasses, ih, List.zipIdx_cons, List.map_cons]

/-- The model's pass list is that of the rules. -/
theorem passList_eq_ordered (i : LayoutInput) : passList i = i.ordered := by
  have hrips : ripPasses i 1 0 i.strips = _ := ripPasses_eq (s := 0) rfl
  rw [passList, numberPasses_eq, hrips, crossPasses_eq, LayoutInput.ordered]

end Passes

/-! ## The derived part (R77 to R82) -/

theorem lastFarEdge_add_kerf (kerf y : Nat) {ts : List Strip} (h : ts ≠ []) :
    lastFarEdge kerf y ts + kerf = y + (ts.map fun t => t.width + kerf).sum := by
  induction ts generalizing y with
  | nil => exact absurd rfl h
  | cons t ts ih =>
    cases ts with
    | nil => simp [lastFarEdge, Nat.add_assoc]
    | cons u us =>
      rw [lastFarEdge, ih _ (List.cons_ne_nil u us), List.map_cons (a := t), List.sum_cons]
      · omega
      · simp

/-- The remnant band starts one kerf beyond the last strip, where a further strip would (R79). -/
theorem lastFarEdge_add_kerf_eq_nearEdge {i : LayoutInput} (h : i.strips ≠ []) :
    lastFarEdge i.kerf 0 i.strips + i.kerf = i.nearEdge i.strips.length := by
  rw [lastFarEdge_add_kerf i.kerf 0 h, Nat.zero_add, LayoutInput.nearEdge, List.take_length]

/-- A tail of 200 mm implies the rip pass of the last strip, so the signed tail alone decides (R79). -/
theorem remnantKept_iff {far kerf edge width : Nat} (he : far + kerf = edge) :
    (far < width ∧ (Config.minTail : Int) ≤ (width : Int) - edge) ↔ edge + 200 ≤ width := by
  have hmin : (Config.minTail : Int) = 200 := rfl
  omega

theorem layoutRemnant_eq {i : LayoutInput} (h : i.strips ≠ []) : layoutRemnant i = i.result.remnant := by
  have htail (n m : Nat) : ((n : Int) - (m : Int)).toNat = n - m := by omega
  have hedge := lastFarEdge_add_kerf_eq_nearEdge h
  simp only [layoutRemnant, LayoutInput.result, hedge, remnantKept_iff hedge, htail, remnantBasis]
  rfl

/-- The model's derived part is that of the rules. -/
theorem layoutDerived_eq_result {i : LayoutInput} (h : i.strips ≠ []) : layoutDerived i = i.result := by
  have hcharge : i.basis - i.result.remnant.elim 0 RemnantPart.basis = i.result.stoneCharge := by
    simp only [LayoutInput.result]
    split <;> rfl
  rw [layoutDerived, layoutRemnant_eq h, passList_eq_ordered, hcharge]
  rfl

/-- Settles O11: the checks before the failing one are skipped by `stripsFrom_zero` and `piecesFrom_zero`; what a layout that
passes leaves is `passList_eq_ordered` and `layoutDerived_eq_result`. -/
theorem layoutOutcome : Obligations.LayoutOutcome := by
  unfold Obligations.LayoutOutcome
  refine ⟨fun i s t ht hbefore => ?failure, fun i hstrips hclear => ?passed⟩
  case failure =>
    have hskip := stripsFrom_zero hbefore
    refine ⟨fun hw => layout_of_stripsFrom_some (hskip.trans (stripsFrom_width ht hw)), fun hw j p hp hpieces => ?_⟩
    have hreport {f : Failure} (hf : i.piecesFrom s t j = some f) : layout i = .error f :=
      layout_of_stripsFrom_some (hskip.trans (stripsFrom_piece ht hw ((piecesFrom_zero hpieces).trans hf)))
    exact ⟨fun hl => hreport (piecesFrom_length hp hl), fun hl n f hf hover hfirst =>
      hreport (piecesFrom_flaw hp hl hf hover hfirst)⟩
  case passed =>
    rw [layout_of_stripsFrom_none (stripsFrom_zero_of_clear hclear), passList_eq_ordered, layoutDerived_eq_result hstrips]
    exact ⟨fun he => by rw [he]; rfl, fun hne => if_neg (mt List.isEmpty_iff.1 hne)⟩

end Sys2Proof.Machine
end

section
/-! PROOFS. Tags, passes, segments and the interlock (05_saw_links_and_pass_dispatch.md): the tag given, GO and the first
segment, what closing a segment does to the blade and the job, and what a fault in a cut leaves, with the four statements. -/

namespace Sys2Proof.Machine

/-! ## Saw records and head plans after an update -/

section Updates

variable {s : State} {w : Saw} {p : Plan} {q : Pass}

theorem Four.set_get {α : Type} (f : Four α) (w : Saw) : f.set w (f.get w) = f := by cases w <;> rfl

/-- Two updates of one saw record are one. -/
theorem updateSaw_updateSaw (s : State) (w : Saw) (f g : SawRec → SawRec) :
    (s.updateSaw w f).updateSaw w g = s.updateSaw w fun r => g (f r) := by
  simp only [State.updateSaw, Four.get_set_same, Four.set_set]

/-- Updates that give this saw's record the same value are one. -/
theorem updateSaw_congr {f g : SawRec → SawRec} (h : f (s.saw w) = g (s.saw w)) : s.updateSaw w f = s.updateSaw w g := by
  have h : f (s.sdp.saws.get w) = g (s.sdp.saws.get w) := h
  simp only [State.updateSaw, h]

theorem updateSaw_of_fixed {f : SawRec → SawRec} (h : f (s.saw w) = s.saw w) : s.updateSaw w f = s := by
  have h : f (s.sdp.saws.get w) = s.sdp.saws.get w := h
  simp only [State.updateSaw, h, Four.set_get]

theorem headPlan?_of_head {n : Nat} (hq : (s.saw w).queue.head? = some n) (hp : s.plan? n = some p) :
    s.headPlan? w = some p := by
  obtain ⟨ms, hms⟩ := List.head?_eq_some_iff.1 hq
  simp only [State.headPlan?, hms, hp]

theorem activePass?_of_head (hp : s.headPlan? w = some p) (hq : p.activePass? = some q) : s.activePass? w = some (p, q) := by
  simp only [State.activePass?, hp, hq, Option.map_some]

theorem updatePlan_headPlan? (hp : s.headPlan? w = some p) (f : Plan → Plan)
    (hk : ∀ x, (f x).number = x.number := by intro; rfl) : (s.updatePlan p.number f).headPlan? w = some (f p) := by
  obtain ⟨hhead, hplan⟩ := headPlan?_some hp
  exact headPlan?_of_head (s := s.updatePlan p.number f) hhead
    ((updatePlan_plan?_self s p.number f hk).trans (congrArg (Option.map f) hplan))

theorem updateSaw_queue (s : State) (w : Saw) (f : SawRec → SawRec) (hf : ∀ r, (f r).queue = r.queue := by intro; rfl)
    (v : Saw) : ((s.updateSaw w f).saw v).queue = (s.saw v).queue := by
  rw [State.saw_updateSaw]
  split
  · next hv => rw [hf, hv]
  · rfl

/-- An update of the saw's record that keeps its queue keeps its head plan. -/
theorem updateSaw_headPlan? (s : State) (w : Saw) (f : SawRec → SawRec)
    (hf : ∀ r, (f r).queue = r.queue := by intro; rfl) : (s.updateSaw w f).headPlan? w = s.headPlan? w :=
  headPlan?_congr (updateSaw_queue s w f hf w) rfl

theorem updateSaw_activePass? (s : State) (w : Saw) (f : SawRec → SawRec)
    (hf : ∀ r, (f r).queue = r.queue := by intro; rfl) : (s.updateSaw w f).activePass? w = s.activePass? w := by
  rw [State.activePass?, State.activePass?, updateSaw_headPlan? s w f hf]

/-- The tag of the ACTIVE pass, read from the set. -/
theorem activeTag?_eq (ha : s.activePass? w = some (p, q)) :
    s.activeTag? w = ((s.saw w).outstanding.find? fun o => o.index == q.index).map Outstanding.tag := by
  simp only [State.activeTag?, ha]

theorem reached_eq (ha : s.activePass? w = some (p, q)) : s.reached w = q.reached := by
  simp only [State.reached, ha]

end Updates

/-! ### Passes changed -/

section Passes

variable {p : Plan} {q : Pass}

theorem passes_updatePass (p : Plan) (i : Nat) (f : Pass → Pass) :
    (p.updatePass i f).passes = updateBy Pass.index i f p.passes := by
  unfold Plan.passes Plan.updatePass
  cases p.derived <;> rfl

theorem activePass?_state (h : p.activePass? = some q) : q.state = .active := by
  simpa using List.find?_some h

theorem activePass?_eq_none : p.activePass? = none ↔ ∀ x ∈ p.passes, x.state ≠ .active := by
  simp [Plan.activePass?]

/-- A change of passes that neither starts nor ends one leaves the same pass ACTIVE. -/
theorem find?_active_map {g : Pass → Pass} (hg : ∀ x, (g x).state = .active ↔ x.state = .active) (xs : List Pass) :
    (xs.map g).find? (fun x => x.state == .active) = (xs.find? fun x => x.state == .active).map g := by
  have htest : ((fun x : Pass => x.state == .active) ∘ g) = fun x => x.state == .active :=
    funext fun x => Bool.eq_iff_iff.2 (by simpa using hg x)
  rw [List.find?_map, htest]

/-- The ACTIVE pass after a change of itself that leaves it ACTIVE. -/
theorem updatePass_activePass? {f : Pass → Pass} (hf : ∀ x, (f x).state = x.state) (h : p.activePass? = some q) :
    (p.updatePass q.index f).activePass? = some (f q) := by
  rw [Plan.activePass?, passes_updatePass, updateBy, find?_active_map (fun x => by split <;> simp [hf]),
    show p.passes.find? _ = _ from h]
  simp

/-- With no pass ACTIVE, the pass made ACTIVE is the one. -/
theorem updatePass_activated {i : Nat} (hno : ∀ x ∈ p.passes, x.state ≠ .active)
    (hq : p.passes.find? (fun x => x.index == i) = some q) :
    (p.updatePass i fun x => { x with state := .active }).activePass? = some { q with state := .active } := by
  have hindex : q.index = i := by simpa using List.find?_some hq
  rw [Plan.activePass?, passes_updatePass, updateBy, List.find?_map, List.find?_congr (p₂ := fun x => x.index == i), hq]
  · simp [hindex]
  · intro x hx
    by_cases h : x.index = i <;> simp [h, hno x hx]

end Passes

/-! ## A tag given and a pass staged (R99, R100) -/

section Staging

/-- With at most one tag in use, the tag given is the next one, or the one after it when the next is in use (R99). -/
theorem tagToGive_spec {r : SawRec} (hl : r.outstanding.length ≤ 1) (hn : r.nextTag ≤ 7) :
    ∃ k, k ≤ 1 ∧ r.tagToGive = (r.nextTag + k) % 8 ∧ (∀ o ∈ r.outstanding, o.tag ≠ r.tagToGive) ∧
      (k = 1 → ∃ o ∈ r.outstanding, o.tag = r.nextTag) := by
  have hnext : (r.nextTag + 0) % 8 = r.nextTag := by omega
  match ho : r.outstanding with
  | [] =>
    have hgiven : r.tagToGive = r.nextTag := by simp [SawRec.tagToGive, ho, freeTag]
    exact ⟨0, by omega, by rw [hgiven, hnext], by simp, nofun⟩
  | [o] =>
    by_cases htag : o.tag = r.nextTag
    · have hne : (r.nextTag + 1) % 8 ≠ r.nextTag := by omega
      have hgiven : r.tagToGive = (r.nextTag + 1) % 8 := by simp [SawRec.tagToGive, ho, freeTag, htag, hne]
      exact ⟨1, le_rfl, hgiven, by simp [hgiven, htag, hne.symm], by simp [htag]⟩
    · have hgiven : r.tagToGive = r.nextTag := by simp [SawRec.tagToGive, ho, freeTag, Ne.symm htag]
      exact ⟨0, by omega, by rw [hgiven, hnext], by simp [hgiven, htag], nofun⟩
  | _ :: _ :: _ => rw [ho] at hl; simp at hl

variable {s : State} {w : Saw} {p : Plan}

theorem stagePass_none (hp : s.headPlan? w = some p) (hno : ∀ q ∈ p.passes, q.state ≠ .pending) : s.stagePass w = s := by
  have hnone : p.pendingPass? = none := by simpa [Plan.pendingPass?] using hno
  simp only [State.stagePass, hp, hnone]

theorem stagePass_pending {q : Pass} (hp : s.headPlan? w = some p) (hq : p.pendingPass? = some q) :
    s.stagePass w = ((s.updateSaw w fun r =>
        { r with outstanding := r.outstanding ++ [⟨(s.saw w).tagToGive, q.index⟩]
                 nextTag := ((s.saw w).tagToGive + 1) % 8 }).send w
      ⟨Kind.order, none, orderFields (s.saw w).tagToGive p q (s.orderFeed w p)⟩).updatePass p.number q.index
        fun x => { x with state := .staged } := by
  simp only [State.stagePass, hp, hq]

end Staging

/-- Settles O22: the tag by `tagToGive_spec`, the ORDER by `stagePass_pending`. -/
theorem stagingAPass : Obligations.StagingAPass := by
  intro s w p hp hl hn
  refine ⟨stagePass_none hp, fun q hq => ?_⟩
  obtain ⟨k, hk, htag, hfree, hused⟩ := tagToGive_spec hl hn
  exact ⟨k, _, hk, htag, hfree, hused, stagePass_pending hp hq⟩

/-! ## START (R102, R103) -/

section Start

theorem exec_start (w : Saw) (tag : Nat) (s : State) :
    exec (.start w tag) s = sawMessage w Kind.start (checkStart w tag) (start w tag) s := rfl

variable {s : State} {w : Saw} {tag : Nat} {o : Outstanding} {os : List Outstanding}

/-- The checks read nothing a heartbeat touches. -/
theorem checkStart_sawFrame (s : State) (w : Saw) (tag : Nat) : checkStart w tag (s.sawFrame w) = checkStart w tag s := by
  simp only [checkStart, State.sawFrame, State.saw_updateSaw_same, SawRec.holds]
  rfl

theorem checkStart_state (h : (s.saw w).state ≠ .primed) : checkStart w tag s = some .state := if_pos h

variable (hx : (s.saw w).state = .primed)
include hx

theorem checkStart_stale (h : ∀ o ∈ (s.saw w).outstanding, o.tag ≠ tag) : checkStart w tag s = some .stale := by
  have hnone : (s.saw w).holds tag = false :=
    Bool.eq_false_iff.2 (SawRec.holds_iff.not.2 fun ⟨o, ho, he⟩ => h o ho he)
  simp [checkStart, hx, hnone]

variable (ho : (s.saw w).outstanding = o :: os)
include ho

theorem checkStart_order (hne : o.tag ≠ tag) (h : ∃ x ∈ os, x.tag = tag) : checkStart w tag s = some .order := by
  obtain ⟨x, hmem, htag⟩ := h
  have hheld : (s.saw w).holds tag = true := SawRec.holds_iff.2 ⟨x, ho ▸ .tail _ hmem, htag⟩
  simp [checkStart, hx, hheld, ho, hne]

variable (htag : o.tag = tag)
include htag

/-- A START with the oldest tag comes down to the interlock and the demand. -/
theorem checkStart_oldest : checkStart w tag s =
    if !(s.saw w).interlock then some .notReady
    else if s.wau.settings.rating < (s.saw w).demand then some .demand else none := by
  have hheld : (s.saw w).holds tag = true := SawRec.holds_iff.2 ⟨o, ho ▸ .head _, htag⟩
  simp [checkStart, hx, hheld, ho, htag]

end Start

section Go

variable {s : State} {w : Saw} {tag : Nat} {o : Outstanding} {os : List Outstanding} {p : Plan} {q : Pass}

theorem fits_iff : s.fits w = true ↔ (s.saw w).demand + s.wau.granted ≤ s.wau.capacity := decide_eq_true_iff

/-- Not admitted, the saw waits at the tail of the line (R179). -/
theorem start_waits (h : ¬ (s.wau.line = [] ∧ (s.saw w).demand + s.wau.granted ≤ s.wau.capacity)) :
    start w tag s = ((s.withWau (Admission.enqueue w)).send w ⟨Kind.wait, none, [.u8 tag]⟩).setSawState w .waiting := by
  refine if_neg ?_
  rwa [Bool.and_eq_true, List.isEmpty_iff, fits_iff]

theorem start_admitted (hl : s.wau.line = []) (hd : (s.saw w).demand + s.wau.granted ≤ s.wau.capacity) :
    start w tag s = ((s.admitSaw w).grantGo w).settleInterlock State.runPass w := by
  refine if_pos ?_
  rw [Bool.and_eq_true, List.isEmpty_iff, fits_iff]
  exact ⟨hl, hd⟩

theorem settleInterlock_asserted {pass : State → State} (h : (s.saw w).interlock = true) : s.settleInterlock pass w = s :=
  if_pos h

/-- GO for the oldest outstanding pass of a head plan with none ACTIVE: the pass becomes ACTIVE and its segment opens at its
reached (R103, R106, R114). -/
theorem grantGo_eq (ho : (s.saw w).outstanding = o :: os) (hp : s.headPlan? w = some p)
    (hno : ∀ x ∈ p.passes, x.state ≠ .active) (hq : p.passes.find? (fun x => x.index == o.index) = some q) :
    s.grantGo w = ((s.send w ⟨Kind.go, none, [.u8 o.tag]⟩).updatePass p.number o.index
      fun x => { x with state := .active }).updateSaw w fun r =>
        { r with passTime := 0, meters := ⟨true, q.reached, 0, 0, r.meters.remainder⟩, state := .cutting } := by
  let sent := (s.send w ⟨Kind.go, none, [.u8 o.tag]⟩).updatePass p.number o.index fun x => { x with state := .active }
  have hsent : sent.headPlan? w = some _ :=
    updatePlan_headPlan? (s := s.send w ⟨Kind.go, none, [.u8 o.tag]⟩) hp (Plan.updatePass o.index _)
  have hhead : (sent.updateSaw w fun r => { r with passTime := 0 }).headPlan? w = some _ :=
    (updateSaw_headPlan? ..).trans hsent
  have hreached := reached_eq (activePass?_of_head hhead (updatePass_activated hno hq))
  have hgo : s.grantGo w = ((sent.updateSaw w fun r => { r with passTime := 0 }).openSegment w).setSawState w .cutting := by
    simp only [State.grantGo, ho, hp]
    rfl
  rw [hgo, State.openSegment, hreached, State.setSawState, updateSaw_updateSaw, updateSaw_updateSaw]

end Go

/-- Settles O24: the checks by their case lemmas; admitted, the saw cuts by `grantGo_eq`. -/
theorem startTaken : Obligations.StartTaken := by
  intro s w tag hs i r u
  have refused {st : Status} (h : checkStart w tag s = some st) : exec i s = .next (s.acked w Kind.start st) :=
    (exec_start w tag s).trans (sawMessage_refused hs Kind.start ((checkStart_sawFrame s w tag).trans h) _)
  have taken (h : checkStart w tag s = none) : exec i s = .next (start w tag u) :=
    (exec_start w tag s).trans (sawMessage_taken hs Kind.start ((checkStart_sawFrame s w tag).trans h) _)
  have hsaw : u.saw w = { r with heartbeat := 0 } := acked_saw s w Kind.start .ok
  refine ⟨fun h => refused (checkStart_state h), fun hx h => refused (checkStart_stale hx h), fun o os hx ho => ?_⟩
  have oldest (htag : o.tag = tag) := checkStart_oldest hx ho htag
  have passed (htag : o.tag = tag) (hlock : r.interlock = true) (hd : r.demand ≤ s.wau.settings.rating) :=
    taken ((oldest htag).trans (by simp [r, hlock, hd]))
  refine ⟨fun hne h => refused (checkStart_order hx ho hne h), fun htag hlock => refused ?notReady,
    fun htag hlock hd => refused ?demand, fun htag hlock hd hwait => ?waits,
    fun p q htag hlock hd hl hfits hp hno hq => ?admitted⟩
  case notReady => rw [oldest htag]; simp [r, hlock]
  case demand => rw [oldest htag]; simp [r, hlock, hd]
  case waits =>
    rw [passed htag hlock hd, start_waits (s := u) (by rw [hsaw]; exact hwait)]
    rfl
  case admitted =>
    have hout : ((u.admitSaw w).saw w).outstanding = o :: os := (congrArg SawRec.outstanding hsaw).trans ho
    have hhead : (u.admitSaw w).headPlan? w = some p :=
      (headPlan?_congr (s := s) (t := u.admitSaw w) (acked_queue w) rfl).trans hp
    have hgo := grantGo_eq hout hhead hno hq
    have hasserted : (((u.admitSaw w).grantGo w).saw w).interlock = true :=
      ((Kept.grantGo (u.admitSaw w) w).interlock w).trans ((congrArg SawRec.interlock hsaw).trans hlock)
    rw [passed htag hlock hd, start_admitted (s := u) hl (by rw [hsaw]; exact hfits),
      settleInterlock_asserted hasserted, hgo, htag, State.admitSaw, hsaw]
    rfl

/-! ## A segment closed and charged (R107, R114) -/

section SegmentCharges

/-- A job after a charge (R198, R205): the component raised, an OPEN job ACTIVE, the over-quote flag as the total has it. -/
def Job.charged (f : Job → Job) (j : Job) : Job :=
  let j' := (f j).activate
  { j' with overQuote := j'.overQuote || (j'.passesQuote && !j'.overQuote) }

variable {s : State} {w : Saw}

theorem chargeBlade_moneyOnly (amount : Nat) : MoneyOnly (Job.chargeBlade amount) := fun _ => ⟨rfl, rfl⟩

theorem chargeSawTime_moneyOnly (rate time : Nat) : MoneyOnly (Job.chargeSawTime rate time) := fun _ => ⟨rfl, rfl⟩

theorem chargeWater_moneyOnly (rate volume : Nat) : MoneyOnly (Job.chargeWater rate volume) := fun _ => ⟨rfl, rfl⟩

theorem charge_job? {n : Nat} {f : Job → Job} (hf : MoneyOnly f) (m : Nat) :
    (s.charge n f).job? m = if m = n then (s.job? m).map (Job.charged f) else s.job? m := by
  cases hj : s.job? n with
  | none =>
    simp only [State.charge, hj]
    split
    · next hm => subst hm; rw [hj]; rfl
    · rfl
  | some j =>
    have hnumber : (j.charged f).number = n := (hf j).1.trans (job?_number hj)
    simp only [State.charge, hj, raiseIf_job?]
    refine (replaceJob_job? s hnumber m).trans ?_
    split
    · next hm => subst hm; rw [hj]; rfl
    · rfl

theorem chargeHead_job? {p : Plan} (hp : s.headPlan? w = some p) {f : Job → Job} (hf : MoneyOnly f) (m : Nat) :
    (s.chargeHead w f).job? m = if m = p.job then (s.job? m).map (Job.charged f) else s.job? m := by
  rw [← charge_job? hf]
  simp only [State.chargeHead, hp]

theorem raiseIf_blade? (s : State) (c : Bool) (x : Notice) (n : Nat) : (s.raiseIf c x).blade? n = s.blade? n :=
  congrArg (fun t : BladeTable => findBy Blade.number n t.blades) (State.raiseIf_bld s c x)

theorem blade?_congr {s t : State} (h : t.bld = s.bld) (n : Nat) : t.blade? n = s.blade? n :=
  congrArg (fun x : BladeTable => findBy Blade.number n x.blades) h

/-- The health test writes nothing in the blade table but the two noticed flags (R133). -/
theorem testHealth_blade? {n : Nat} {b : Blade} (hb : s.blade? n = some b) : ∃ advisory exhausted : Bool, ∀ m,
    (s.testHealth n).blade? m =
      if m = n then some { b with advisoryNoticed := advisory, exhaustedNoticed := exhausted } else s.blade? m := by
  refine ⟨b.advisoryNoticed || (decide (b.life * 900 ≤ b.wear) && !b.advisoryNoticed),
    b.exhaustedNoticed || (b.health == .exhausted && !b.exhaustedNoticed), fun m => ?_⟩
  simp only [State.testHealth, hb, raiseIf_blade?]
  refine (updateBlade_blade? s n _ m).trans ?_
  split
  · next hm => subst hm; rw [hb]; rfl
  · rfl

/-- Wear accrued on a blade on record (R140, R141): the charge handed back, the record, the others as they were. -/
theorem accrueWear_spec {n : Nat} {b : Blade} (hb : s.blade? n = some b) (p h : Nat) :
    (s.accrueWear n p h).1 = b.chargeFor p h ∧ ∃ advisory exhausted : Bool, ∀ m, (s.accrueWear n p h).2.blade? m =
      if m = n then some { b.accrue p h with advisoryNoticed := advisory, exhaustedNoticed := exhausted }
      else s.blade? m := by
  have hworn (m : Nat) : (s.updateBlade n (Blade.accrue p h)).blade? m =
      if m = n then (s.blade? m).map (Blade.accrue p h) else s.blade? m := updateBlade_blade? s n _ m
  obtain ⟨advisory, exhausted, htest⟩ := testHealth_blade? ((hworn n).trans (by rw [if_pos rfl, hb]; rfl))
  simp only [State.accrueWear, hb]
  refine ⟨trivial, advisory, exhausted, fun m => (htest m).trans ?_⟩
  split
  · rfl
  · next hm => rw [hworn, if_neg hm]

/-- The wear, the blade charge and the blade table of a segment of a saw with a blade (R107 step 1). -/
theorem chargeWear_spec {n h progress : Nat} {b : Blade} {p : Plan} (hp : s.headPlan? w = some p)
    (hn : (s.saw w).blade = some n) (hb : s.blade? n = some b) (hh : s.headHardness w = h) :
    (∀ m, (s.chargeWear w progress).job? m =
      if m = p.job then (s.job? m).map (Job.charged (Job.chargeBlade (b.chargeFor progress h))) else s.job? m) ∧
    ∃ advisory exhausted : Bool, ∀ m, (s.chargeWear w progress).blade? m =
      if m = n then some { b.accrue progress h with advisoryNoticed := advisory, exhaustedNoticed := exhausted }
      else s.blade? m := by
  obtain ⟨hcharge, advisory, exhausted, hblade⟩ := accrueWear_spec hb progress h
  have hwear : s.chargeWear w progress =
      (s.accrueWear n progress h).2.chargeHead w (Job.chargeBlade (b.chargeFor progress h)) := by
    simp only [State.chargeWear, hn, hh, hcharge]
  have hhead : (s.accrueWear n progress h).2.headPlan? w = some p :=
    (headPlan?_congr (by simp [State.saw]) (by simp)).trans hp
  rw [hwear]
  refine ⟨fun m => ?_, advisory, exhausted, fun m => (blade?_congr (by simp) m).trans (hblade m)⟩
  rw [chargeHead_job? hhead (chargeBlade_moneyOnly _), job?_congr (State.accrueWear_jcu s n progress h)]

theorem chargeWear_none (h : (s.saw w).blade = none) (progress : Nat) : s.chargeWear w progress = s := by
  simp only [State.chargeWear, h]

/-- A job after the saw-time and water charges of a segment (R107 steps 3 and 4). -/
def Job.metered (rate waterRate : Nat) (m : Meters) (j : Job) : Job :=
  (j.charged (Job.chargeSawTime rate m.time)).charged (Job.chargeWater waterRate m.volume)

theorem closeSegment_job? {p : Plan} (hp : s.headPlan? w = some p) (position m : Nat) :
    (s.closeSegment w position).job? m =
      if m = p.job then ((s.chargeWear w (s.progress w position)).job? m).map
        (Job.metered (s.saw w).rate s.wau.settings.waterRate (s.saw w).meters)
      else (s.chargeWear w (s.progress w position)).job? m := by
  let worn := (s.chargeWear w (s.progress w position)).updateSaw w fun r => { r with meters := r.meters.settle }
  have hworn : worn.headPlan? w = some p :=
    (updateSaw_headPlan? ..).trans
      ((headPlan?_congr ((Kept.chargeWear s w (s.progress w position)).queue w) (by simp)).trans hp)
  let timed := worn.chargeHead w (Job.chargeSawTime (s.saw w).rate (s.saw w).meters.time)
  have htimed : timed.headPlan? w = some p :=
    (headPlan?_congr ((Kept.chargeHead worn w _).queue w) (State.chargeHead_pln worn w _)).trans hworn
  have hwater : timed.wau = s.wau := by simp [timed, worn]
  have hclosed : (s.closeSegment w position).job? m =
      (timed.chargeHead w (Job.chargeWater timed.wau.settings.waterRate (s.saw w).meters.volume)).job? m := rfl
  rw [hclosed, hwater, chargeHead_job? htimed (chargeWater_moneyOnly _ _),
    chargeHead_job? hworn (chargeSawTime_moneyOnly _ _)]
  split
  · rw [Option.map_map]; rfl
  · rfl

theorem closeSegment_blade? (position m : Nat) :
    (s.closeSegment w position).blade? m = (s.chargeWear w (s.progress w position)).blade? m :=
  blade?_congr (by simp [State.closeSegment]) m

/-- A charge turns an OPEN job ACTIVE and leaves no job OPEN (R188, R198). -/
theorem charged_state_active {f : Job → Job} {j : Job} (h : (f j).state = .opened ∨ (f j).state = .active) :
    (j.charged f).state = .active := by
  rcases h with h | h <;> simp [Job.charged, Job.activate, h]

/-- What closing a segment leaves beside the blades, the jobs and the notices: the saw's own record (R107, R114, R164). -/
theorem closeSegment_frame (s : State) (w : Saw) (position : Nat) : s.closeSegment w position =
    { s with bld := (s.closeSegment w position).bld, jcu := (s.closeSegment w position).jcu,
             olc := (s.closeSegment w position).olc,
             sdp := { s.sdp with saws := s.sdp.saws.set w (s.saw w).segmentClosed } } :=
  State.ext_blocks (by simp) (by simp) (closeSegment_sdp s w position) rfl (by simp) (by simp) rfl rfl (by simp) (by simp)

theorem progress_eq {p : Plan} {q : Pass} (ha : s.activePass? w = some (p, q)) (position : Nat) :
    s.progress w position = min position q.length - (s.saw w).meters.startAt := by
  simp only [State.progress, State.activeLength, ha, Option.elim_some]

end SegmentCharges

/-- Settles O25: the blade and its charge by `chargeWear_spec`, the other two charges by `closeSegment_job?`. -/
theorem segmentClosed : Obligations.SegmentClosed := by
  constructor
  · intro s w position n b p q r j ha hn hb hr hj m progress h increase cost u v closed
    obtain ⟨hp, -⟩ := activePass?_some ha
    have hhard : s.headHardness w = h := by simp only [State.headHardness, hp, hr, Option.elim_some, h]
    obtain ⟨hjob, advisory, exhausted, hblade⟩ := chargeWear_spec (progress := progress) hp hn hb hhard
    have hjobs (k : Nat) := closeSegment_job? hp position k
    have hblades (k : Nat) := closeSegment_blade? (s := s) (w := w) position k
    simp only [progress_eq ha] at hjobs hblades
    have hworn := (hblades n).trans ((hblade n).trans (if_pos rfl))
    have hcharged := (hjobs p.job).trans (if_pos rfl)
    rw [hjob, if_pos rfl, hj] at hcharged
    refine ⟨_, _, _, rfl, hworn, rfl, rfl, rfl, fun k hk => (hblades k).trans ((hblade k).trans (if_neg hk)), hcharged,
      rfl, rfl, rfl, rfl, rfl, rfl, fun hopen => ?_, fun k hk => ?_, closeSegment_frame s w position⟩
    · exact charged_state_active (.inr (charged_state_active (.inr (charged_state_active (.inl hopen)))))
    · rw [hjobs, if_neg hk, hjob, if_neg hk]
  · intro s w position p q j ha hn hj m u v closed
    obtain ⟨hp, -⟩ := activePass?_some ha
    have hjobs (k : Nat) := closeSegment_job? hp position k
    simp only [chargeWear_none hn] at hjobs
    have hbld : (s.closeSegment w position).bld = s.bld := by simp [State.closeSegment, chargeWear_none hn]
    have hframe := closeSegment_frame s w position
    rw [hbld] at hframe
    exact ⟨_, _, rfl, (hjobs p.job).trans ((if_pos rfl).trans (congrArg (Option.map _) hj)), rfl, rfl, rfl, rfl, rfl, rfl,
      fun k hk => (hjobs k).trans (if_neg hk), hframe⟩

end Sys2Proof.Machine
end

section
/-! PROOFS. A fault in a cut and the interlock input (05_saw_links_and_pass_dispatch.md, 06_holds_faults_and_resumption.md): the
context written, the segment closed and the water given up, and the statement about the interlock. -/

namespace Sys2Proof.Machine

/-! ## What other saws leave of a head plan -/

section Unmoved

variable {s t : State} {w : Saw} {n : Nat} {p : Plan} {q : Pass}

theorem Unmoved.headPlan? (h : Unmoved w n s t) (hp : s.headPlan? w = some p) (hn : p.number = n) :
    t.headPlan? w = some p := by
  subst hn
  obtain ⟨hhead, hplan⟩ := headPlan?_some hp
  exact headPlan?_of_head (by rw [h.saw, hhead]) (h.plan.trans hplan)

theorem Unmoved.activePass? (h : Unmoved w n s t) (ha : s.activePass? w = some (p, q)) (hn : p.number = n) :
    t.activePass? w = some (p, q) := by
  obtain ⟨hp, hq⟩ := activePass?_some ha
  exact activePass?_of_head (h.headPlan? hp hn) hq

/-- The agreement of the water records and the saw states is kept by an update that keeps the saw's state. -/
theorem Agree.updateSaw {D : Saw → Prop} (h : Agree D s) (w : Saw) (f : SawRec → SawRec)
    (hf : ∀ r, (f r).state = r.state := by intro; rfl) : Agree D (s.updateSaw w f) :=
  h.congr rfl (State.states_updateSaw_keep s w f hf) rfl

end Unmoved

/-! ## A fault in a cut (R120) -/

section FaultInCut

variable {s : State} {w : Saw} {p : Plan} {q : Pass}

/-- The context written for a saw whose head plan has an ACTIVE pass (R113). -/
theorem writeContext_eq (ha : s.activePass? w = some (p, q)) (kind : ContextKind) (cause : Option Cause) (faults : Nat) :
    s.writeContext w kind cause faults = s.updateSaw w fun r =>
      { r with context := some ⟨kind, cause,
          some ⟨p.number, q.index, s.activeTag? w, q.reached, q.length - q.reached⟩, r.passTime, faults⟩ } := by
  simp only [State.writeContext, State.passPart?, ha, Option.map_some]

theorem reportReached_eq (ha : s.activePass? w = some (p, q)) (position : Nat) :
    s.reportReached w position = s.updatePass p.number q.index (Pass.reach position) := by
  simp only [State.reportReached, ha]

theorem reportReached_activePass? (ha : s.activePass? w = some (p, q)) (position : Nat) :
    (s.reportReached w position).activePass? w = some (p.updatePass q.index (Pass.reach position), q.reach position) := by
  obtain ⟨hp, hq⟩ := activePass?_some ha
  rw [reportReached_eq ha]
  exact activePass?_of_head (updatePlan_headPlan? hp _) (updatePass_activePass? (fun _ => rfl) hq)

/-- The steps of a fault in a cut up to the water: the hold timer stopped, the position reported, the segment closed at it. -/
def State.faultClosed (s : State) (w : Saw) (position : Nat) : State :=
  ((s.updateSaw w fun r => { r with holdTimer := none }).reportReached w position).closeSegment w position

variable {position : Nat}

theorem faultClosed_eq (ha : s.activePass? w = some (p, q)) : s.faultClosed w position =
    ((s.updateSaw w fun r => { r with holdTimer := none }).updatePass p.number q.index
      (Pass.reach position)).closeSegment w position := by
  rw [State.faultClosed, reportReached_eq ((updateSaw_activePass? ..).trans ha)]

theorem faultClosed_kept : Kept s (s.faultClosed w position) := by
  unfold State.faultClosed
  refine Kept.trans ?_ (Kept.closeSegment ..)
  exact Kept.trans (Kept.updateSaw _ _ (by intro; rfl)) (Kept.reportReached ..)

theorem faultClosed_wau : (s.faultClosed w position).wau = s.wau := by simp [State.faultClosed]

theorem faultClosed_saw : (s.faultClosed w position).saw w = { (s.saw w).segmentClosed with holdTimer := none } := by
  have hreported : ((s.updateSaw w fun r => { r with holdTimer := none }).reportReached w position).saw w =
      { s.saw w with holdTimer := none } := by
    rw [State.saw, State.reportReached_sdp]
    exact State.saw_updateSaw_same ..
  rw [State.faultClosed, closeSegment_saw, hreported]
  rfl

theorem faultClosed_activePass? (ha : s.activePass? w = some (p, q)) : (s.faultClosed w position).activePass? w =
    some (p.updatePass q.index (Pass.reach position), q.reach position) :=
  (activePass?_congr ((Kept.closeSegment _ w position).queue w) (State.closeSegment_pln ..)).trans
    (reportReached_activePass? ((updateSaw_activePass? ..).trans ha) position)

theorem faultClosed_agree {D : Saw → Prop} (h : Agree D s) : Agree D (s.faultClosed w position) :=
  (h.updateSaw w fun r => { r with holdTimer := none }).congr (by simp [State.faultClosed])
    (fun v => by simp [State.faultClosed]) (by simp [State.faultClosed])

/-- A fault in a cut gives the water up between the segment and the context (R120). -/
theorem faultInCut_eq (hx : (s.saw w).state = .cutting ∨ (s.saw w).state = .holding) (cause : Cause) :
    s.faultInCut State.runPass w position cause =
      (((((s.faultClosed w position).waterGivenUp w).faultBlade w cause).writeContext w .fault (some cause) 1).setSawState w
        .faulted).raise .sawFault := by
  rw [← leaveWater_eq_waterGivenUp (by rw [faultClosed_saw]; exact hx)]
  rfl

theorem faultClosed_unmoved (hl : LineApart w p.number s) :
    Unmoved w p.number (s.faultClosed w position) ((s.faultClosed w position).waterGivenUp w) :=
  waterGivenUp_unmoved (hl.of_queue faultClosed_wau faultClosed_kept.queue)

/-- The saw's record after a fault in a cut: its segment closed, FAULTED, with a FAULT context of its ACTIVE pass (R113,
R120). -/
theorem faultInCut_saw (hl : LineApart w p.number s) (ha : s.activePass? w = some (p, q))
    (hx : (s.saw w).state = .cutting ∨ (s.saw w).state = .holding) (cause : Cause) :
    (s.faultInCut State.runPass w position cause).saw w = { (s.saw w).segmentClosed with
      holdTimer := none, state := .faulted
      context := some ⟨.fault, some cause, some ⟨p.number, q.index, s.activeTag? w, (q.reach position).reached,
        q.length - (q.reach position).reached⟩, (s.saw w).segmentClosed.passTime, 1⟩ } := by
  let left := ((s.faultClosed w position).waterGivenUp w).faultBlade w cause
  have hstay := faultClosed_unmoved (position := position) hl
  have hleft : left.saw w = { (s.saw w).segmentClosed with holdTimer := none } := by
    rw [State.saw, State.faultBlade_sdp]
    exact hstay.saw.trans faultClosed_saw
  have hactive : left.activePass? w = some (p.updatePass q.index (Pass.reach position), q.reach position) := by
    refine (activePass?_congr (by rw [State.saw, State.faultBlade_sdp]; rfl) (State.faultBlade_pln ..)).trans ?_
    exact hstay.activePass? (faultClosed_activePass? ha) rfl
  have htag : left.activeTag? w = s.activeTag? w := by
    rw [activeTag?_eq hactive, activeTag?_eq ha, hleft]
    rfl
  rw [faultInCut_eq hx, State.saw_raise, State.setSawState, State.saw_updateSaw_same, writeContext_eq hactive,
    State.saw_updateSaw_same, hleft, htag]
  rfl

/-- The water records, the jobs and the blades after a fault in a cut that is no OVERLOAD: those of the water given up. -/
theorem faultInCut_blocks (hx : (s.saw w).state = .cutting ∨ (s.saw w).state = .holding) {cause : Cause}
    (hc : cause ≠ .overload) :
    (s.faultInCut State.runPass w position cause).wau = ((s.faultClosed w position).waterGivenUp w).wau ∧
      (s.faultInCut State.runPass w position cause).jcu = ((s.faultClosed w position).waterGivenUp w).jcu ∧
      (s.faultInCut State.runPass w position cause).bld = ((s.faultClosed w position).waterGivenUp w).bld := by
  have hblade (t : State) : t.faultBlade w cause = t := by
    unfold State.faultBlade
    split
    · exact absurd rfl hc
    · rfl
  rw [faultInCut_eq hx, hblade]
  simp

end FaultInCut

/-! ## The interlock input (R101, R121) -/

section Interlock

variable {s : State} {w : Saw}

theorem interlockDrop_outside (hc : (s.saw w).state ≠ .cutting) (hh : (s.saw w).state ≠ .holding) :
    interlockDrop w s = s.updateSaw w fun r => { r with interlock := false } := by
  cases hlock : (s.saw w).interlock with
  | false =>
    have hfixed : s.updateSaw w (fun r => { r with interlock := false }) = s :=
      updateSaw_of_fixed (show { s.saw w with interlock := false } = s.saw w by rw [← hlock])
    rw [hfixed, interlockDrop, hlock]
    rfl
  | true =>
    have hout : (s.saw w).state.inCut = false := Bool.eq_false_iff.2 (SawState.inCut_iff.not.2 (not_or.2 ⟨hc, hh⟩))
    simp [interlockDrop, hlock, hout]

theorem interlockDrop_inCut (hlock : (s.saw w).interlock = true)
    (hx : (s.saw w).state = .cutting ∨ (s.saw w).state = .holding) {p : Plan} {q : Pass}
    (ha : s.activePass? w = some (p, q)) : interlockDrop w s =
      (s.updateSaw w fun r => { r with interlock := false }).faultInCut State.runPass w q.reached .safety := by
  have hreached := reached_eq ((updateSaw_activePass? s w fun r => { r with interlock := false }).trans ha)
  simp only [interlockDrop, hlock, State.saw_updateSaw_same, SawState.inCut_iff.2 hx, hreached, if_true]

/-- A pass reported at its own reached stays there. -/
theorem reach_self (q : Pass) : q.reach q.reached = q := by
  have hreached : max q.reached (min q.reached q.length) = q.reached := by omega
  simp only [Pass.reach, hreached]

end Interlock

/-- Settles O30: a drop in a cut is a fault at the reached (`faultInCut_saw`), and the stopped saw stands in no water record. -/
theorem interlockInput : Obligations.InterlockInput := by
  intro s w hr
  refine ⟨event_running hr _, fun hc hh => (event_running hr _).trans (congrArg _ (interlockDrop_outside hc hh)),
    fun p q hlock hq hw ha hx => ?_⟩
  intro closed
  let dropped := s.updateSaw w fun r => { r with interlock := false }
  have hsaw : dropped.saw w = { s.saw w with interlock := false } := State.saw_updateSaw_same ..
  have hactive : dropped.activePass? w = some (p, q) := (updateSaw_activePass? ..).trans ha
  have htag : dropped.activeTag? w = s.activeTag? w := by rw [activeTag?_eq hactive, activeTag?_eq ha, hsaw]
  have hcutting : (dropped.saw w).state = .cutting ∨ (dropped.saw w).state = .holding := by rw [hsaw]; exact hx
  have hline : LineApart w p.number dropped :=
    (lineApart_of_laws hq hw (activePass?_some ha).1 hx).of_queue rfl (updateSaw_queue s w _)
  have hclosed : dropped.faultClosed w q.reached = closed := by
    rw [faultClosed_eq hactive, updateSaw_updateSaw]
    rfl
  obtain ⟨hwau, hjcu, hbld⟩ := faultInCut_blocks (position := q.reached) hcutting (cause := .safety) nofun
  have hgone := (faultClosed_agree (position := q.reached) ((hw.agree hr).updateSaw w fun r =>
    { r with interlock := false })).waterGivenUp (w := w) (by rw [faultClosed_saw]; exact hcutting)
  have hfault := faultInCut_saw (position := q.reached) hline hactive hcutting .safety
  rw [hsaw, htag, reach_self] at hfault
  rw [hclosed] at hjcu hbld
  obtain ⟨hallot, hpermit, -, -⟩ := hgone
  exact ⟨_, (event_running hr _).trans (congrArg _ (interlockDrop_inCut hlock hx ha)), congrArg SawRec.interlock hfault,
    congrArg SawRec.state hfault, hjcu, hbld, congrArg SawRec.context hfault, by rw [hwau]; exact hallot,
    by rw [hwau]; exact hpermit, by simp, by simp, by simp⟩

end Sys2Proof.Machine
end

section
/-! PROOFS. HELLO and the loss of a link (05_saw_links_and_pass_dispatch.md, 06_holds_faults_and_resumption.md): the link lost
in each state of the saw, the saw woken with its head, and the statement about HELLO. -/

namespace Sys2Proof.Machine

/-! ## The window dropped (R91, R122) -/

section Window

variable {s : State} {w : Saw} {p : Plan} {q : Pass}

theorem dropWindow_saw (s : State) (w : Saw) : (s.dropWindow w).saw w = { s.saw w with outstanding := [] } := by
  unfold State.dropWindow
  split <;> exact State.saw_updateSaw_same ..

theorem dropWindow_headPlan?_none (hp : s.headPlan? w = none) : (s.dropWindow w).headPlan? w = none := by
  simp only [State.dropWindow, hp]
  exact (updateSaw_headPlan? ..).trans hp

theorem dropWindow_headPlan? (hp : s.headPlan? w = some p) : (s.dropWindow w).headPlan? w =
    some (p.giveBackThese ((s.saw w).outstanding.map Outstanding.index)) := by
  simp only [State.dropWindow, hp]
  exact (updateSaw_headPlan? ..).trans (updatePlan_headPlan? hp _)

/-- Passes returned to PENDING were STAGED: the ACTIVE pass stays. -/
theorem giveBackThese_activePass? (held : List Nat) (p : Plan) :
    (p.giveBackThese held).activePass? = p.activePass?.map fun q => if held.contains q.index then q.giveBack else q := by
  have hpasses : (p.giveBackThese held).passes = p.passes.map fun q => if held.contains q.index then q.giveBack else q := by
    unfold Plan.passes Plan.giveBackThese
    cases p.derived <;> rfl
  rw [Plan.activePass?, hpasses]
  refine find?_active_map (fun x => ?_) p.passes
  split
  · cases hx : x.state <;> simp [Pass.giveBack, hx]
  · rfl

theorem giveBackThese_active (held : List Nat) (hq : p.activePass? = some q) :
    (p.giveBackThese held).activePass? = some q := by
  have hstays : q.giveBack = q := by
    cases q
    obtain rfl := activePass?_state hq
    rfl
  rw [giveBackThese_activePass?, hq, Option.map_some, hstays, ite_self]

end Window

/-! ## The head loaded, the saw woken (R90, R93, R126) -/

section Wake

variable {s : State} {w : Saw} {p : Plan} {q : Pass}

theorem loadable_of_live (hs : p.state = .released ∨ p.state = .cutting)
    (hno : p.state ≠ .cutting ∨ p.activePass? = none) : p.loadable = true := by
  rcases hs with h | h
  · simp [Plan.loadable, h]
  · simp [Plan.loadable, h, hno.resolve_left (not_not.2 h)]

theorem loadHead_saw (hup : (s.saw w).link = .up) (hx : (s.saw w).state = .idle) (hp : s.headPlan? w = some p)
    (hload : p.loadable = true) (hr : s.slab? p.slab ≠ none) :
    (s.loadHead w).saw w = { s.saw w with pendingLoad := some p.number, state := .loading } := by
  obtain ⟨r, hr⟩ := Option.ne_none_iff_exists'.1 hr
  have hloaded : s.loadHead w = (s.send w (loadFrame p r)).updateSaw w fun x =>
      { x with pendingLoad := some p.number, state := .loading } := by
    simp only [State.loadHead, hup, hx, and_self, if_true, hp, hload, hr]
  rw [hloaded]
  exact State.saw_updateSaw_same ..

theorem loadHead_none (hp : s.headPlan? w = none) : s.loadHead w = s := by
  simp only [State.loadHead, hp, ite_self]

theorem setSawState_headPlan? (s : State) (w : Saw) (x : SawState) : (s.setSawState w x).headPlan? w = s.headPlan? w :=
  updateSaw_headPlan? ..

theorem wake_none (hp : s.headPlan? w = none) : s.wake w = s.setSawState w .idle := by
  have hidle : (s.setSawState w .idle).headPlan? w = none := (setSawState_headPlan? ..).trans hp
  simp [State.wake, hidle, loadHead_none hidle]

/-- A head plan without an ACTIVE pass is loaded. -/
theorem wake_load (hp : s.headPlan? w = some p) (hno : p.state ≠ .cutting ∨ p.activePass? = none) :
    s.wake w = (s.setSawState w .idle).loadHead w := by
  have hidle : (s.setSawState w .idle).headPlan? w = some p := (setSawState_headPlan? ..).trans hp
  have hfresh : (p.state == .cutting && p.activePass?.isSome) = false := by
    rcases hno with h | h <;> simp [h]
  simp [State.wake, hidle, hfresh]

/-- A head plan left with an ACTIVE pass makes a LINK context of it, without a tag. -/
theorem wake_active (hc : p.state = .cutting) (ha : s.activePass? w = some (p, q)) : s.wake w = s.updateSaw w fun r =>
    { r with state := .faulted
             context := some ⟨.link, some .linkLost,
               some ⟨p.number, q.index, none, q.reached, q.length - q.reached⟩, r.passTime, 1⟩ } := by
  obtain ⟨hp, hq⟩ := activePass?_some ha
  have hidle : (s.setSawState w .idle).headPlan? w = some p := (setSawState_headPlan? ..).trans hp
  have hactive : (s.setSawState w .idle).activePass? w = some (p, q) := activePass?_of_head hidle hq
  simp only [State.wake, hidle, Option.elim_some, hc, hq, Option.isSome_some, beq_self_eq_true, Bool.and_self, if_true,
    State.passPart?, hactive, Option.map_some]
  simp only [State.setSawState, updateSaw_updateSaw]

end Wake

/-! ## The link lost and found (R90, R91, R122) -/

section Link

variable {s : State} {w : Saw} {p : Plan} {q : Pass} {n : Nat}

/-- The link DOWN, with its notice. -/
def State.linkDown (s : State) (w : Saw) : State := (s.updateSaw w fun r => { r with link := .down }).raise .sawLink

/-- The link UP, with its notice. -/
def State.linkRaised (s : State) (w : Saw) : State := (s.updateSaw w fun r => { r with link := .up }).raise .sawLink

theorem linkDown_saw (s : State) (w : Saw) : (s.linkDown w).saw w = { s.saw w with link := .down } :=
  State.saw_updateSaw_same s w fun r => { r with link := .down }

theorem linkRaised_saw (s : State) (w : Saw) : (s.linkRaised w).saw w = { s.saw w with link := .up } :=
  State.saw_updateSaw_same s w fun r => { r with link := .up }

theorem linkDown_queue (s : State) (w v : Saw) : ((s.linkDown w).saw v).queue = (s.saw v).queue :=
  updateSaw_queue s w (fun r => { r with link := .down }) (by intro; rfl) v

theorem linkRaised_headPlan? (s : State) (w : Saw) : (s.linkRaised w).headPlan? w = s.headPlan? w :=
  updateSaw_headPlan? s w fun r => { r with link := .up }

theorem linkUp_offline (hx : (s.saw w).state = .offline) : s.linkUp w = (s.linkRaised w).wake w := by
  simp only [State.linkUp, State.saw_raise, State.saw_updateSaw_same, hx]
  rfl

theorem linkUp_other (hx : (s.saw w).state ≠ .offline) : s.linkUp w = s.linkRaised w := by
  unfold State.linkUp
  dsimp only
  split
  · next h => exact absurd ((congrArg SawRec.state (linkRaised_saw s w)).symm.trans h) hx
  · rfl

/-- SAW_LINK, notice 2, is pending once a link has come UP. -/
theorem linkUp_notice (s : State) (w : Saw) : (s.linkUp w).olc.pending &&& 4#16 = 4#16 := by
  have hraised : (s.linkRaised w).olc.pending &&& 4#16 = 4#16 := by
    show (s.olc.pending ||| 4#16) &&& 4#16 = 4#16
    ext i hi
    simp only [BitVec.getElem_and, BitVec.getElem_or]
    cases (4#16)[i] <;> simp
  by_cases hx : (s.saw w).state = .offline
  · rw [linkUp_offline hx, State.wake_olc]
    exact hraised
  · rw [linkUp_other hx]
    exact hraised

theorem loseLink_faulted (hx : (s.saw w).state = .faulted) :
    s.loseLink w = ((s.linkDown w).dropWindow w).updateSaw w fun r => { r with pendingLoad := none } := by
  simp only [State.loseLink, State.saw_raise, State.saw_updateSaw_same, hx]
  rfl

theorem loseLink_held (hx : (s.saw w).state = .held) :
    s.loseLink w = ((s.linkDown w).removeFromLine w).linkContext w := by
  simp only [State.loseLink, State.saw_raise, State.saw_updateSaw_same, hx]
  rfl

/-- In a cut the segment is closed at the pass's reached and the water given up (R122). -/
theorem loseLink_cut (hx : (s.saw w).state = .cutting ∨ (s.saw w).state = .holding)
    (ha : s.activePass? w = some (p, q)) : s.loseLink w = ((((s.linkDown w).updateSaw w fun r =>
      { r with holdTimer := none }).closeSegment w q.reached).waterGivenUp w).linkContext w := by
  have hactive : ((s.linkDown w).updateSaw w fun r => { r with holdTimer := none }).activePass? w = some (p, q) :=
    (updateSaw_activePass? ..).trans ((updateSaw_activePass? s w fun r => { r with link := .down }).trans ha)
  rw [← leaveWater_eq_waterGivenUp (by rw [closeSegment_saw, State.saw_updateSaw_same, linkDown_saw]; exact hx)]
  rcases hx with hx | hx
  all_goals
    simp only [State.loseLink, State.saw_raise, State.saw_updateSaw_same, hx, State.stopCut]
    rw [← reached_eq hactive]
    rfl

/-! ### What a removal from the line leaves of the saw -/

/-- No other saw has the plan at the head of its queue. -/
def HeadsNoOther (w : Saw) (n : Nat) (s : State) : Prop := ∀ v, v ≠ w → (s.saw v).queue.head? ≠ some n

theorem headsNoOther_of_headPlan? (hq : QueueLaw s) (hp : s.headPlan? w = some p) : HeadsNoOther w p.number s := by
  obtain ⟨hhead, hplan⟩ := headPlan?_some hp
  have hnames {v : Saw} (hv : (s.saw v).queue.head? = some p.number) : p.saw = some v := by
    obtain ⟨p', hp', hsaw, -⟩ := hq.queued v p.number (List.mem_of_head? hv)
    obtain rfl : p = p' := Option.some.inj (hplan.symm.trans hp')
    exact hsaw
  exact fun v hne hv => hne (Option.some.inj ((hnames hv).symm.trans (hnames hhead)))

/-- A plan at the head of a queue is RELEASED or CUTTING. -/
theorem headPlan?_live (hq : QueueLaw s) (hp : s.headPlan? w = some p) : p.state = .released ∨ p.state = .cutting := by
  obtain ⟨hhead, hplan⟩ := headPlan?_some hp
  obtain ⟨p', hp', -, hlive⟩ := hq.queued w p.number (List.mem_of_head? hhead)
  obtain rfl : p = p' := Option.some.inj (hplan.symm.trans hp')
  exact hlive

/-- A queue whose head names no plan on record is empty. -/
theorem queue_nil_of_headPlan?_none (hq : QueueLaw s) (hp : s.headPlan? w = none) : (s.saw w).queue = [] := by
  cases hqueue : (s.saw w).queue with
  | nil => rfl
  | cons n ns =>
    obtain ⟨p, hplan, -⟩ := hq.queued w n (hqueue ▸ .head _)
    rw [headPlan?_of_head (by rw [hqueue]; rfl) hplan] at hp
    cases hp

/-- Some number heads no queue. -/
theorem exists_headsNoOther (s : State) (w : Saw) : ∃ n, HeadsNoOther w n s := by
  let head (v : Saw) : Nat := ((s.saw v).queue.head?).getD 0
  refine ⟨head .saw1 + head .saw2 + head .saw3 + head .saw4 + 1, fun v _ hv => ?_⟩
  have hhead : head v = _ := congrArg (Option.getD · 0) hv
  cases v <;> simp only [Option.getD_some] at hhead <;> omega

theorem HeadsNoOther.of_queue {t : State} (h : HeadsNoOther w n s) (hq : ∀ v, (t.saw v).queue = (s.saw v).queue) :
    HeadsNoOther w n t := fun v hne => by rw [hq]; exact h v hne

/-- The pass after a removal moves other saws alone (R183). -/
theorem removeFromLine_unmoved (h : HeadsNoOther w n s) : Unmoved w n s (s.removeFromLine w) := by
  unfold State.removeFromLine
  split
  · have hremoved : Unmoved w n s (s.withWau (Admission.remove w)) :=
      ⟨rfl, rfl, fun _ => rfl, fun e he => (List.mem_filter.1 he).1, fun _ => rfl⟩
    refine hremoved.trans (admissionPass_spares w n _ _ fun e he => ?_)
    have hne : e.saw ≠ w := by simpa using (List.mem_filter.1 he).2
    exact ⟨hne, h e.saw hne⟩
  · exact .refl w n s

/-- A saw outside a cut goes OFFLINE, a WAITING one once it has left the line (R91). -/
theorem loseLink_outside (h : HeadsNoOther w n s)
    (hx : (s.saw w).state = .idle ∨ (s.saw w).state = .loading ∨ (s.saw w).state = .primed ∨ (s.saw w).state = .waiting) :
    ∃ t, s.loseLink w = t.goOffline w ∧ Unmoved w n (s.linkDown w) t := by
  rcases hx with hx | hx | hx | hx
  case inr.inr.inr =>
    refine ⟨_, ?_, removeFromLine_unmoved (h.of_queue (linkDown_queue s w))⟩
    simp only [State.loseLink, State.saw_raise, State.saw_updateSaw_same, hx]
    rfl
  all_goals
    refine ⟨_, ?_, .refl w n _⟩
    simp only [State.loseLink, State.saw_raise, State.saw_updateSaw_same, hx]
    rfl

end Link

/-! ## A controller that restarts (R90) -/

section Restart

variable {s : State} {w : Saw} {p : Plan} {q : Pass}

theorem exec_hello (w : Saw) (maxFeed : Nat) (s : State) : exec (.hello w maxFeed) s = event (hello w maxFeed) s := rfl

/-- The saw's record as HELLO finds it, its max feed written (R90). -/
def State.greeted (s : State) (w : Saw) (maxFeed : Nat) : State :=
  (s.acked w Kind.hello .ok).updateSaw w fun r => { r with maxFeed := max 100 (min 6000 maxFeed) }

theorem clamp_eq {lo hi n : Nat} (h : lo ≤ hi) : clamp lo hi n = max lo (min hi n) := by
  unfold clamp
  split
  · omega
  · split <;> omega

theorem greeted_saw (s : State) (w : Saw) (maxFeed : Nat) :
    (s.greeted w maxFeed).saw w = { s.saw w with heartbeat := 0, maxFeed := max 100 (min 6000 maxFeed) } := by
  rw [State.greeted, State.saw_updateSaw_same, acked_saw]

theorem greeted_queue (s : State) (w : Saw) (maxFeed : Nat) (v : Saw) :
    ((s.greeted w maxFeed).saw v).queue = (s.saw v).queue :=
  (updateSaw_queue (s.acked w Kind.hello .ok) w (fun r => { r with maxFeed := max 100 (min 6000 maxFeed) })
    (by intro; rfl) v).trans (acked_queue v)

theorem greeted_headPlan? (s : State) (w : Saw) (maxFeed : Nat) : (s.greeted w maxFeed).headPlan? w = s.headPlan? w :=
  headPlan?_congr (greeted_queue s w maxFeed w) rfl

theorem greeted_activePass? (s : State) (w : Saw) (maxFeed : Nat) :
    (s.greeted w maxFeed).activePass? w = s.activePass? w :=
  activePass?_congr (greeted_queue s w maxFeed w) rfl

theorem greeted_eq (s : State) (w : Saw) (maxFeed : Nat) :
    (((s.sawFrame w).send w (answerFrame Kind.hello .ok)).updateSaw w fun r =>
      { r with maxFeed := clamp 100 6000 maxFeed }) = s.greeted w maxFeed := by
  rw [clamp_eq (by decide)]
  rfl

theorem hello_down (hl : (s.saw w).link = .down) (maxFeed : Nat) :
    hello w maxFeed s = (s.greeted w maxFeed).linkUp w := by
  have hlink : ((s.greeted w maxFeed).saw w).link = .down := (congrArg SawRec.link (greeted_saw s w maxFeed)).trans hl
  simp only [hello, greeted_eq, hlink]

theorem hello_up (hl : (s.saw w).link = .up) (maxFeed : Nat) :
    hello w maxFeed s = ((s.greeted w maxFeed).loseLink w).linkUp w := by
  have hlink : ((s.greeted w maxFeed).saw w).link = .up := (congrArg SawRec.link (greeted_saw s w maxFeed)).trans hl
  simp only [hello, greeted_eq, hlink]

/-- The state a HELLO on an UP link leaves: silence first, then the link comes UP (R90). -/
def State.relinked (s : State) (w : Saw) (maxFeed : Nat) : State := ((s.greeted w maxFeed).loseLink w).linkUp w

/-- A saw's record as a restart of its controller leaves it, but for its state, its pending load and its context (R90). -/
def SawRec.restarted (maxFeed : Nat) (r : SawRec) : SawRec :=
  { r with link := .up, outstanding := [], maxFeed := max 100 (min 6000 maxFeed), heartbeat := 0 }

/-- The fields of a saw record that waking the saw leaves. -/
def SawRec.linkFields (r : SawRec) : LinkState × List Outstanding × Nat × Nat × Nat × List Nat :=
  (r.link, r.outstanding, r.maxFeed, r.heartbeat, r.nextTag, r.queue)

/-- What a restart leaves of the saw in every state: the link UP, the window empty, the max feed and the heartbeat as HELLO
writes them, the next tag and the queue; and SAW_LINK pending (R90). -/
def Restarted (s : State) (w : Saw) (maxFeed : Nat) (t : State) : Prop :=
  (t.saw w).link = .up ∧ (t.saw w).outstanding = [] ∧ (t.saw w).maxFeed = max 100 (min 6000 maxFeed) ∧
    (t.saw w).heartbeat = 0 ∧ (t.saw w).nextTag = (s.saw w).nextTag ∧ (t.saw w).queue = (s.saw w).queue ∧
    t.olc.pending &&& 4#16 = 4#16

theorem relinked_restarted {maxFeed : Nat}
    (h : ((s.relinked w maxFeed).saw w).linkFields = ((s.saw w).restarted maxFeed).linkFields) :
    Restarted s w maxFeed (s.relinked w maxFeed) := by
  simp only [SawRec.linkFields, Prod.mk.injEq] at h
  obtain ⟨hlink, hset, hfeed, hage, htag, hqueue⟩ := h
  exact ⟨hlink, hset, hfeed, hage, htag, hqueue, linkUp_notice _ w⟩

theorem loadHead_linkFields (s : State) (w : Saw) : ((s.loadHead w).saw w).linkFields = (s.saw w).linkFields := by
  unfold State.loadHead
  split
  · split
    · rfl
    · split
      · split
        · rfl
        · simp only [State.saw_updateSaw_same]
          rfl
      · rfl
  · rfl

theorem wake_linkFields (s : State) (w : Saw) : ((s.wake w).saw w).linkFields = (s.saw w).linkFields := by
  have hidle : ((s.setSawState w .idle).saw w).linkFields = (s.saw w).linkFields := by
    rw [State.setSawState, State.saw_updateSaw_same]
    rfl
  unfold State.wake
  dsimp only
  split
  · refine Eq.trans ?_ hidle
    simp only [State.setSawState, State.saw_updateSaw_same]
    rfl
  · exact (loadHead_linkFields ..).trans hidle

/-! ### Outside a cut (R91) -/

/-- A FAULTED saw stays so and keeps its context. -/
theorem relinked_faulted_saw (hx : (s.saw w).state = .faulted) (maxFeed : Nat) : (s.relinked w maxFeed).saw w =
    { (s.saw w).restarted maxFeed with pendingLoad := none } := by
  have hgreeted : ((s.greeted w maxFeed).saw w).state = .faulted := by rw [greeted_saw]; exact hx
  have hlost : ((s.greeted w maxFeed).loseLink w).saw w =
      { (s.saw w).restarted maxFeed with link := .down, pendingLoad := none } := by
    rw [loseLink_faulted hgreeted, State.saw_updateSaw_same, dropWindow_saw, linkDown_saw, greeted_saw]
    rfl
  have hstate : (((s.greeted w maxFeed).loseLink w).saw w).state = .faulted := (congrArg SawRec.state hlost).trans hx
  rw [State.relinked, linkUp_other (by rw [hstate]; exact nofun), linkRaised_saw, hlost]
  rfl

/-- A saw outside a cut is woken from OFFLINE, its head plan as it was but for the passes returned to PENDING. -/
theorem relinked_outside {n : Nat} (hn : HeadsNoOther w n s) (hx : (s.saw w).state = .idle ∨ (s.saw w).state = .loading ∨
    (s.saw w).state = .primed ∨ (s.saw w).state = .waiting) (maxFeed : Nat) :
    ∃ t : State, s.relinked w maxFeed = t.wake w ∧ t.stk = s.stk ∧
      t.saw w = { (s.saw w).restarted maxFeed with pendingLoad := none, state := .offline } ∧
      ∀ p, s.headPlan? w = some p → p.number = n → ∃ held, t.headPlan? w = some (p.giveBackThese held) := by
  obtain ⟨t, hlost, hstay⟩ := loseLink_outside (s := s.greeted w maxFeed) (hn.of_queue (greeted_queue s w maxFeed))
    (by rw [greeted_saw]; exact hx)
  have hoffline : (t.goOffline w).saw w =
      { (s.saw w).restarted maxFeed with link := .down, pendingLoad := none, state := .offline } := by
    rw [State.goOffline, State.saw_updateSaw_same, dropWindow_saw, hstay.saw, linkDown_saw, greeted_saw]
    rfl
  refine ⟨(t.goOffline w).linkRaised w, ?woken, ?stock, ?record, fun p hp hnumber => ?head⟩
  case woken => rw [State.relinked, hlost, linkUp_offline (congrArg SawRec.state hoffline)]
  case stock =>
    calc ((t.goOffline w).linkRaised w).stk
      _ = ((s.greeted w maxFeed).loseLink w).stk := by rw [hlost]; rfl
      _ = s.stk := State.loseLink_stk ..
  case record =>
    rw [linkRaised_saw, hoffline]
    rfl
  case head =>
    have hgreeted := (greeted_headPlan? s w maxFeed).trans hp
    have hdown := (updateSaw_headPlan? (s.greeted w maxFeed) w fun r => { r with link := .down }).trans hgreeted
    have ht : t.headPlan? w = some p := hstay.headPlan? hdown hnumber
    exact ⟨_, (linkRaised_headPlan? ..).trans ((updateSaw_headPlan? ..).trans (dropWindow_headPlan? ht))⟩

section Outside

variable (hq : QueueLaw s) (hx : (s.saw w).state = .idle ∨ (s.saw w).state = .loading ∨ (s.saw w).state = .primed ∨
  (s.saw w).state = .waiting) (maxFeed : Nat)

include hx in
theorem relinked_outside_restarted : Restarted s w maxFeed (s.relinked w maxFeed) := by
  obtain ⟨n, hn⟩ := exists_headsNoOther s w
  obtain ⟨t, hwake, -, hsaw, -⟩ := relinked_outside hn hx maxFeed
  refine relinked_restarted ?_
  rw [hwake, wake_linkFields, hsaw]
  rfl

include hq hx

/-- Without a head plan the saw is IDLE. -/
theorem relinked_alone_saw (hp : s.headPlan? w = none) : (s.relinked w maxFeed).saw w =
    { (s.saw w).restarted maxFeed with pendingLoad := none, state := .idle } := by
  obtain ⟨n, hn⟩ := exists_headsNoOther s w
  obtain ⟨t, hwake, -, hsaw, -⟩ := relinked_outside hn hx maxFeed
  have hqueue : (t.saw w).queue = [] := (congrArg SawRec.queue hsaw).trans (queue_nil_of_headPlan?_none hq hp)
  have hnone : t.headPlan? w = none := by simp only [State.headPlan?, hqueue]
  rw [hwake, wake_none hnone, State.setSawState, State.saw_updateSaw_same, hsaw]

variable {p : Plan} {q : Pass}

/-- A head plan without an ACTIVE pass is loaded. -/
theorem relinked_loads_saw (hp : s.headPlan? w = some p)
    (hno : p.state ≠ .cutting ∨ ∀ x ∈ p.passes, x.state ≠ .active) (hr : s.slab? p.slab ≠ none) : (s.relinked w maxFeed).saw w =
    { (s.saw w).restarted maxFeed with pendingLoad := some p.number, state := .loading } := by
  obtain ⟨t, hwake, hstk, hsaw, hhead⟩ := relinked_outside (headsNoOther_of_headPlan? hq hp) hx maxFeed
  obtain ⟨held, hheld⟩ := hhead p hp rfl
  have hnone : (p.giveBackThese held).state ≠ .cutting ∨ (p.giveBackThese held).activePass? = none :=
    hno.imp_right fun h => by rw [giveBackThese_activePass?, activePass?_eq_none.2 h]; rfl
  have hlive : (p.giveBackThese held).state = .released ∨ (p.giveBackThese held).state = .cutting :=
    headPlan?_live (p := p) hq hp
  have hidle : (t.setSawState w .idle).saw w = { (s.saw w).restarted maxFeed with pendingLoad := none, state := .idle } := by
    rw [State.setSawState, State.saw_updateSaw_same, hsaw]
  have hloaded := loadHead_saw (congrArg SawRec.link hidle) (congrArg SawRec.state hidle)
    ((setSawState_headPlan? ..).trans hheld) (loadable_of_live hlive hnone)
    ((slab?_congr (t := t.setSawState w .idle) hstk p.slab).trans_ne hr)
  rw [hwake, wake_load hheld hnone, hloaded, hidle]
  rfl

/-- A head plan left with an ACTIVE pass makes a LINK context of it. -/
theorem relinked_faults_saw (hc : p.state = .cutting) (ha : s.activePass? w = some (p, q)) :
    (s.relinked w maxFeed).saw w = { (s.saw w).restarted maxFeed with
      pendingLoad := none
      state := .faulted
      context := some ⟨.link, some .linkLost, some ⟨p.number, q.index, none, q.reached, q.length - q.reached⟩,
        (s.saw w).passTime, 1⟩ } := by
  obtain ⟨hp, hpass⟩ := activePass?_some ha
  obtain ⟨t, hwake, -, hsaw, hhead⟩ := relinked_outside (headsNoOther_of_headPlan? hq hp) hx maxFeed
  obtain ⟨held, hheld⟩ := hhead p hp rfl
  have hactive := activePass?_of_head hheld (giveBackThese_active held hpass)
  rw [hwake, wake_active (p := p.giveBackThese held) hc hactive, State.saw_updateSaw_same, hsaw]
  rfl

end Outside

/-! ### In a cut, or HELD (R122) -/

theorem linkContext_saw (ha : s.activePass? w = some (p, q)) : (s.linkContext w).saw w = { s.saw w with
    outstanding := [], state := .faulted
    context := some ⟨.link, some .linkLost,
      some ⟨p.number, q.index, s.activeTag? w, q.reached, q.length - q.reached⟩, (s.saw w).passTime, 1⟩ } := by
  rw [State.linkContext, State.setSawState, State.saw_updateSaw_same, dropWindow_saw, writeContext_eq ha,
    State.saw_updateSaw_same]

/-- The saw stands in no water record. -/
def OutOfWater (w : Saw) (s : State) : Prop :=
  s.wau.allotment.get w = none ∧ s.wau.permit.get w = false ∧ w ∉ s.wau.order ∧ ∀ e ∈ s.wau.line, e.saw ≠ w

/-- The saw's record once its work is stopped: a HELD saw's segment is closed already. -/
def SawRec.stopped (r : SawRec) : SawRec :=
  if r.state = .held then r else { r.segmentClosed with holdTimer := none }

/-- Steps 1 and 2 of link loss (R122) lead to `t`: the link DOWN, the work stopped, the saw out of the water, its ACTIVE pass as
it was. -/
structure LosesLink (w : Saw) (p : Plan) (q : Pass) (s t : State) : Prop where
  lost : s.loseLink w = t.linkContext w
  active : t.activePass? w = some (p, q)
  water : OutOfWater w t
  saw : t.saw w = { (s.saw w).stopped with link := .down }

theorem linkDown_agree (h : Agree (fun _ => False) s) : Agree (fun _ => False) (s.linkDown w) :=
  (h.updateSaw w fun r => { r with link := .down }).congr rfl (fun _ => rfl) rfl

theorem linkDown_activePass? (ha : s.activePass? w = some (p, q)) : (s.linkDown w).activePass? w = some (p, q) :=
  (updateSaw_activePass? s w fun r => { r with link := .down }).trans ha

/-- A HELD saw leaves the line, and with it the order. -/
theorem losesLink_of_held (h : Agree (fun _ => False) s) (hn : HeadsNoOther w p.number s) (ha : s.activePass? w = some (p, q))
    (hx : (s.saw w).state = .held) : LosesLink w p q s ((s.linkDown w).removeFromLine w) := by
  have hstay := removeFromLine_unmoved (hn.of_queue (linkDown_queue s w))
  have hstate : (s.linkDown w).states w = .held := (congrArg SawRec.state (linkDown_saw s w)).trans hx
  have hremoved := (linkDown_agree (w := w) h).removeFromLine (w := w) (by rw [hstate]; exact ⟨nofun, nofun⟩)
  obtain ⟨hallot, hpermit, horder, hline⟩ := hremoved.out w (.inr rfl)
  refine ⟨loseLink_held hx, hstay.activePass? (linkDown_activePass? ha) rfl,
    ⟨hallot, hpermit, horder, fun e he hw => hline e.kind (hw ▸ he)⟩, ?_⟩
  rw [hstay.saw, linkDown_saw, SawRec.stopped, if_pos hx]

/-- A saw in a cut closes its segment at the pass's reached and gives its water up. -/
theorem losesLink_of_cut (h : Agree (fun _ => False) s) (hl : LineApart w p.number s) (ha : s.activePass? w = some (p, q))
    (hx : (s.saw w).state = .cutting ∨ (s.saw w).state = .holding) : ∃ t, LosesLink w p q s t := by
  let timed := (s.linkDown w).updateSaw w fun r => { r with holdTimer := none }
  have hclosed : (timed.closeSegment w q.reached).saw w =
      { (s.saw w).segmentClosed with link := .down, holdTimer := none } := by
    rw [closeSegment_saw, State.saw_updateSaw_same, linkDown_saw]
    rfl
  have hqueue (v : Saw) : ((timed.closeSegment w q.reached).saw v).queue = ((s.linkDown w).saw v).queue :=
    ((Kept.closeSegment timed w q.reached).queue v).trans (updateSaw_queue _ _ _ (by intro; rfl) v)
  have hline : LineApart w p.number (timed.closeSegment w q.reached) :=
    hl.of_queue (State.closeSegment_wau ..) fun v => (hqueue v).trans (linkDown_queue s w v)
  have hactive : (timed.closeSegment w q.reached).activePass? w = some (p, q) :=
    (activePass?_congr (hqueue w) (State.closeSegment_pln ..)).trans (linkDown_activePass? ha)
  have hagree : Agree (fun _ => False) (timed.closeSegment w q.reached) :=
    ((linkDown_agree h).updateSaw w fun r => { r with holdTimer := none }).congr (State.closeSegment_wau ..)
      (State.states_closeSegment timed w q.reached) (State.closeSegment_rsv ..)
  have hstay := waterGivenUp_unmoved hline
  refine ⟨_, loseLink_cut hx ha, hstay.activePass? hactive rfl, hagree.waterGivenUp (by rw [hclosed]; exact hx), ?_⟩
  have hheld : (s.saw w).state ≠ .held := by rcases hx with hx | hx <;> rw [hx] <;> exact nofun
  rw [hstay.saw, hclosed, SawRec.stopped, if_neg hheld]

theorem greeted_agree (h : Agree (fun _ => False) s) (maxFeed : Nat) : Agree (fun _ => False) (s.greeted w maxFeed) :=
  have hacked : Agree (fun _ => False) (s.acked w Kind.hello .ok) := h.congr rfl (State.states_sawFrame s w) rfl
  hacked.updateSaw w fun r => { r with maxFeed := max 100 (min 6000 maxFeed) }

theorem greeted_stopped (s : State) (w : Saw) (maxFeed : Nat) : ((s.greeted w maxFeed).saw w).stopped =
    { (s.saw w).stopped with heartbeat := 0, maxFeed := max 100 (min 6000 maxFeed) } := by
  rw [greeted_saw]
  unfold SawRec.stopped
  dsimp only
  split <;> rfl

theorem stopped_outstanding (r : SawRec) : r.stopped.outstanding = r.outstanding := by
  unfold SawRec.stopped
  split <;> rfl

/-- Stopping the work leaves the fields a restart leaves. -/
theorem stopped_restarted_linkFields (r : SawRec) (maxFeed : Nat) :
    (r.stopped.restarted maxFeed).linkFields = (r.restarted maxFeed).linkFields := by
  unfold SawRec.stopped
  split <;> rfl

theorem greeted_losesLink (hr : s.running = true) (hq : QueueLaw s) (hw : WaterLaw s) (ha : s.activePass? w = some (p, q))
    (hx : (s.saw w).state = .cutting ∨ (s.saw w).state = .holding ∨ (s.saw w).state = .held) (maxFeed : Nat) :
    ∃ t, LosesLink w p q (s.greeted w maxFeed) t := by
  have hhead := (activePass?_some ha).1
  have hagree := greeted_agree (w := w) (hw.agree hr) maxFeed
  have hactive := (greeted_activePass? s w maxFeed).trans ha
  have hstate : ((s.greeted w maxFeed).saw w).state = (s.saw w).state :=
    (congrArg SawRec.state (greeted_saw s w maxFeed) :)
  rcases or_assoc.2 hx with hx | hx
  · have hline : LineApart w p.number (s.greeted w maxFeed) :=
      (lineApart_of_laws hq hw hhead hx).of_queue rfl (greeted_queue s w maxFeed)
    exact losesLink_of_cut hagree hline hactive (by rw [hstate]; exact hx)
  · have hheads := (headsNoOther_of_headPlan? hq hhead).of_queue (greeted_queue s w maxFeed)
    exact ⟨_, losesLink_of_held hagree hheads hactive (by rw [hstate]; exact hx)⟩

/-- A saw in a cut or HELD is FAULTED with a LINK context of its ACTIVE pass, out of the water. -/
theorem relinked_stopped (hr : s.running = true) (hq : QueueLaw s) (hw : WaterLaw s) (ha : s.activePass? w = some (p, q))
    (hx : (s.saw w).state = .cutting ∨ (s.saw w).state = .holding ∨ (s.saw w).state = .held) (maxFeed : Nat) :
    (s.relinked w maxFeed).saw w = { (s.saw w).stopped.restarted maxFeed with
      state := .faulted
      context := some ⟨.link, some .linkLost,
        some ⟨p.number, q.index, s.activeTag? w, q.reached, q.length - q.reached⟩, (s.saw w).stopped.passTime, 1⟩ } ∧
    OutOfWater w (s.relinked w maxFeed) := by
  obtain ⟨t, hlost, hactive, hwater, hsaw⟩ := greeted_losesLink hr hq hw ha hx maxFeed
  rw [greeted_stopped] at hsaw
  have hout : (t.saw w).outstanding = (s.saw w).outstanding := by
    rw [hsaw]
    exact stopped_outstanding (s.saw w)
  have htag : t.activeTag? w = s.activeTag? w := by rw [activeTag?_eq hactive, activeTag?_eq ha, hout]
  have hcontext := linkContext_saw hactive
  have hup : s.relinked w maxFeed = (t.linkContext w).linkRaised w := by
    rw [State.relinked, hlost, linkUp_other (by rw [hcontext]; exact nofun)]
  have hwau : ((t.linkContext w).linkRaised w).wau = t.wau := State.linkContext_wau t w
  rw [hup]
  refine ⟨?_, by rw [OutOfWater, hwau]; exact hwater⟩
  rw [linkRaised_saw, hcontext, htag, hsaw]
  rfl

end Restart

/-- Settles O20: on a DOWN link the saw is woken (`wake_none`, `wake_load`, `wake_active`); on an UP link it is woken after
silence outside a cut (`relinked_outside`), and stopped by it in a cut (`relinked_stopped`). -/
theorem hello_holds : Obligations.Hello := by
  intro s w maxFeed hr u up idle r restarted
  have hexec : exec (.hello w maxFeed) s = .next (hello w maxFeed s) := (exec_hello ..).trans (event_running hr _)
  have down (hl : r.link = .down) : exec (.hello w maxFeed) s = .next (u.linkUp w) :=
    hexec.trans (congrArg _ (hello_down hl maxFeed))
  have relinks (hl : r.link = .up) : exec (.hello w maxFeed) s = .next (s.relinked w maxFeed) :=
    hexec.trans (congrArg _ (hello_up hl maxFeed))
  have hgreeted : u.saw w = _ := greeted_saw s w maxFeed
  have hoffline (hx : r.state = .offline) : u.linkUp w = up.wake w := linkUp_offline (by rw [hgreeted]; exact hx)
  have hhead : up.headPlan? w = s.headPlan? w := (linkRaised_headPlan? u w).trans (greeted_headPlan? s w maxFeed)
  refine ⟨fun hl hx => ?awake, fun hl hx hp => ?alone, fun p hl hx hp => ⟨fun hno => ?loads, fun q hc ha => ?faults⟩,
    relinks, fun hl hx => ?restartFaulted, fun hl hq hx => ?restartOutside, fun p q hl hq hw ha hx => ?restartStopped⟩
  case awake => rw [down hl, linkUp_other (by rw [hgreeted]; exact hx)]; rfl
  case alone => rw [down hl, hoffline hx, wake_none (hhead.trans hp)]; rfl
  case loads =>
    rw [down hl, hoffline hx, wake_load (hhead.trans hp) (hno.imp_right activePass?_eq_none.2)]
    rfl
  case faults =>
    rw [down hl, hoffline hx, wake_active hc (activePass?_of_head (hhead.trans hp) (activePass?_some ha).2)]
  case restartFaulted =>
    have hsaw := relinked_faulted_saw hx maxFeed
    exact ⟨_, relinks hl, relinked_restarted (by rw [hsaw]; rfl), (congrArg SawRec.state hsaw).trans hx,
      congrArg SawRec.pendingLoad hsaw, (congrArg SawRec.context hsaw :)⟩
  case restartOutside =>
    refine ⟨_, relinks hl, relinked_outside_restarted hx maxFeed, fun hp => ?alone, fun p hp =>
      ⟨fun hno hr => ?loads, fun q hc ha => ?faults⟩⟩
    case alone =>
      have hsaw := relinked_alone_saw hq hx maxFeed hp
      exact ⟨congrArg SawRec.state hsaw, congrArg SawRec.pendingLoad hsaw, (congrArg SawRec.context hsaw :)⟩
    case loads =>
      have hsaw := relinked_loads_saw hq hx maxFeed hp hno hr
      exact ⟨congrArg SawRec.state hsaw, congrArg SawRec.pendingLoad hsaw, (congrArg SawRec.context hsaw :)⟩
    case faults =>
      have hsaw := relinked_faults_saw hq hx maxFeed hc ha
      exact ⟨congrArg SawRec.state hsaw, congrArg SawRec.pendingLoad hsaw, (congrArg SawRec.context hsaw :)⟩
  case restartStopped =>
    intro time
    obtain ⟨hsaw, hwater⟩ := relinked_stopped hr hq hw ha hx maxFeed
    have htime : r.stopped.passTime = time := by
      unfold SawRec.stopped time
      split <;> rfl
    rw [← htime]
    exact ⟨_, relinks hl, relinked_restarted (by rw [hsaw]; exact stopped_restarted_linkFields r maxFeed),
      congrArg SawRec.state hsaw, (congrArg SawRec.context hsaw :), hwater⟩

end Sys2Proof.Machine
end

section
/-! PROOFS. Resumption and faults (06_holds_faults_and_resumption.md): an ACTIVE pass resumed, RESUME SAW, what a FAULT leaves
of the blades and of the saw, with the three statements. -/

namespace Sys2Proof.Machine

/-! ## An ACTIVE pass resumed (R129) -/

section Resumption

variable {s : State} {w : Saw} {p : Plan} {q : Pass}

/-- Steps 3 to 6 of R129: the segment opened at a position, the window refilled, the context discarded, CUTTING. -/
def State.cutFrom (s : State) (w : Saw) (reached : Nat) : State :=
  let opened := s.updateSaw w fun r => { r with meters := ⟨true, reached, 0, 0, r.meters.remainder⟩ }
  (opened.refill w).updateSaw w fun r => { r with context := none, state := .cutting }

theorem sendResume_activePass? (s : State) (w : Saw) (p : Plan) (q : Pass) :
    (s.sendResume w p q).activePass? w = s.activePass? w :=
  activePass?_congr ((Kept.sendResume s w p q).queue w) (State.sendResume_pln ..)

theorem resumeCut_eq (ha : s.activePass? w = some (p, q)) : s.resumeCut w = (s.sendResume w p q).cutFrom w q.reached := by
  have hreached := reached_eq ((sendResume_activePass? s w p q).trans ha)
  simp only [State.resumeCut, ha, State.openSegment, hreached, State.setSawState, updateSaw_updateSaw]
  rfl

theorem tagActive_held {tag : Nat} (ha : s.activePass? w = some (p, q)) (ht : s.activeTag? w = some tag) :
    s.tagActive w q = (tag, s) := by
  rw [activeTag?_eq ha] at ht
  obtain ⟨o, ho, rfl⟩ := Option.map_eq_some_iff.1 ht
  simp only [State.tagActive, ho]

theorem tagActive_fresh (ha : s.activePass? w = some (p, q)) (ht : s.activeTag? w = none) :
    s.tagActive w q = ((s.saw w).tagToGive, s.updateSaw w fun r =>
      { r with outstanding := ⟨(s.saw w).tagToGive, q.index⟩ :: r.outstanding
               nextTag := ((s.saw w).tagToGive + 1) % 8 }) := by
  rw [activeTag?_eq ha, Option.map_eq_none_iff] at ht
  simp only [State.tagActive, ht]

end Resumption

/-- Settles O32: the resumption by `resumeCut_eq`, its tag by `tagActive_held` or `tagActive_fresh` and `tagToGive_spec`. -/
theorem resumingACut : Obligations.ResumingACut := by
  intro s w p q ha hn hl feed resume going
  have hcut : s.resumeCut w = going (s.sendResume w p q) := resumeCut_eq ha
  refine ⟨fun tag ht => ?held, fun ht => ?fresh⟩
  case held =>
    rw [hcut, State.sendResume, tagActive_held ha ht]
    rfl
  case fresh =>
    obtain ⟨k, hk, htag, hfree, hused⟩ := tagToGive_spec (hl.resolve_right (not_not.2 ht)) hn
    refine ⟨k, _, hk, htag, hfree, hused, ?_⟩
    rw [hcut, State.sendResume, tagActive_fresh ha ht]
    rfl

/-! ## RESUME SAW (R127, R128) -/

section ResumeSaw

variable {s : State} {w : Saw} {c : Context}

theorem exec_resumeSaw (saw : Nat) (s : State) :
    exec (.resumeSaw saw) s = hostRequest Kind.resumeSaw (resumeSaw saw) s := rfl

theorem resumeSaw_form {saw : Nat} (h : saw = 0 ∨ 4 < saw) : resumeSaw saw s = refused .form s := by
  simp only [resumeSaw, Saw.ofNat?_eq_none h]

theorem resumeSaw_state (h : (s.saw w).state ≠ .faulted ∨ (s.saw w).link = .down) :
    resumeSaw w.toNat s = refused .state s := by
  simp only [resumeSaw, Saw.ofNat?_toNat, if_pos h]
  split <;> rfl

section Checks

variable (hx : (s.saw w).state = .faulted) (hup : (s.saw w).link = .up) (hc : (s.saw w).context = some c)
include hx hup hc

/-- A FAULTED saw with its link UP and a context: what is left is the interlock and, with a pass part, the demand. -/
theorem resumeSaw_faulted : resumeSaw w.toNat s =
    if !(s.saw w).interlock then refused .notReady s
    else if c.part.isSome ∧ s.wau.settings.rating < (s.saw w).demand then refused .demand s
    else performed [.u8 ((s.resumeSaw w c).saw w).state.code] (s.resumeSaw w c) := by
  simp only [resumeSaw, Saw.ofNat?_toNat, hc, hx, hup, ne_eq, not_true_eq_false, reduceCtorEq, or_self, if_false]

theorem resumeSaw_notReady (hlock : (s.saw w).interlock = false) : resumeSaw w.toNat s = refused .notReady s := by
  simp [resumeSaw_faulted hx hup hc, hlock]

variable (hlock : (s.saw w).interlock = true)
include hlock

theorem resumeSaw_demand (hpart : c.part ≠ none) (hd : s.wau.settings.rating < (s.saw w).demand) :
    resumeSaw w.toNat s = refused .demand s := by
  simp [resumeSaw_faulted hx hup hc, hlock, Option.isSome_iff_ne_none, hpart, hd]

theorem resumeSaw_performed (h : c.part = none ∨ (s.saw w).demand ≤ s.wau.settings.rating) :
    resumeSaw w.toNat s = performed [.u8 ((s.resumeSaw w c).saw w).state.code] (s.resumeSaw w c) := by
  have hpasses : ¬ (c.part.isSome ∧ s.wau.settings.rating < (s.saw w).demand) := by
    rintro ⟨hpart, hd⟩
    exact h.elim (Option.isSome_iff_ne_none.1 hpart) (Nat.not_le.2 hd)
  rw [resumeSaw_faulted hx hup hc, hlock, if_neg hpasses]
  rfl

end Checks

/-! ### The normal path (R127) -/

theorem resumeNormal_primed {p : Plan} (hp : s.headPlan? w = some p) (hc : p.state = .cutting)
    (ho : (s.saw w).outstanding ≠ []) : s.resumeNormal w = s.setSawState w .primed := by
  simp [State.resumeNormal, hp, hc, ho]

theorem resumeNormal_goOn (h : ((s.headPlan? w).elim True fun p => p.state ≠ .cutting) ∨ (s.saw w).outstanding = []) :
    s.resumeNormal w = s.goOn w := by
  refine if_neg ?_
  rcases h with h | h
  · cases hp : s.headPlan? w with
    | none => simp
    | some p =>
      rw [hp] at h
      simpa using fun hc => absurd hc h
  · simp [h]

/-! ### Through the water (R128, R179) -/

theorem seekResume_waits (h : ¬ (s.wau.line = [] ∧ (s.saw w).demand + s.wau.granted ≤ s.wau.capacity)) :
    s.seekResume w = (s.withWau (Admission.enqueue w)).setSawState w .waiting := by
  refine if_neg ?_
  rwa [Bool.and_eq_true, List.isEmpty_iff, fits_iff]

/-- Admitted, a saw whose interlock is asserted cuts on. -/
theorem seekResume_admitted (hl : s.wau.line = []) (hd : (s.saw w).demand + s.wau.granted ≤ s.wau.capacity)
    (hlock : (s.saw w).interlock = true) : s.seekResume w = (s.admitSaw w).resumeCut w := by
  have hasserted : (((s.admitSaw w).resumeCut w).saw w).interlock = true :=
    ((Kept.resumeCut (s.admitSaw w) w).interlock w).trans hlock
  have hadmitted : s.seekResume w = ((s.admitSaw w).resumeCut w).settleInterlock State.runPass w := by
    refine if_pos ?_
    rw [Bool.and_eq_true, List.isEmpty_iff, fits_iff]
    exact ⟨hl, hd⟩
  rw [hadmitted, settleInterlock_asserted hasserted]

theorem resumeCut_state (s : State) (w : Saw) : ((s.resumeCut w).saw w).state = .cutting := by
  simp only [State.resumeCut, State.setSawState, State.saw_updateSaw_same]

end ResumeSaw

/-- Settles O31: the checks by their case lemmas; the saw put back by `resumeNormal_primed` and `resumeNormal_goOn`, or through the
water by `seekResume_waits` and `seekResume_admitted`. -/
theorem resumeSaw_holds : Obligations.ResumeSaw := by
  intro s saw hs i
  refine ⟨fun h => hs.refuses (exec_resumeSaw saw s) (resumeSaw_form h), fun w hw => ?_⟩
  subst hw
  have hi := exec_resumeSaw w.toNat s
  intro r
  refine ⟨fun h => hs.refuses hi (resumeSaw_state h), fun c hx hup hc => ?_⟩
  intro u
  have hsaw : u.saw w = { r with context := none } := State.saw_updateSaw_same ..
  have hhead : u.headPlan? w = s.headPlan? w := updateSaw_headPlan? ..
  have hset : (u.saw w).outstanding = r.outstanding := (congrArg SawRec.outstanding hsaw :)
  have normal (hpart : c.part = none) : s.resumeSaw w c = u.resumeNormal w := if_neg (by simp [hpart])
  have water (hpart : c.part ≠ none) : s.resumeSaw w c = u.seekResume w := if_pos (Option.isSome_iff_ne_none.2 hpart)
  have resumed {t : State} (hlock : r.interlock = true) (h : c.part = none ∨ r.demand ≤ s.wau.settings.rating)
      (ht : s.resumeSaw w c = t) : exec i s = .next (t.answered Kind.resumeSaw .ok [.u8 (t.saw w).state.code]) :=
    hs.performs hi (ht ▸ resumeSaw_performed hx hup hc hlock h)
  refine ⟨fun hlock => hs.refuses hi (resumeSaw_notReady hx hup hc hlock),
    fun hlock hpart hd => hs.refuses hi (resumeSaw_demand hx hup hc hlock hpart hd),
    fun p hlock hpart hp hcut ho => ?primed, fun hlock hpart hfree => ?goesOn, fun hlock hpart hd hwait => ?waits,
    fun hlock hpart hd hl hfits => ?admitted⟩
  case primed =>
    rw [resumed hlock (.inl hpart) ((normal hpart).trans
      (resumeNormal_primed (hhead.trans hp) hcut (hset.trans_ne ho))), State.setSawState, State.saw_updateSaw_same]
    rfl
  case goesOn =>
    exact resumed hlock (.inl hpart) ((normal hpart).trans (resumeNormal_goOn (by rw [hhead, hset]; exact hfree)))
  case waits =>
    rw [resumed hlock (.inr hd) ((water hpart).trans (seekResume_waits (by rw [hsaw]; exact hwait))), State.setSawState,
      State.saw_updateSaw_same]
    rfl
  case admitted =>
    rw [resumed hlock (.inr hd) ((water hpart).trans
      (seekResume_admitted hl (by rw [hsaw]; exact hfits) (by rw [hsaw]; exact hlock))), resumeCut_state, State.admitSaw, hsaw]
    rfl


/-! ## The blades at a fault (R143) -/

section Overloads

variable {s t u : State} {w : Saw}

/-- Every blade keeps its overload count. -/
def OverloadsKept (s t : State) : Prop := ∀ n, (t.blade? n).map Blade.overloads = (s.blade? n).map Blade.overloads

theorem OverloadsKept.refl (s : State) : OverloadsKept s s := fun _ => rfl

theorem OverloadsKept.trans (h : OverloadsKept s t) (k : OverloadsKept t u) : OverloadsKept s u :=
  fun n => (k n).trans (h n)

theorem OverloadsKept.of_bld (h : t.bld = s.bld) : OverloadsKept s t := fun n => by rw [blade?_congr h]

theorem OverloadsKept.exists_blade (h : OverloadsKept s t) {n : Nat} {b : Blade} (hb : s.blade? n = some b) :
    ∃ b', t.blade? n = some b' ∧ b'.overloads = b.overloads :=
  Option.map_eq_some_iff.1 ((h n).trans (congrArg (Option.map Blade.overloads) hb))

/-- Wear is no overload. -/
theorem OverloadsKept.accrueWear (s : State) (n p h : Nat) : OverloadsKept s (s.accrueWear n p h).2 := by
  intro m
  cases hb : s.blade? n with
  | none => simp only [State.accrueWear, hb]
  | some b =>
    obtain ⟨-, advisory, exhausted, hblade⟩ := accrueWear_spec hb p h
    rw [hblade]
    split
    · next hm => rw [hm, hb]; rfl
    · rfl

theorem OverloadsKept.chargeWear (s : State) (w : Saw) (p : Nat) : OverloadsKept s (s.chargeWear w p) := by
  unfold State.chargeWear
  split
  · next n _ => exact (OverloadsKept.accrueWear s n p (s.headHardness w)).trans (.of_bld (State.chargeHead_bld ..))
  · exact .refl s

theorem OverloadsKept.closeSegment (s : State) (w : Saw) (position : Nat) :
    OverloadsKept s (s.closeSegment w position) := fun n => by
  rw [closeSegment_blade?]
  exact OverloadsKept.chargeWear s w (s.progress w position) n

theorem faultClosed_overloadsKept (s : State) (w : Saw) (position : Nat) :
    OverloadsKept s (s.faultClosed w position) :=
  .trans (.of_bld (by simp)) (.closeSegment ((s.updateSaw w fun r => { r with holdTimer := none }).reportReached w position)
    w position)

/-- An OVERLOAD counts against the fitted blade. -/
theorem faultBlade_overload {n : Nat} (hn : (s.saw w).blade = some n) : s.faultBlade w .overload = s.countOverload n := by
  simp only [State.faultBlade, hn]

/-- Any other cause, or a saw without a blade, counts nothing. -/
theorem faultBlade_other {cause : Cause} (h : cause ≠ .overload ∨ (s.saw w).blade = none) : s.faultBlade w cause = s := by
  unfold State.faultBlade
  split
  · next n hn => exact absurd h (by simp [hn])
  · rfl

/-! ### Admission passes count no overload -/

variable {pass : State → State}

theorem OverloadsKept.leaveWater (hp : ∀ s, OverloadsKept s (pass s)) (s : State) (w : Saw) :
    OverloadsKept s (s.leaveWater pass w) := by
  unfold State.leaveWater
  split
  · exact .trans (.of_bld rfl) (hp _)
  · exact .of_bld rfl
  · exact .refl s

theorem OverloadsKept.faultInCut (hp : ∀ s, OverloadsKept s (pass s)) (s : State) (w : Saw) (position : Nat) {cause : Cause}
    (hc : cause ≠ .overload) : OverloadsKept s (s.faultInCut pass w position cause) := by
  have hleft := (faultClosed_overloadsKept s w position).trans (.leaveWater hp _ w)
  rw [← faultBlade_other (s := (s.faultClosed w position).leaveWater pass w) (.inl hc)] at hleft
  exact hleft.trans (.of_bld rfl)

/-- The fault of an interlock is a SAFETY fault. -/
theorem OverloadsKept.settleInterlock (hp : ∀ s, OverloadsKept s (pass s)) (s : State) (w : Saw) :
    OverloadsKept s (s.settleInterlock pass w) := by
  unfold State.settleInterlock
  split
  · exact .refl s
  · exact .faultInCut hp s w _ (by decide)

theorem admissionPass_overloadsKept (k : Nat) : ∀ s, OverloadsKept s (admissionPass k s) := by
  induction k with
  | zero => exact .refl
  | succ k ih =>
    intro s
    unfold admissionPass
    split
    · exact .refl s
    · split
      · exact .trans (.of_bld (by simp)) (.trans (.settleInterlock ih _ _) (ih _))
      · exact .refl s

theorem waterGivenUp_overloadsKept (s : State) (w : Saw) : OverloadsKept s (s.waterGivenUp w) := by
  unfold State.waterGivenUp
  split
  · exact .trans (.of_bld rfl) (admissionPass_overloadsKept _ _)
  · exact .of_bld rfl

theorem countOverload_overloads {n : Nat} {b : Blade} (hb : s.blade? n = some b) :
    ∃ b', (s.countOverload n).blade? n = some b' ∧ b'.overloads = min 255 (b.overloads + 1) := by
  have hcounted : (s.updateBlade n fun b => { b with overloads := satAdd Config.maxFaults b.overloads 1 }).blade? n = some _ :=
    (updateBlade_blade? s n _ n).trans (by rw [if_pos rfl, hb]; rfl)
  obtain ⟨advisory, exhausted, htest⟩ := testHealth_blade? hcounted
  exact ⟨_, (htest n).trans (if_pos rfl), rfl⟩

end Overloads

/-! ## FAULT in a cut (R120) -/

section FaultedCut

variable {s : State} {w : Saw} {p : Plan} {q : Pass} {position : Nat}

theorem exec_fault (w : Saw) (tag : Option Nat) (position : Nat) (cause : SawCause) (s : State) :
    exec (.fault w tag position cause) s =
      sawMessage w Kind.fault (fun _ => none) (fault w tag position (causeOf cause)) s := rfl

theorem causeOf_eq_overload {cause : SawCause} : causeOf cause = .overload ↔ cause = .overload := by
  cases cause <;> simp [causeOf]

/-- The notice raised is pending (R218). -/
theorem raise_notice (s : State) (n : Notice) : (s.raise n).olc.pending &&& n.bit = n.bit := by
  rw [State.raise_pending_set]
  ext i hi
  simp only [BitVec.getElem_and, BitVec.getElem_or]
  cases n.bit[i] <;> simp

theorem faultPosition_eq (ha : s.activePass? w = some (p, q)) (tag : Option Nat) (position : Nat) :
    s.faultPosition w tag position = if tag = none ∨ tag = s.activeTag? w then position else q.reached := by
  simp only [State.faultPosition, reached_eq ha, Option.isNone_iff_eq_none]

theorem fault_inCut (hx : (s.saw w).state = .cutting ∨ (s.saw w).state = .holding) (tag : Option Nat) (position : Nat)
    (cause : Cause) : fault w tag position cause s =
      s.faultInCut State.runPass w (s.faultPosition w tag position) cause := by
  rcases hx with hx | hx <;> simp only [fault, hx]

theorem waterGivenUp_blade (hl : LineApart w p.number s) :
    (((s.faultClosed w position).waterGivenUp w).saw w).blade = (s.saw w).blade := by
  rw [(faultClosed_unmoved hl).saw, faultClosed_saw]
  rfl

variable (hx : (s.saw w).state = .cutting ∨ (s.saw w).state = .holding) (cause : Cause)
include hx

theorem faultInCut_jcu : (s.faultInCut State.runPass w position cause).jcu = ((s.faultClosed w position).waterGivenUp w).jcu := by
  rw [faultInCut_eq hx]
  simp

theorem faultInCut_wau : (s.faultInCut State.runPass w position cause).wau = ((s.faultClosed w position).waterGivenUp w).wau := by
  rw [faultInCut_eq hx]
  simp

theorem faultInCut_bld : (s.faultInCut State.runPass w position cause).bld =
    (((s.faultClosed w position).waterGivenUp w).faultBlade w cause).bld := by
  rw [faultInCut_eq hx]
  simp

theorem faultInCut_notice : (s.faultInCut State.runPass w position cause).olc.pending &&& 1#16 = 1#16 := by
  rw [faultInCut_eq hx]
  exact raise_notice _ .sawFault

variable (hl : LineApart w p.number s)
include hl

/-- The ACTIVE pass after a fault in a cut has moved to the position used (R48, R120). -/
theorem faultInCut_activePass? (ha : s.activePass? w = some (p, q)) :
    (s.faultInCut State.runPass w position cause).activePass? w =
      some (p.updatePass q.index (Pass.reach position), q.reach position) := by
  have hleft := (faultClosed_unmoved (position := position) hl).activePass? (faultClosed_activePass? ha) rfl
  rw [faultInCut_eq hx, ← hleft]
  refine activePass?_congr (Kept.queue ?_ w) (by simp)
  exact (((Kept.faultBlade _ w cause).trans (.writeContext ..)).trans (.setSawState ..)).trans (.raise ..)

/-- The overload count of the fitted blade after a fault in a cut. -/
theorem faultInCut_overloads {n : Nat} {b : Blade} (hn : (s.saw w).blade = some n) (hb : s.blade? n = some b) :
    ∃ b', (s.faultInCut State.runPass w position cause).blade? n = some b' ∧
      b'.overloads = if cause = .overload then min 255 (b.overloads + 1) else b.overloads := by
  obtain ⟨b', hb', hcount⟩ :=
    ((faultClosed_overloadsKept s w position).trans (waterGivenUp_overloadsKept _ w)).exists_blade hb
  rw [blade?_congr (faultInCut_bld hx cause), ← hcount]
  split
  · next hc =>
    rw [hc, faultBlade_overload ((waterGivenUp_blade hl).trans hn)]
    exact countOverload_overloads hb'
  · next hc => exact ⟨b', by rw [faultBlade_other (.inl hc)]; exact hb', rfl⟩

end FaultedCut

/-! ## FAULT outside a cut (R123 to R125) -/

section FaultedOutside

variable {s : State} {w : Saw} {c : Context}

theorem faultOutside_eq (s : State) (w : Saw) (cause : Cause) : s.faultOutside w cause = (s.updateSaw w fun r =>
    { r with state := .faulted, context := some ⟨.fault, some cause, s.passPart? w, r.passTime, 1⟩ }).raise .sawFault := by
  simp only [State.faultOutside, State.writeContext, State.setSawState, updateSaw_updateSaw]

theorem passPart?_none (ha : s.activePass? w = none) : s.passPart? w = none := by
  simp only [State.passPart?, ha, Option.map_none]

theorem fault_outside (hx : (s.saw w).state = .idle ∨ (s.saw w).state = .loading ∨ (s.saw w).state = .primed)
    (tag : Option Nat) (position : Nat) (cause : Cause) : fault w tag position cause s = s.faultOutside w cause := by
  rcases hx with hx | hx | hx <;> simp only [fault, hx]

theorem fault_waiting (hx : (s.saw w).state = .waiting) (tag : Option Nat) (position : Nat) (cause : Cause) :
    fault w tag position cause s = (s.removeFromLine w).faultOutside w cause := by
  simp only [fault, hx]

/-- The saw's own record is not moved by its removal from the line. -/
theorem removeFromLine_saw (s : State) (w : Saw) : (s.removeFromLine w).saw w = s.saw w := by
  obtain ⟨n, hn⟩ := exists_headsNoOther s w
  exact (removeFromLine_unmoved hn).saw

/-- A HELD saw leaves the line, and its HOLD context becomes a FAULT context (R124). -/
theorem fault_held (hx : (s.saw w).state = .held) (hc : (s.saw w).context = some c) (tag : Option Nat) (position : Nat)
    (cause : Cause) : fault w tag position cause s = ((s.removeFromLine w).updateSaw w fun r =>
      { r with state := .faulted, context := some (c.fault cause) }).raise .sawFault := by
  have hcontext : ((s.removeFromLine w).saw w).context = some c := (congrArg SawRec.context (removeFromLine_saw s w)).trans hc
  simp only [fault, hx, State.setSawState, updateSaw_updateSaw]
  exact congrArg (State.raise · .sawFault) (updateSaw_congr (by rw [hcontext]; rfl))

/-- A further fault on a FAULTED saw (R125). -/
theorem fault_faulted (hx : (s.saw w).state = .faulted) (hc : (s.saw w).context = some c) (tag : Option Nat) (position : Nat)
    (cause : Cause) : fault w tag position cause s = (s.updateSaw w fun r =>
      { r with context := some (c.faultAgain cause) }).raise .sawFault := by
  simp only [fault, hx]
  exact congrArg (State.raise · .sawFault) (updateSaw_congr (by rw [hc]; rfl))

end FaultedOutside

/-- Settles O29: in a cut the saw's record by `faultInCut_saw`, the pass by `faultInCut_activePass?`, the blades by
`faultInCut_bld` and `faultInCut_overloads`; outside a cut by the lemma of each state. -/
theorem faultTaken : Obligations.FaultTaken := by
  have taken {s : State} {w : Saw} (hs : s.linked w) (tag : Option Nat) (position : Nat) (cause : SawCause) :
      exec (.fault w tag position cause) s =
        .next (fault w tag position (causeOf cause) (s.acked w Kind.fault .ok)) :=
    (exec_fault w tag position cause s).trans (sawMessage_taken hs Kind.fault rfl _)
  refine ⟨fun s w tag position cause p q hs hq hw ha hx => ?inCut, fun s w tag position cause hs => ?outside⟩
  case inCut =>
    intro r used reached time closed left
    let u := s.acked w Kind.fault .ok
    have hsaw : u.saw w = { r with heartbeat := 0 } := acked_saw s w Kind.fault .ok
    have hactive : u.activePass? w = some (p, q) := (acked_activePass? s w Kind.fault .ok).trans ha
    have htag : u.activeTag? w = s.activeTag? w := by rw [activeTag?_eq hactive, activeTag?_eq ha, hsaw]
    have hcutting : (u.saw w).state = .cutting ∨ (u.saw w).state = .holding := by rw [hsaw]; exact hx
    have hline : LineApart w p.number u := (lineApart_of_laws hq hw (activePass?_some ha).1 hx).of_queue rfl acked_queue
    have hagree : Agree (fun _ => False) u := (hw.agree hs.1).congr rfl (fun v => State.states_sawFrame s w v) rfl
    have hclosed : u.faultClosed w used = closed := faultClosed_eq hactive
    have hblade : (left.saw w).blade = r.blade := by
      have hkept := waterGivenUp_blade (position := used) hline
      rw [hclosed, hsaw] at hkept
      exact hkept
    have hposition : u.faultPosition w tag position = used := by rw [faultPosition_eq hactive, htag]
    have hfault := faultInCut_saw (position := used) hline hactive hcutting (causeOf cause)
    rw [hsaw, htag] at hfault
    have hpass := faultInCut_activePass? (position := used) hcutting (causeOf cause) hline hactive
    have hjcu := faultInCut_jcu (position := used) hcutting (causeOf cause)
    have hbld := faultInCut_bld (position := used) hcutting (causeOf cause)
    have hwau := faultInCut_wau (position := used) hcutting (causeOf cause)
    rw [hclosed] at hjcu hbld
    obtain ⟨hallot, hpermit, horder, hgone⟩ := (faultClosed_agree (w := w) (position := used) hagree).waterGivenUp (w := w)
      (by rw [faultClosed_saw]; exact hcutting)
    rw [← hwau] at hallot hpermit horder hgone
    refine ⟨u.faultInCut State.runPass w used (causeOf cause), ?run, congrArg SawRec.state hfault,
      ⟨_, (headPlan?_some (activePass?_some hpass).1).2, hpass, passes_updatePass ..⟩, hjcu, fun h => ?others,
      fun n hc hn => ?overload, congrArg SawRec.context hfault, (congrArg SawRec.outstanding hfault :),
      congrArg SawRec.holdTimer hfault, (congrArg SawRec.passTime hfault :), (congrArg SawRec.meters hfault :), hallot,
      hpermit, horder, hgone, fun n b hn hb => ?count, by simp; rfl, by simp; rfl, by simp; rfl,
      faultInCut_notice hcutting (causeOf cause)⟩
    case run => rw [taken hs, fault_inCut hcutting, hposition]
    case others => rw [hbld, faultBlade_other (h.imp (mt causeOf_eq_overload.1) hblade.trans)]
    case overload => rw [hbld, hc, causeOf, faultBlade_overload (hblade.trans hn)]
    case count =>
      simp only [← causeOf_eq_overload]
      exact faultInCut_overloads hcutting (causeOf cause) hline ((congrArg SawRec.blade hsaw).trans hn) hb
  case outside =>
    intro i u
    have hrun : exec i s = .next (fault w tag position (causeOf cause) u) := taken hs tag position cause
    have hsaw : u.saw w = { s.saw w with heartbeat := 0 } := acked_saw s w Kind.fault .ok
    refine ⟨fun ha hx => ?idle, fun hx => ?waiting, fun c hx hc => ?held, fun c hx hc => ?faulted⟩
    case idle =>
      rw [hrun, fault_outside (by rw [hsaw]; exact hx), faultOutside_eq,
        passPart?_none ((acked_activePass? s w Kind.fault .ok).trans ha)]
    case waiting => rw [hrun, fault_waiting (by rw [hsaw]; exact hx), faultOutside_eq]
    case held => rw [hrun, fault_held (c := c) (by rw [hsaw]; exact hx) (by rw [hsaw]; exact hc)]; rfl
    case faulted => rw [hrun, fault_faulted (c := c) (by rw [hsaw]; exact hx) (by rw [hsaw]; exact hc)]; rfl

end Sys2Proof.Machine
end

section
/-! PROOFS. The blades (07_blades.md): the blade table seen by number, the checks of the six blade requests in the words of
their rules, the blade and saw records of a change of blade, what a run of accruals keeps, and the three statements. -/

namespace Sys2Proof.Machine

/-! ### The requests of the blades -/

theorem exec_addBlade (number kerf price life : Nat) (s : State) :
    exec (.addBlade number kerf price life) s = hostRequest Kind.addBlade (addBlade number kerf price life) s := rfl

theorem exec_amendBlade (number price life : Nat) (s : State) :
    exec (.amendBlade number price life) s = hostRequest Kind.amendBlade (amendBlade number price life) s := rfl

theorem exec_fitBlade (number saw : Nat) (s : State) :
    exec (.fitBlade number saw) s = hostRequest Kind.fitBlade (fitBlade number saw) s := rfl

theorem exec_removeBlade (saw : Nat) (s : State) :
    exec (.removeBlade saw) s = hostRequest Kind.removeBlade (removeBlade saw) s := rfl

theorem exec_retireBlade (number : Nat) (s : State) :
    exec (.retireBlade number) s = hostRequest Kind.retireBlade (retireBlade number) s := rfl

theorem exec_readBlade (number : Nat) (s : State) :
    exec (.readBlade number) s = hostRequest Kind.readBlade (readBlade number) s := rfl

/-! ## The blade table seen by number -/

section BladeLookups

variable {s : State}

theorem insert_blade? {b : Blade} (h : s.blade? b.number = none) (n : Nat) :
    (s.withBlades (insertBy Blade.number b)).blade? n = if n = b.number then some b else s.blade? n :=
  findBy_insertBy h n

theorem remove_blade? (s : State) (number n : Nat) :
    (s.withBlades (removeBy Blade.number number)).blade? n = if n = number then none else s.blade? n :=
  findBy_removeBy number n _

theorem updateBlade_blade?_self (s : State) (n : Nat) (f : Blade → Blade)
    (hk : ∀ x, (f x).number = x.number := by intro; rfl) :
    (s.updateBlade n f).blade? n = (s.blade? n).map f :=
  (updateBlade_blade? s n f n hk).trans (if_pos rfl)

theorem updateBlade_blade?_ne (s : State) {n m : Nat} (f : Blade → Blade) (h : m ≠ n)
    (hk : ∀ x, (f x).number = x.number := by intro; rfl) :
    (s.updateBlade n f).blade? m = s.blade? m :=
  (updateBlade_blade? s n f m hk).trans (if_neg h)

end BladeLookups

/-! ## FIT BLADE and REMOVE BLADE (R136, R137) -/

section ChangeOfBlade

/-- The states of a saw in which its blade may be changed. -/
theorem SawState.stopped_iff {x : SawState} : x.stopped = true ↔ x = .offline ∨ x = .idle ∨ x = .faulted := by
  cases x <;> simp [SawState.stopped]

/-- The blade SPARE, its saw field cleared. -/
def Blade.spared (b : Blade) : Blade := { b with state := .spare, saw := none }

/-- The blade FITTED to a saw. -/
def Blade.fittedTo (w : Saw) (b : Blade) : Blade := { b with state := .fitted, saw := some w }

/-- The blade the saw names, where it names one, made SPARE: what FIT BLADE does first. -/
def State.freeBlade (s : State) (w : Saw) : State := (s.saw w).blade.elim s s.spareBlade

/-- Both records of a fit: the blade the saw had made SPARE, the blade given FITTED, the saw naming it. -/
def State.bladeFitted (s : State) (number : Nat) (w : Saw) : State :=
  ((s.freeBlade w).updateBlade number (Blade.fittedTo w)).updateSaw w fun r => { r with blade := some number }

/-- Both records of a removal: the blade SPARE, the saw without a blade. -/
def State.bladeRemoved (s : State) (n : Nat) (w : Saw) : State :=
  (s.spareBlade n).updateSaw w fun r => { r with blade := none }

variable {s : State} {number n k saw : Nat} {w : Saw} {b : Blade}

theorem queueTooNarrow_iff {kerf : Nat} : s.queueTooNarrow w kerf = true ↔
    ∃ n ∈ (s.saw w).queue, ∃ p, s.plan? n = some p ∧ p.kerf < kerf := by
  have hplan (n : Nat) : ((s.plan? n).elim false fun p => decide (p.kerf < kerf)) = true ↔
      ∃ p, s.plan? n = some p ∧ p.kerf < kerf := by
    cases s.plan? n <;> simp
  simp only [State.queueTooNarrow, List.any_eq_true, hplan]

/-! ### What a change of blade writes -/

theorem spareBlade_blade?_self (s : State) (n : Nat) : (s.spareBlade n).blade? n = (s.blade? n).map Blade.spared :=
  updateBlade_blade?_self s n _

theorem spareBlade_blade?_ne (s : State) (h : k ≠ n) : (s.spareBlade n).blade? k = s.blade? k :=
  updateBlade_blade?_ne s _ h

theorem freeBlade_blade?_named (h : (s.saw w).blade = some n) :
    (s.freeBlade w).blade? n = (s.blade? n).map Blade.spared := by
  rw [State.freeBlade, h]
  exact spareBlade_blade?_self s n

theorem freeBlade_blade?_other (h : (s.saw w).blade ≠ some k) : (s.freeBlade w).blade? k = s.blade? k := by
  rw [State.freeBlade]
  cases hn : (s.saw w).blade with
  | none => rfl
  | some n => exact spareBlade_blade?_ne s fun hk => h (hn.trans (congrArg some hk.symm))

/-- Freeing the saw's blade writes the blade table alone. -/
theorem freeBlade_frame (s : State) (w : Saw) : ∃ table, s.freeBlade w = { s with bld := table } := by
  rw [State.freeBlade]
  cases (s.saw w).blade with
  | none => exact ⟨s.bld, rfl⟩
  | some n => exact ⟨(s.spareBlade n).bld, rfl⟩

theorem bladeFitted_blade?_self (hb : s.blade? number = some b) (h : (s.saw w).blade ≠ some number) :
    (s.bladeFitted number w).blade? number = some (b.fittedTo w) := by
  have hfree : (s.freeBlade w).blade? number = some b := (freeBlade_blade?_other h).trans hb
  exact (updateBlade_blade?_self _ number _).trans (congrArg (Option.map _) hfree)

theorem bladeFitted_blade?_ne (h : k ≠ number) :
    (s.bladeFitted number w).blade? k = (s.freeBlade w).blade? k :=
  updateBlade_blade?_ne _ _ h

/-- Outside the blade table a fit writes the saw's blade alone. -/
theorem bladeFitted_frame (s : State) (number : Nat) (w : Saw) : s.bladeFitted number w =
    { s.updateSaw w fun r => { r with blade := some number } with bld := (s.bladeFitted number w).bld } := by
  obtain ⟨table, hfree⟩ := freeBlade_frame s w
  rw [State.bladeFitted, hfree]
  rfl

/-! ### The checks of FIT BLADE -/

theorem fitBlade_noSaw (h : saw = 0 ∨ 4 < saw) : fitBlade number saw s = refused .form s := by
  simp only [fitBlade, Saw.ofNat?_eq_none h]

theorem fitBlade_noNumber (h : number = 0) : fitBlade number w.toNat s = refused .form s := by
  simp only [fitBlade, Saw.ofNat?_toNat, if_pos h]

theorem fitBlade_none (hnum : number ≠ 0) (hb : s.blade? number = none) :
    fitBlade number w.toNat s = refused .none s := by
  simp only [fitBlade, Saw.ofNat?_toNat, if_neg hnum, hb]

section OnRecord

variable (hnum : number ≠ 0) (hb : s.blade? number = some b)
include hnum hb

theorem fitBlade_notStopped (hx : ¬ (s.saw w).state.stopped = true) :
    fitBlade number w.toNat s = refused .state s := by
  simp [fitBlade, Saw.ofNat?_toNat, hnum, hb, hx]

/-- Both checks that answer STATE give the same refusal, so this one needs nothing of the saw. -/
theorem fitBlade_notSpare (hs : b.state ≠ .spare) : fitBlade number w.toNat s = refused .state s := by
  simp [fitBlade, Saw.ofNat?_toNat, hnum, hb, hs]

variable (hx : (s.saw w).state.stopped = true) (hs : b.state = .spare)
include hx hs

theorem fitBlade_kerf (hk : s.queueTooNarrow w b.kerf = true) : fitBlade number w.toNat s = refused .kerf s := by
  simp [fitBlade, Saw.ofNat?_toNat, hnum, hb, hx, hs, hk]

theorem fitBlade_performed (hk : ¬ s.queueTooNarrow w b.kerf = true) :
    fitBlade number w.toNat s = performed [] (s.bladeFitted number w) := by
  simp only [fitBlade, Saw.ofNat?_toNat, if_neg hnum, hb, hx, hs, if_neg hk]
  rfl

end OnRecord

/-! ### The checks of REMOVE BLADE -/

theorem removeBlade_noSaw (h : saw = 0 ∨ 4 < saw) : removeBlade saw s = refused .form s := by
  simp only [removeBlade, Saw.ofNat?_eq_none h]

theorem removeBlade_notStopped (hx : ¬ (s.saw w).state.stopped = true) :
    removeBlade w.toNat s = refused .state s := by
  simp [removeBlade, Saw.ofNat?_toNat, hx]

theorem removeBlade_none (hx : (s.saw w).state.stopped = true) (hn : (s.saw w).blade = none) :
    removeBlade w.toNat s = refused .none s := by
  simp [removeBlade, Saw.ofNat?_toNat, hx, hn]

theorem removeBlade_performed (hx : (s.saw w).state.stopped = true) (hn : (s.saw w).blade = some n) :
    removeBlade w.toNat s = performed [.u16 n] (s.bladeRemoved n w) := by
  simp [removeBlade, Saw.ofNat?_toNat, hx, hn, State.bladeRemoved]

end ChangeOfBlade

/-- Settles O35: each check by its case lemma; the two records of a fit by `State.bladeFitted`, of a removal by
`State.bladeRemoved`. -/
theorem fitAndRemoveBlade : Obligations.FitAndRemoveBlade := by
  intro s number saw hs fit remove
  refine ⟨fun h => ⟨hs.refuses (exec_fitBlade ..) (fitBlade_noSaw h),
    hs.refuses (exec_removeBlade ..) (removeBlade_noSaw h)⟩, ?_⟩
  rintro w rfl stopped
  have hfit := exec_fitBlade number w.toNat s
  have hremove := exec_removeBlade w.toNat s
  have hstopped : (s.saw w).state.stopped = true ↔ stopped := SawState.stopped_iff
  refine ⟨fun h => hs.refuses hfit (fitBlade_noNumber h), fun hnum hb => hs.refuses hfit (fitBlade_none hnum hb),
    fun b hnum hb => ⟨fun hx => hs.refuses hfit (fitBlade_notStopped hnum hb (hstopped.not.2 hx)),
      fun hspare => hs.refuses hfit (fitBlade_notSpare hnum hb hspare),
      fun hx hspare hk => hs.refuses hfit (fitBlade_kerf hnum hb (hstopped.2 hx) hspare (queueTooNarrow_iff.2 hk)),
      fun hx hspare hk hother => ?fitted⟩,
    fun hx => hs.refuses hremove (removeBlade_notStopped (hstopped.not.2 hx)),
    fun hx hn => hs.refuses hremove (removeBlade_none (hstopped.2 hx) hn), fun n hx hn => ?removed⟩
  case fitted =>
    have hwide : ¬ s.queueTooNarrow w b.kerf = true := fun hnarrow => by
      obtain ⟨n, hmem, p, hp, hlt⟩ := queueTooNarrow_iff.1 hnarrow
      exact absurd (hk n hmem p hp) (Nat.not_le.2 hlt)
    refine ⟨_, hs.performs hfit (fitBlade_performed hnum hb (hstopped.2 hx) hspare hwide),
      bladeFitted_blade?_self hb hother, fun n hn => ?_,
      fun n hne hn => (bladeFitted_blade?_ne hne).trans (freeBlade_blade?_other hn),
      congrArg (fun u : State => u.answered Kind.fitBlade .ok []) (bladeFitted_frame s number w)⟩
    have hne : n ≠ number := fun h => hother (hn.trans (congrArg some h))
    exact (bladeFitted_blade?_ne hne).trans (freeBlade_blade?_named hn)
  case removed =>
    exact ⟨_, hs.performs hremove (removeBlade_performed (hstopped.2 hx) hn), spareBlade_blade?_self s n,
      fun k hne => spareBlade_blade?_ne s hne, rfl⟩

/-! ## A run of accruals (R140, R141) -/

section Accruals

/-- One accrual: the charge and the cost remainder are the quotient and the remainder of one division. -/
theorem accrue_conserves (b : Blade) (p h : Nat) :
    b.chargeFor p h * (b.life * 1000) + (b.accrue p h).costRemainder = b.price * b.wearIncrease p h + b.costRemainder :=
  Nat.div_add_mod' (b.costSum p h) (b.life * 1000)

/-- What holds of a blade and is kept by each accrual holds after any run of them. -/
theorem accrued_keeps {P : Blade → Prop} (step : ∀ b p h, P b → P (b.accrue p h)) {b : Blade} (hb : P b)
    (runs : List (Nat × Nat)) : P (b.accrued runs) := by
  induction runs generalizing b with
  | nil => exact hb
  | cons x xs ih => exact ih (step b x.1 x.2 hb)

theorem accrued_conserves (b : Blade) (runs : List (Nat × Nat)) :
    b.charges runs * (b.life * 1000) + (b.accrued runs).costRemainder
      = b.price * b.increases runs + b.costRemainder := by
  induction runs generalizing b with
  | nil => simp [Blade.charges, Blade.accrued, Blade.increases]
  | cons x xs ih =>
    have hfirst := accrue_conserves b x.1 x.2
    have hrest : (b.accrue x.1 x.2).charges xs * (b.life * 1000) + ((b.accrue x.1 x.2).accrued xs).costRemainder
        = b.price * (b.accrue x.1 x.2).increases xs + (b.accrue x.1 x.2).costRemainder := ih (b.accrue x.1 x.2)
    simp only [Blade.charges, Blade.accrued, Blade.increases]
    linarith

theorem accrue_wear_le (b : Blade) (p h : Nat) : (b.accrue p h).wear ≤ 4000000000 :=
  Nat.min_le_left Config.maxWear _

theorem accrue_wearRemainder_lt (b : Blade) (p h : Nat) : (b.accrue p h).wearRemainder < 100 :=
  Nat.mod_lt _ (by decide)

theorem accrue_costRemainder_lt {b : Blade} (hl : 0 < b.life) (p h : Nat) :
    (b.accrue p h).costRemainder < b.life * 1000 :=
  Nat.mod_lt _ (by omega)

end Accruals

/-- Settles O36: the conservation by induction on the run, the three ranges as what each accrual keeps. -/
theorem bladeCostIsConserved : Obligations.BladeCostIsConserved := by
  intro b runs
  refine ⟨accrued_conserves b runs, ?wear, ?wearRemainder, ?costRemainder⟩
  case wear =>
    exact accrued_keeps (P := fun c => c.wear ≤ max b.wear 4000000000)
      (fun c p h _ => (accrue_wear_le c p h).trans (le_max_right _ _)) (le_max_left _ _) runs
  case wearRemainder =>
    exact fun hr => accrued_keeps (P := fun c => c.wearRemainder < 100)
      (fun c p h _ => accrue_wearRemainder_lt c p h) hr runs
  case costRemainder =>
    intro hl hr
    have hkept := accrued_keeps (P := fun c => c.life = b.life ∧ c.costRemainder < b.life * 1000)
      (fun c p h ⟨hlife, _⟩ => ⟨hlife, hlife ▸ accrue_costRemainder_lt (hlife ▸ hl) p h⟩) ⟨rfl, hr⟩ runs
    exact hkept.2

/-! ## ADD BLADE (R134) -/

section AddBlade

/-- The price and the rated life ADD BLADE and AMEND BLADE accept. -/
def BladeTerms (price life : Nat) : Prop := price ≤ 5000000 ∧ (500 ≤ life ∧ life ≤ 20000)

/-- The FORM check of ADD BLADE. -/
def AddForm (number kerf price life : Nat) : Prop := number ≠ 0 ∧ (2 ≤ kerf ∧ kerf ≤ 6) ∧ BladeTerms price life

/-- The record ADD BLADE makes: SPARE, unworn, with nothing noticed. -/
def newBlade (number kerf price life : Nat) : Blade :=
  { number := number, kerf := kerf, price := price, life := life, wear := 0, wearRemainder := 0, costRemainder := 0,
    overloads := 0, state := .spare, saw := none, advisoryNoticed := false, exhaustedNoticed := false }

variable {s : State} {number kerf price life : Nat}

theorem termsChecks_iff : (5000000 < price ∨ !within 500 20000 life) ↔ ¬ BladeTerms price life := by
  simp only [Bool.not_eq_true', ← Bool.not_eq_true, within_iff, BladeTerms, not_and_or, Nat.not_le]

theorem addChecks_iff : (number = 0 ∨ !within 2 6 kerf ∨ 5000000 < price ∨ !within 500 20000 life) ↔
    ¬ AddForm number kerf price life := by
  simp only [AddForm, not_and_or, not_not, ← termsChecks_iff, Bool.not_eq_true', ← Bool.not_eq_true, within_iff]

theorem addBlade_form (hf : ¬ AddForm number kerf price life) : addBlade number kerf price life s = refused .form s :=
  if_pos (addChecks_iff.2 hf)

variable (hf : AddForm number kerf price life)
include hf

theorem addBlade_exists (hb : s.blade? number ≠ none) : addBlade number kerf price life s = refused .exists s := by
  rw [addBlade, if_neg (addChecks_iff.not_left.2 hf), if_pos (Option.isSome_iff_ne_none.2 hb)]

variable (hb : s.blade? number = none)
include hb

theorem addBlade_full (hl : 32 ≤ s.bld.blades.length) : addBlade number kerf price life s = refused .full s := by
  rw [addBlade, if_neg (addChecks_iff.not_left.2 hf), if_neg (by simp [hb]), if_pos (show Config.maxBlades ≤ _ from hl)]

theorem addBlade_performed (hl : s.bld.blades.length < 32) : addBlade number kerf price life s =
    performed [] (s.withBlades (insertBy Blade.number (newBlade number kerf price life))) := by
  rw [addBlade, if_neg (addChecks_iff.not_left.2 hf), if_neg (by simp [hb]),
    if_neg (show ¬ Config.maxBlades ≤ _ from Nat.not_le.2 hl)]
  rfl

end AddBlade

/-! ## AMEND BLADE (R135) -/

section AmendBlade

/-- Price and rated life replaced, the cost remainder cleared. -/
def Blade.amended (price life : Nat) (b : Blade) : Blade := { b with price := price, life := life, costRemainder := 0 }

variable {s : State} {number price life : Nat} {b : Blade}

theorem amendBlade_none (hb : s.blade? number = none) : amendBlade number price life s = refused .none s := by
  simp only [amendBlade, hb]

variable (hb : s.blade? number = some b)
include hb

theorem amendBlade_state (hx : b.state ≠ .spare) : amendBlade number price life s = refused .state s := by
  simp only [amendBlade, hb, if_pos hx]

variable (hx : b.state = .spare)
include hx

theorem amendBlade_form (hf : ¬ BladeTerms price life) : amendBlade number price life s = refused .form s := by
  simp only [amendBlade, hb, if_neg (not_not.2 hx), if_pos (termsChecks_iff.2 hf)]

theorem amendBlade_performed (hf : BladeTerms price life) : amendBlade number price life s =
    performed [] ((s.updateBlade number (Blade.amended price life)).testHealth number) := by
  simp only [amendBlade, hb, if_neg (not_not.2 hx), if_neg (termsChecks_iff.not_left.2 hf)]
  rfl

end AmendBlade

/-! ## RETIRE BLADE and READ BLADE (R138, R139) -/

section RetireAndReadBlade

variable {s : State} {number : Nat} {b : Blade}

theorem retireBlade_none (hb : s.blade? number = none) : retireBlade number s = refused .none s := by
  simp only [retireBlade, hb]

theorem readBlade_none (hb : s.blade? number = none) : readBlade number s = refused .none s := by
  simp only [readBlade, hb]

variable (hb : s.blade? number = some b)
include hb

theorem retireBlade_fitted (hx : b.state = .fitted) : retireBlade number s = refused .state s := by
  simp only [retireBlade, hb, hx]

theorem retireBlade_spare (hx : b.state = .spare) : retireBlade number s =
    performed [] (s.updateBlade number fun b => { b with state := .retired }) := by
  simp only [retireBlade, hb, hx]

theorem retireBlade_retired (hx : b.state = .retired) : retireBlade number s =
    performed [] (s.withBlades (removeBy Blade.number number)) := by
  simp only [retireBlade, hb, hx]

theorem readBlade_performed : readBlade number s = performed b.fields s := by
  simp only [readBlade, hb]

end RetireAndReadBlade

/-- Settles O33: each check by its case lemma, each effect by the lookup after the record added, changed or removed. -/
theorem bladeRecords : Obligations.BladeRecords := by
  refine ⟨fun s number kerf price life hs => ?addAndAmend, fun s number hs => ?retireAndRead⟩
  case addAndAmend =>
    intro add amend form amendForm
    have hadd := exec_addBlade number kerf price life s
    have hamend := exec_amendBlade number price life s
    refine ⟨fun hf => hs.refuses hadd (addBlade_form hf), fun hf hb => hs.refuses hadd (addBlade_exists hf hb),
      fun hf hb hl => hs.refuses hadd (addBlade_full hf hb hl), fun hf hb hl => ?added,
      fun hb => hs.refuses hamend (amendBlade_none hb), fun b hb =>
        ⟨fun hx => hs.refuses hamend (amendBlade_state hb hx), fun hx hf => hs.refuses hamend (amendBlade_form hb hx hf),
          fun hx hf => ?amended⟩⟩
    case added =>
      have hlook := insert_blade? (b := newBlade number kerf price life) hb
      exact ⟨_, hs.performs hadd (addBlade_performed hf hb hl), (hlook number).trans (if_pos rfl),
        fun n hne => (hlook n).trans (if_neg hne), rfl⟩
    case amended =>
      exact ⟨s.updateBlade number (Blade.amended price life),
        (updateBlade_blade?_self s number _).trans (congrArg (Option.map _) hb),
        fun n hne => updateBlade_blade?_ne s _ hne, rfl, hs.performs hamend (amendBlade_performed hb hx hf)⟩
  case retireAndRead =>
    have hretire := exec_retireBlade number s
    have hread := exec_readBlade number s
    refine ⟨fun hb => ⟨hs.refuses hretire (retireBlade_none hb), hs.refuses hread (readBlade_none hb)⟩, fun b hb =>
      ⟨fun hx => hs.refuses hretire (retireBlade_fitted hb hx), fun hx => ?spare, fun hx => ?retired,
        hs.reports hread (readBlade_performed hb)⟩⟩
    case spare =>
      exact ⟨_, hs.performs hretire (retireBlade_spare hb hx),
        (updateBlade_blade?_self s number _).trans (congrArg (Option.map _) hb),
        fun n hne => updateBlade_blade?_ne s _ hne, rfl⟩
    case retired =>
      have hlook := remove_blade? s number
      exact ⟨_, hs.performs hretire (retireBlade_retired hb hx), (hlook number).trans (if_pos rfl),
        fun n hne => (hlook n).trans (if_neg hne), rfl⟩

end Sys2Proof.Machine
end

section
/-! PROOFS. The channels (08_plant_sensing.md): the window and the sample in the words of the rules, the place a record takes
with its grace timer, the reading offered, and the statement about SET CHANNEL and READ CHANNEL. -/

namespace Sys2Proof.Machine

/-! ## The window of a range code (R148) -/

section Window

variable {range : Nat}

theorem window_low : (window range).1 = if range = 1 then -400 else if range = 4 then -200 else 0 := by
  unfold window
  split <;> simp_all

theorem window_high : (window range).2 =
    if range = 1 ∨ range = 2 then 10400 else if range = 3 ∨ range = 4 then 10200 else 0 := by
  unfold window
  split <;> simp_all

theorem window_ordered : (window range).1 ≤ (window range).2 := by
  unfold window
  split <;> decide

end Window

/-! ## One sample (R150 to R152) -/

section Sample

variable {lo hi i : Int}

theorem clampInt_eq (h : lo ≤ hi) : clampInt lo hi i = max lo (min hi i) := by
  unfold clampInt
  split
  · omega
  · split <;> omega

theorem withinInt_iff : withinInt lo hi i = true ↔ lo ≤ i ∧ i ≤ hi := by
  simp [withinInt]

theorem pushHistory_eq (h : List Int) (r : Int) : pushHistory h r = (h ++ [r]).drop ((h ++ [r]).length - 16) := by
  rw [List.length_append]
  rfl

theorem filterCount_eq (filter : Nat) :
    filterCount filter = if filter = 0 then 1 else if filter = 1 then 4 else 16 := by
  unfold filterCount
  split <;> simp_all

/-- The model's sample is the one the rules write out, step by step. -/
theorem sample_eq_sampled (raw : Int) (c : Channel) : c.sample raw = c.sampled raw := by
  simp only [Channel.sample, judge, filtered, clampInt_eq window_ordered, pushHistory_eq, filterCount_eq]
  simp only [window_low, window_high]
  rfl

end Sample

/-! ## A record takes its place (R153) -/

section Place

variable {c : Channel} {ds : Nat}

/-- The states that grace covers. -/
theorem failed_iff : c.failed = true ↔ c.state ≠ .good ∧ c.state ≠ .off := by
  simp [Channel.failed]

theorem graced_starts (hf : c.failed = true) (hg : c.grace = .stopped) : c.graced ds = { c with grace := .running ds } :=
  if_pos ⟨(failed_iff.1 hf).1, (failed_iff.1 hf).2, hg⟩

theorem graced_keeps (h : ¬ (c.failed = true ∧ c.grace = .stopped)) : c.graced ds = c :=
  if_neg fun ⟨hgood, hoff, hg⟩ => h ⟨failed_iff.2 ⟨hgood, hoff⟩, hg⟩

/-- The record with its grace timer, and CHANNEL_FAULT exactly where the timer has started. -/
theorem putChannel_eq (s : State) (n : Chan) (c : Channel) : s.putChannel n c =
    { s with
      pmn := { s.pmn with channels := s.pmn.channels.set n (c.graced (s.wau.settings.grace * 10)) }
      olc := s.faultedChannels (c.grace != (c.graced (s.wau.settings.grace * 10)).grace) } := by
  by_cases h : c.failed = true ∧ c.grace = .stopped
  · rw [State.putChannel, if_pos h, graced_starts h.1 h.2, h.2]
    rfl
  · rw [State.putChannel, if_neg h, graced_keeps h, bne_self_eq_false]
    rfl

end Place

/-! ## The reading offered (R154) -/

section Offers

variable {c : Channel}

theorem offers_good (hc : c.state = .good) : c.offers = ⟨.live, c.value⟩ := by
  simp only [Channel.offers, hc]

theorem offers_off (hc : c.state = .off) : c.offers = ⟨.lost, none⟩ := by
  simp only [Channel.offers, hc]
  rfl

/-- What grace offers in the place of a sound reading: it depends on the timer and the last good value alone. -/
def Grace.reading : Grace → Option Int → Reading
  | .expired, _ => .lost
  | .running _, some v => ⟨.held, some v⟩
  | .stopped, some _ => .lost
  | _, none => ⟨.absent, none⟩

variable (hf : c.failed = true)
include hf

theorem offers_failed : c.offers = c.grace.reading c.lastGood := by
  obtain ⟨hgood, hoff⟩ := failed_iff.1 hf
  cases hc : c.state with
  | good => exact absurd hc hgood
  | off => exact absurd hc hoff
  | rangeLow | rangeHigh | fieldOff | calibrating =>
    simp only [Channel.offers, hc]
    cases c.grace <;> cases c.lastGood <;> rfl

theorem offers_expired (hg : c.grace = .expired) : c.offers = ⟨.lost, none⟩ := by
  rw [offers_failed hf, hg]
  rfl

theorem offers_held {n : Nat} {v : Int} (hg : c.grace = .running n) (hv : c.lastGood = some v) :
    c.offers = ⟨.held, some v⟩ := by
  rw [offers_failed hf, hg, hv]
  rfl

theorem offers_absent (hg : c.grace ≠ .expired) (hv : c.lastGood = none) : c.offers = ⟨.absent, none⟩ := by
  rw [offers_failed hf, hv]
  cases hc : c.grace with
  | expired => exact absurd hc hg
  | stopped | running => rfl

end Offers

/-! ## SET CHANNEL (R149) -/

theorem Chan.ofNat?_eq_none {n : Nat} (h : 6 < n) : Chan.ofNat? n = none := by
  obtain ⟨k, rfl⟩ := Nat.exists_eq_add_of_lt h
  rw [show 6 + k + 1 = k + 7 by omega]
  rfl

theorem Chan.ofNat?_toNat (c : Chan) : Chan.ofNat? c.toNat = some c := by cases c <;> rfl

theorem exec_setChannel (channel range filter : Nat) (low high raw : Int) (s : State) :
    exec (.setChannel channel range filter low high raw) s =
      hostRequest Kind.setChannel (setChannel channel range filter low high raw) s := rfl

theorem exec_readChannel (channel : Nat) (s : State) :
    exec (.readChannel channel) s = hostRequest Kind.readChannel (readChannel channel) s := rfl

section SetChannel

/-- The range code and the engineering figures SET CHANNEL accepts. -/
def ScaleForm (range : Nat) (low high : Int) : Prop :=
  range ≤ 4 ∧ (-9999 ≤ low ∧ low ≤ 9999) ∧ (-9999 ≤ high ∧ high ≤ 9999) ∧ low < high

variable {s : State} {channel range filter : Nat} {low high raw : Int} {c : Chan}

theorem scaleChecks_iff :
    (4 < range ∨ !withinInt (-9999) 9999 low ∨ !withinInt (-9999) 9999 high ∨ high ≤ low) ↔
      ¬ ScaleForm range low high := by
  simp only [ScaleForm, not_and_or, Bool.not_eq_true', ← Bool.not_eq_true, withinInt_iff, Nat.not_le, Int.not_lt]

/-- OFF, FIELD_OFF or the sample of the rules. -/
theorem condition_eq (fieldSupply : Bool) (raw : Int) (r : Channel) : r.condition fieldSupply raw =
    if r.range = 0 then { r with state := .off }
    else if fieldSupply then r.sampled raw else { r with state := .fieldOff } := by
  rw [Channel.condition, sample_eq_sampled]

theorem setChannel_noChannel (h : 6 < channel) :
    setChannel channel range filter low high raw s = refused .form s := by
  simp only [setChannel, Chan.ofNat?_eq_none h]

theorem setChannel_form (hf : ¬ ScaleForm range low high) :
    setChannel c.toNat range filter low high raw s = refused .form s := by
  simp only [setChannel, Chan.ofNat?_toNat, if_pos (scaleChecks_iff.2 hf)]

variable (hf : ScaleForm range low high)
include hf

theorem setChannel_calibrating (hx : (s.channel c).state = .calibrating) :
    setChannel c.toNat range filter low high raw s = refused .state s := by
  simp only [setChannel, Chan.ofNat?_toNat, if_neg (scaleChecks_iff.not_left.2 hf), if_pos hx]

theorem setChannel_performed (hx : (s.channel c).state ≠ .calibrating) :
    setChannel c.toNat range filter low high raw s =
      performed [.u8 range, .u8 (min 2 filter), .s16 low, .s16 high]
        (s.putChannel c (((s.channel c).configure range (min 2 filter) low high).condition s.pmn.fieldSupply raw)) := by
  have hfilter : clamp 0 2 filter = min 2 filter := (clamp_eq (Nat.zero_le 2)).trans (Nat.zero_max _)
  simp only [setChannel, Chan.ofNat?_toNat, if_neg (scaleChecks_iff.not_left.2 hf), if_neg hx, hfilter]

end SetChannel

/-! ## READ CHANNEL (R157) -/

section ReadChannel

variable {s : State} {channel : Nat}

theorem optional_eq (x : Option Int) : optional x = [.u8 (boolCode x.isSome), .s16 (x.getD 0)] := by
  cases x <;> rfl

theorem readChannel_noChannel (h : 6 < channel) : readChannel channel s = refused .form s := by
  simp only [readChannel, Chan.ofNat?_eq_none h]

theorem readChannel_performed (c : Chan) : readChannel c.toNat s =
    performed ((s.channel c).fields ++ (s.channel c).offers.fields ++ [flag s.pmn.fieldSupply]) s := by
  simp only [readChannel, Chan.ofNat?_toNat]

end ReadChannel

/-- Settles O37: each check by its case lemma; the record set by `condition_eq` and `putChannel_eq`, the reading offered by its
case lemmas. -/
theorem setAndReadChannel : Obligations.SetAndReadChannel := by
  refine ⟨⟨rfl, rfl, rfl, rfl⟩, fun s channel range filter low high raw hs => ?set, fun s channel hs => ?read⟩
  case set =>
    intro i
    have hi := exec_setChannel channel range filter low high raw s
    refine ⟨fun h => hs.refuses hi (setChannel_noChannel h), ?_⟩
    rintro c rfl form
    refine ⟨fun hf => hs.refuses hi (setChannel_form hf), fun hf hx => hs.refuses hi (setChannel_calibrating hf hx),
      fun hf hx => ?_⟩
    intro bare taken placed
    rw [hs.performs hi (setChannel_performed hf hx), putChannel_eq, condition_eq]
    rfl
  case read =>
    have hi := exec_readChannel channel s
    refine ⟨fun h => hs.refuses hi (readChannel_noChannel h), ?_⟩
    rintro c rfl r opt bad
    refine ⟨?fields, offers_good, offers_off, fun hb => offers_expired (failed_iff.2 hb),
      fun n v hb => offers_held (failed_iff.2 hb), fun hb => offers_absent (failed_iff.2 hb)⟩
    have hreport := hs.reports hi (readChannel_performed c)
    rw [Channel.fields, counted_singleton] at hreport
    simp only [optional_eq, List.append_assoc] at hreport ⊢
    exact hreport

end Sys2Proof.Machine
end

section
/-! PROOFS. The capacity of the water and its revocations (09_water_admission.md): the evaluation step by step in the words of
the rules, the allotments a shortfall takes and what their removal leaves, and the two statements about them. -/

namespace Sys2Proof.Machine

/-! ## The level state and the factors (R169 to R172) -/

section Factors

variable (p : Settings) (x : LevelState) (r : Reading)

theorem Reading.seen_eq : r.seen = if r.form = .live ∨ r.form = .held then r.value else none := by
  unfold Reading.seen
  cases r.form <;> rfl

theorem levelMove_eq : x.move p r = r.seen.elim x fun v =>
    if (x = .low ∧ (p.restart : Int) ≤ v) ∨ (x ≠ .low ∧ (p.hold : Int) ≤ v) then .normal else .low := by
  unfold LevelState.move
  cases r.seen with
  | none => rfl
  | some v => cases x <;> simp

theorem levelFactor_eq : levelFactor p x r = r.seen.elim 0 fun v =>
    if x = .normal then if (p.reduce : Int) ≤ v then 100 else 50 else 0 := by
  unfold levelFactor
  cases r.seen with
  | none => rfl
  | some v => cases x <;> rfl

theorem turbidityFactor_eq : turbidityFactor p r = r.seen.elim 0 fun v =>
    if v ≤ (p.turbidity : Int) then 100 else if v ≤ 2 * (p.turbidity : Int) then 50 else 0 := by
  unfold turbidityFactor
  cases r.seen <;> rfl

theorem sumpFactor_eq : sumpFactor p r = r.seen.elim 0 fun v => if v < (p.sump : Int) then 100 else 0 := by
  unfold sumpFactor
  cases r.seen <;> rfl

end Factors

/-! ## SET PLANT (R168) -/

theorem exec_setPlant (rating hold restart reduce turbidity sump waterRate grace : Nat) (s : State) :
    exec (.setPlant rating hold restart reduce turbidity sump waterRate grace) s =
      hostRequest Kind.setPlant (setPlant ⟨rating, hold, restart, reduce, turbidity, sump, waterRate, grace⟩) s := rfl

theorem exec_capacityEvaluation (s : State) : exec .capacityEvaluation s = event State.evaluate s := rfl

/-- A clamp from 0 is the upper bound alone. -/
theorem clamp_zero (hi n : Nat) : clamp 0 hi n = min hi n := (clamp_eq (Nat.zero_le hi)).trans (Nat.zero_max _)

/-- Each setting clamped to its range, the restart level 50 above the hold level at least, the reduce level at the restart level
at least: no range is empty, since a hold level clamped to 900 leaves room for both. -/
theorem clampSettings_eq (p : Settings) : clampSettings p =
    ⟨min 600 p.rating, min 900 p.hold, max (min 900 p.hold + 50) (min 1000 p.restart),
      max (max (min 900 p.hold + 50) (min 1000 p.restart)) (min 1000 p.reduce), max 10 (min 4000 p.turbidity),
      max 100 (min 1000 p.sump), min 100000 p.waterRate, max 5 (min 120 p.grace)⟩ := by
  have hrestart : min 900 p.hold + 50 ≤ 1000 := by omega
  have hreduce : max (min 900 p.hold + 50) (min 1000 p.restart) ≤ 1000 := by omega
  simp only [clampSettings, clamp_zero, clamp_eq hrestart, clamp_eq hreduce, clamp_eq (show 10 ≤ 4000 by decide),
    clamp_eq (show 100 ≤ 1000 by decide), clamp_eq (show 5 ≤ 120 by decide)]

/-! ## The evaluation (R173) -/

theorem raiseIf_eq_ite (s : State) (now before : Nat) (n : Notice) :
    s.raiseIf (now == 0 && before != 0) n = if now = 0 ∧ before ≠ 0 then s.raise n else s := by
  simp [State.raiseIf]

/-- Where A is not above the capacity, nothing is revoked. -/
theorem revokeDown_of_granted_le {capacity : Nat} {s : State} (h : s.wau.granted ≤ capacity) (ws : List Saw) :
    revokeDown capacity ws s = s := by
  cases ws with
  | nil => rfl
  | cons w ws => exact if_pos h

/-- Settles O41: the readings taken are those of the factor lemmas, and the steps after them are the model's own. -/
theorem capacityEvaluation : Obligations.CapacityEvaluation := by
  refine ⟨fun s hr => ?event, fun s rating hold restart reduce turbidity sump waterRate grace hs => ?set, fun s => ?evaluate⟩
  case event => exact (exec_capacityEvaluation s).trans (event_running hr _)
  case set =>
    intro h r p
    have hp : clampSettings ⟨rating, hold, restart, reduce, turbidity, sump, waterRate, grace⟩ = p := clampSettings_eq _
    refine hs.performs (exec_setPlant ..) ?_
    rw [setPlant, hp]
    rfl
  case evaluate =>
    intro p r0 r1 r2 value level lf tf sf capacity seen cut filled served
    have hseen : s.withWau (Admission.observe r0 r1 r2) = seen := by
      simp only [State.withWau, Admission.observe, levelMove_eq, levelFactor_eq, turbidityFactor_eq, sumpFactor_eq,
        Reading.seen_eq]
      rfl
    refine ⟨fun hfits => revokeDown_of_granted_le (s := seen) hfits _, ?_⟩
    calc s.evaluate = served.raiseIf (capacity == 0 && s.wau.capacity != 0) .waterStop := by
          rw [State.evaluate, hseen]
          rfl
      _ = _ := raiseIf_eq_ite ..

/-! ## One allotment revoked (R181, R116) -/

section RevokeSaw

/-- The HOLD a saw is sent now (R116). -/
def State.holdFrame (s : State) (w : Saw) : Frame := ⟨Kind.hold, none, [.u8 ((s.activeTag? w).getD 0)]⟩

/-- A saw's record once it has been ordered to hold (R116). -/
def SawRec.heldUp (r : SawRec) : SawRec := { r with state := .holding, holdTimer := some 50 }

/-- One revocation: the saw's entry is removed, and the saw is ordered to hold (R181). -/
def State.revokeSaw (s : State) (w : Saw) : State := (s.withWau (Admission.revoke w)).orderHold w

/-- The amount of a saw's allotment; 0 where it holds none. -/
def State.amount (s : State) (w : Saw) : Nat := (s.wau.allotment.get w).getD 0

variable (s : State) (w v : Saw)

theorem revokeSaw_allotment :
    (s.revokeSaw w).wau.allotment.get v = if v = w then none else s.wau.allotment.get v := Four.get_set ..

theorem revokeSaw_saw : (s.revokeSaw w).saw v = if v = w then (s.saw w).heldUp else s.saw v := State.saw_updateSaw ..

theorem revokeSaw_queued : (s.revokeSaw w).sdp.queued.get v =
    if v = w then s.sdp.queued.get w ++ [s.holdFrame w] else s.sdp.queued.get v := Four.get_set ..

/-- A revocation leaves every saw its queue and its outstanding set, and so the tag a HOLD names. -/
theorem revokeSaw_holdFrame : (s.revokeSaw w).holdFrame v = s.holdFrame v := by
  obtain ⟨hqueue, hout⟩ : ((s.revokeSaw w).saw v).queue = (s.saw v).queue ∧
      ((s.revokeSaw w).saw v).outstanding = (s.saw v).outstanding := by
    rw [revokeSaw_saw]
    split
    · next h => exact h ▸ ⟨rfl, rfl⟩
    · exact ⟨rfl, rfl⟩
  rw [State.holdFrame, activeTag?_congr hqueue rfl hout, State.holdFrame]

/-- The amount revoked leaves the sum A. -/
theorem revokeSaw_granted : (s.revokeSaw w).wau.granted + s.amount w = s.wau.granted :=
  Admission.granted_set s.wau w none

theorem revokeSaw_amount_of_notMem {ws : List Saw} (h : w ∉ ws) : ws.map (s.revokeSaw w).amount = ws.map s.amount := by
  refine List.map_congr_left fun v hv => ?_
  have hne : v ≠ w := fun e => h (e ▸ hv)
  rw [State.amount, revokeSaw_allotment, if_neg hne, State.amount]

end RevokeSaw

/-! ## A list of allotments revoked -/

section RevokeAll

/-- The allotments of a list of saws revoked, one after another. -/
def State.revokeAll (s : State) (ws : List Saw) : State := ws.foldl State.revokeSaw s

theorem revokeAll_cons (s : State) (w : Saw) (ws : List Saw) :
    s.revokeAll (w :: ws) = (s.revokeSaw w).revokeAll ws := rfl

theorem revokeAll_allotment (ws : List Saw) (v : Saw) : ∀ s : State,
    (s.revokeAll ws).wau.allotment.get v = if v ∈ ws then none else s.wau.allotment.get v := by
  induction ws with
  | nil => exact fun s => rfl
  | cons w ws ih =>
    intro s
    rw [revokeAll_cons, ih, revokeSaw_allotment]
    by_cases hv : v = w <;> simp [hv]

theorem revokeAll_saw (ws : List Saw) (v : Saw) : ∀ s : State,
    (s.revokeAll ws).saw v = if v ∈ ws then (s.saw v).heldUp else s.saw v := by
  induction ws with
  | nil => exact fun s => rfl
  | cons w ws ih =>
    intro s
    rw [revokeAll_cons, ih, revokeSaw_saw]
    by_cases hv : v = w
    · subst hv
      simp [SawRec.heldUp]
    · simp [hv]

/-- Each saw of a list without repetition is sent one HOLD, with the tag it holds at the start. -/
theorem revokeAll_queued {ws : List Saw} (hws : ws.Nodup) (v : Saw) : ∀ s : State,
    (s.revokeAll ws).sdp.queued.get v =
      if v ∈ ws then s.sdp.queued.get v ++ [s.holdFrame v] else s.sdp.queued.get v := by
  induction ws with
  | nil => exact fun s => rfl
  | cons w ws ih =>
    intro s
    obtain ⟨hw, hrest⟩ := List.nodup_cons.1 hws
    rw [revokeAll_cons, ih hrest, revokeSaw_queued, revokeSaw_holdFrame]
    by_cases hv : v = w
    · subst hv
      simp [hw]
    · simp [hv]

/-- The amounts revoked and the sum A that stays make up the sum before. -/
theorem revokeAll_granted {ws : List Saw} (hws : ws.Nodup) : ∀ s : State,
    (s.revokeAll ws).wau.granted + (ws.map s.amount).sum = s.wau.granted := by
  induction ws with
  | nil => exact fun s => rfl
  | cons w ws ih =>
    intro s
    obtain ⟨hw, hrest⟩ := List.nodup_cons.1 hws
    have htail := ih hrest (s.revokeSaw w)
    rw [revokeSaw_amount_of_notMem s w hw] at htail
    have hhead := revokeSaw_granted s w
    rw [revokeAll_cons, List.map_cons, List.sum_cons]
    omega

/-- Revocations change the allotments, the saw records and the frames queued, and nothing else: the admission order, the line
and the permits stay. -/
theorem revokeAll_frame (ws : List Saw) : ∀ s : State, s.revokeAll ws =
    { s with wau := { s.wau with allotment := (s.revokeAll ws).wau.allotment }
             sdp := { s.sdp with saws := (s.revokeAll ws).sdp.saws, queued := (s.revokeAll ws).sdp.queued } } := by
  induction ws with
  | nil => exact fun s => rfl
  | cons w ws ih => exact fun s => ih (s.revokeSaw w)

end RevokeAll

/-! ## Revocation down to a capacity (R181) -/

section RevokeDown

variable {capacity : Nat}

theorem revokeSaw_filter_of_notMem (s : State) {w : Saw} {ws : List Saw} (h : w ∉ ws) :
    ws.filter (fun v => ((s.revokeSaw w).wau.allotment.get v).isSome) =
      ws.filter fun v => (s.wau.allotment.get v).isSome := by
  refine List.filter_congr fun v hv => ?_
  have hne : v ≠ w := fun e => h (e ▸ hv)
  rw [revokeSaw_allotment, if_neg hne]

/-- Revocation down a list takes the first saws of it that hold an allotment, each while A is above the capacity. -/
theorem revokeDown_eq_revokeAll {ws : List Saw} (hws : ws.Nodup) : ∀ s : State, ∃ taken rest : List Saw,
    ws.filter (fun v => (s.wau.allotment.get v).isSome) = taken ++ rest ∧
      revokeDown capacity ws s = s.revokeAll taken ∧
      ∀ init w, taken = init ++ [w] → capacity < (s.revokeAll init).wau.granted := by
  induction ws with
  | nil => exact fun s => ⟨[], [], rfl, rfl, fun init w h => by simp at h⟩
  | cons v ws ih =>
    intro s
    obtain ⟨hv, hrest⟩ := List.nodup_cons.1 hws
    by_cases hfits : s.wau.granted ≤ capacity
    · exact ⟨[], _, rfl, if_pos hfits, fun init w h => by simp at h⟩
    · by_cases hallot : (s.wau.allotment.get v).isSome = true
      · obtain ⟨taken, rest, hsplit, hdown, hneeded⟩ := ih hrest (s.revokeSaw v)
        rw [revokeSaw_filter_of_notMem s hv] at hsplit
        refine ⟨v :: taken, rest, ?_, ?_, ?_⟩
        · rw [List.filter_cons, if_pos hallot, hsplit, List.cons_append]
        · rw [revokeDown, if_neg hfits, if_pos hallot]
          exact hdown
        · intro init w htaken
          cases init with
          | nil => exact Nat.lt_of_not_le hfits
          | cons u init =>
            obtain ⟨rfl, htail⟩ := List.cons.inj htaken
            exact hneeded init w htail
      · obtain ⟨taken, rest, hsplit, hdown, hneeded⟩ := ih hrest s
        refine ⟨taken, rest, ?_, ?_, hneeded⟩
        · rw [List.filter_cons, if_neg hallot, hsplit]
        · rw [revokeDown, if_neg hfits, if_neg hallot]
          exact hdown

end RevokeDown

/-- Settles O42: the revocations are those of `revokeDown_eq_revokeAll`, latest admitted first, and the lemmas of `revokeAll` say
what they leave. -/
theorem revocation : Obligations.Revocation := by
  intro s capacity hlaw amount t
  have hlatest : s.wau.order.reverse.Nodup := List.nodup_reverse.2 hlaw.orderNodup
  obtain ⟨taken, rest, hsplit, hdown, hneeded⟩ := revokeDown_eq_revokeAll (capacity := capacity) hlatest s
  have htaken : taken.Nodup := List.Nodup.of_append_left (hsplit ▸ hlatest.filter _)
  have hallotted : ∀ w, (s.wau.allotment.get w).isSome = true → w ∈ s.wau.order.reverse := fun w hw =>
    List.mem_reverse.2 ((hlaw.ordered w).2 (.inl ((hlaw.allotted w).1 hw)))
  have hfits : t.wau.granted ≤ capacity := revokeDown_granted capacity _ s hallotted
  have ht : t = s.revokeAll taken := hdown
  rw [ht] at hfits ⊢
  refine ⟨taken, rest, hsplit, hfits, revokeAll_granted htaken s, ?minimal, fun w => revokeAll_allotment taken w s,
    fun w => revokeAll_saw taken w s, fun w => revokeAll_queued htaken w s, revokeAll_frame taken s⟩
  case minimal =>
    intro init w hlast
    have hinit : init.Nodup := List.Nodup.of_append_left (hlast ▸ htaken)
    have hsum : _ + (init.map amount).sum = s.wau.granted := revokeAll_granted hinit s
    have habove := hneeded init w hlast
    omega

end Sys2Proof.Machine
end

section
/-! PROOFS. The charges (10_jobs_and_cost_accrual.md): the record a charge leaves and what else it writes, and two charges of one
kind as one charge of their sum, with the statement about them. -/

namespace Sys2Proof.Machine

/-! ## The record a charge leaves (R188, R205) -/

section ChargedRecord

/-- A change of a job that leaves what the state and the over-quote flag turn on: the state, the quote and the flag (R198). -/
def KeepsTerms (f : Job → Job) : Prop := ∀ j, (f j).state = j.state ∧ (f j).quote = j.quote ∧ (f j).overQuote = j.overQuote

variable {s : State} {n : Nat} {j : Job} {f : Job → Job}

theorem Job.activate_state (j : Job) : j.activate.state = if j.state = .opened then .active else j.state := by
  cases h : j.state <;> simp [Job.activate, h]

theorem Job.charged_eq (hf : KeepsTerms f) (j : Job) : j.charged f =
    { f j with state := if j.state = .opened then .active else j.state,
               overQuote := j.overQuote || (f j).exceeds j.quote } := by
  obtain ⟨hstate, hquote, hflag⟩ := hf j
  have hactive : (f j).activate.state = if j.state = .opened then .active else j.state := by
    rw [Job.activate_state, hstate]
  have hexceeds : (f j).activate.passesQuote = (f j).exceeds j.quote := by
    rw [← hquote]
    exact (f j).passesQuote_eq
  have hset : (j.overQuote || ((f j).exceeds j.quote && !j.overQuote)) = (j.overQuote || (f j).exceeds j.quote) := by
    cases j.overQuote <;> simp
  rw [← hset, ← hexceeds, ← hflag, ← hactive]
  rfl

/-- A charge writes the job table, and raises OVER_QUOTE where the flag goes from clear to set (R205). -/
theorem charge_frame (hf : KeepsTerms f) (hj : s.job? n = some j) : s.charge n f =
    { (if (f j).exceeds j.quote = true ∧ j.overQuote = false then s.raise .overQuote else s) with
      jcu := (s.charge n f).jcu } := by
  obtain ⟨-, hquote, hflag⟩ := hf j
  have hcharge : s.charge n f =
      (s.updateJob n fun _ => j.charged f).raiseIf ((f j).exceeds (f j).quote && !(f j).overQuote) .overQuote := by
    rw [← (f j).passesQuote_eq]
    simp only [State.charge, hj]
    rfl
  rw [hquote, hflag] at hcharge
  rw [hcharge]
  exact updateJob_raiseIf_frame ..

/-- A charge of a job on record: its record, the other jobs, and everything beside the job table (R198). -/
theorem charge_spec (hnumber : MoneyOnly f) (hf : KeepsTerms f) (hj : s.job? n = some j) :
    (s.charge n f).job? n = some { f j with state := if j.state = .opened then .active else j.state,
                                            overQuote := j.overQuote || (f j).exceeds j.quote } ∧
      (∀ m, m ≠ n → (s.charge n f).job? m = s.job? m) ∧
      s.charge n f = { (if (f j).exceeds j.quote = true ∧ j.overQuote = false then s.raise .overQuote else s) with
        jcu := (s.charge n f).jcu } := by
  refine ⟨?record, fun m hm => (charge_job? hnumber m).trans (if_neg hm), charge_frame hf hj⟩
  case record =>
    rw [charge_job? hnumber, if_pos rfl, hj, Option.map_some, Job.charged_eq hf]

theorem chargeStone_moneyOnly (amount : Nat) : MoneyOnly (Job.chargeStone amount) := fun _ => ⟨rfl, rfl⟩

theorem chargeStone_keepsTerms (amount : Nat) : KeepsTerms (Job.chargeStone amount) := fun _ => ⟨rfl, rfl, rfl⟩

theorem chargeBlade_keepsTerms (amount : Nat) : KeepsTerms (Job.chargeBlade amount) := fun _ => ⟨rfl, rfl, rfl⟩

theorem chargeSawTime_keepsTerms (rate time : Nat) : KeepsTerms (Job.chargeSawTime rate time) := fun _ => ⟨rfl, rfl, rfl⟩

theorem chargeWater_keepsTerms (rate volume : Nat) : KeepsTerms (Job.chargeWater rate volume) := fun _ => ⟨rfl, rfl, rfl⟩

end ChargedRecord

/-! ## Two charges of one kind are one charge of their sum (R198, R199) -/

section ChargesAdded

/-- Saturation does not disturb a sum: the ceiling is held whichever amount reaches it (R199). -/
theorem addCents_addCents (component a b : Nat) : addCents (addCents component a) b = addCents component (a + b) := by
  simp only [addCents, satAdd]
  omega

/-- An amount carried through a remainder: the two whole parts add up to that of the sum (R200, R201). -/
theorem div_add_carried_div {divisor : Nat} (hpos : 0 < divisor) (u y : Nat) :
    u / divisor + (y + u % divisor) / divisor = (y + u) / divisor := by
  calc u / divisor + (y + u % divisor) / divisor
      = (y + u % divisor + divisor * (u / divisor)) / divisor := by rw [Nat.add_mul_div_left _ _ hpos, Nat.add_comm]
    _ = (y + u) / divisor := by rw [Nat.add_assoc, Nat.mod_add_div]

variable (j : Job) (a b c d : Nat)

theorem chargeStone_chargeStone : (j.chargeStone a).chargeStone b = j.chargeStone (a + b) := by
  simp only [Job.chargeStone, addCents_addCents]

theorem chargeBlade_chargeBlade : (j.chargeBlade a).chargeBlade b = j.chargeBlade (a + b) := by
  simp only [Job.chargeBlade, addCents_addCents]

theorem chargeSawTime_chargeSawTime :
    (j.chargeSawTime a b).chargeSawTime c d = j.chargeSawTime 1 (c * d + a * b) := by
  have hpos : 0 < Config.sawDivisor := by decide
  simp only [Job.chargeSawTime, addCents_addCents, div_add_carried_div hpos, Nat.add_mod_mod, Nat.one_mul, Nat.add_assoc]

theorem chargeWater_chargeWater :
    (j.chargeWater a b).chargeWater c d = j.chargeWater 1 (c * d + a * b) := by
  have hpos : 0 < Config.waterDivisor := by decide
  simp only [Job.chargeWater, addCents_addCents, div_add_carried_div hpos, Nat.add_mod_mod, Nat.one_mul, Nat.add_assoc]

end ChargesAdded

/-- Settles O46: each charge by `charge_spec`, and the order of two of one kind by the commutativity of their sum. -/
theorem charges : Obligations.Charges := by
  constructor
  · intro s n j amount rate measure hj u v lands
    exact ⟨⟨_, rfl, charge_spec (chargeStone_moneyOnly amount) (chargeStone_keepsTerms amount) hj⟩,
      ⟨_, rfl, charge_spec (chargeBlade_moneyOnly amount) (chargeBlade_keepsTerms amount) hj⟩,
      ⟨_, rfl, charge_spec (chargeSawTime_moneyOnly rate measure) (chargeSawTime_keepsTerms rate measure) hj⟩,
      ⟨_, rfl, charge_spec (chargeWater_moneyOnly rate measure) (chargeWater_keepsTerms rate measure) hj⟩⟩
  · intro j a b c d
    refine ⟨?stone, ?blade, ?sawTime, ?water⟩
    case stone => rw [chargeStone_chargeStone, chargeStone_chargeStone, Nat.add_comm]
    case blade => rw [chargeBlade_chargeBlade, chargeBlade_chargeBlade, Nat.add_comm]
    case sawTime => rw [chargeSawTime_chargeSawTime, chargeSawTime_chargeSawTime, Nat.add_comm]
    case water => rw [chargeWater_chargeWater, chargeWater_chargeWater, Nat.add_comm]

end Sys2Proof.Machine
end

section
/-! PROOFS. The receivers of the links and the notices (11_office_link_notices_and_start_up.md): ATTN settled, the requests of
the notice state, a byte taken in each phase, the frames of a bad body, and the two statements. -/

namespace Sys2Proof.Machine

/-! ## The notice state (R218 to R221) -/

section NoticeState

variable {s : State} {enable : BitVec 16} {master : Nat}

/-- ATTN as R219 has it, of whatever notice state stands. -/
theorem settleAttn_eq (s : State) : s.settleAttn = { s with olc := { s.olc with
    attn := s.running && s.olc.master && (s.olc.pending &&& s.olc.enable != 0#16) } } := by
  rw [Bool.and_assoc]
  rfl

theorem settleAttn_of_running (hr : s.running = true) :
    s.settleAttn = { s with olc := { s.olc with attn := s.olc.calls } } := by
  rw [State.settleAttn, hr, Bool.true_and]

theorem raise_eq (s : State) (n : Notice) : s.raise n = { s with olc := { s.olc with
    pending := s.olc.pending ||| n.bit
    attn := s.running && s.olc.master && ((s.olc.pending ||| n.bit) &&& s.olc.enable != 0#16) } } :=
  settleAttn_eq _

theorem exec_readNotices (s : State) : exec .readNotices s = hostRequest Kind.readNotices readNotices s := rfl

theorem exec_setNotices (enable : BitVec 16) (master : Nat) (s : State) :
    exec (.setNotices enable master) s = hostRequest Kind.setNotices (setNotices enable master) s := rfl

/-- With nothing pending, ATTN is released whatever the enables hold. -/
theorem settleAttn_emptied (s : State) :
    State.settleAttn { s with olc := { s.olc with pending := 0#16 } } =
      { s with olc := { s.olc with pending := 0#16, attn := false } } := by
  simp [settleAttn_eq]

theorem readNotices_performed (s : State) : readNotices s =
    performed [.u16 s.olc.pending.toNat, .u16 s.olc.enable.toNat, .u8 (boolCode s.olc.master)]
      { s with olc := { s.olc with pending := 0#16, attn := false } } := by
  rw [readNotices, settleAttn_emptied, flag]

theorem setNotices_form (h : enable &&& 0xF000#16 ≠ 0#16 ∨ 1 < master) :
    setNotices enable master s = refused .form s := if_pos h

theorem setNotices_performed (hr : s.running = true) (he : enable &&& 0xF000#16 = 0#16) (hm : master ≤ 1) :
    setNotices enable master s = performed [] { s with olc := { s.olc with
      enable := enable, master := master == 1, attn := master == 1 && (s.olc.pending &&& enable != 0#16) } } := by
  have hform : ¬ (enable &&& 0xF000#16 ≠ 0#16 ∨ 1 < master) := not_or.2 ⟨not_not.2 he, Nat.not_lt.2 hm⟩
  rw [setNotices, if_neg hform]
  exact congrArg (performed []) (settleAttn_of_running hr)

end NoticeState

/-- Settles O48: a raising by `raise_eq`, each request by its case lemma. -/
theorem notices : Obligations.Notices := by
  refine ⟨by decide, raise_eq, fun s enable master hs => ⟨?read, fun h => ?form, fun he hm => ?set⟩⟩
  case read => exact hs.performs (exec_readNotices s) (readNotices_performed s)
  case form => exact hs.refuses (exec_setNotices enable master s) (setNotices_form h)
  case set => exact hs.performs (exec_setNotices enable master s) (setNotices_performed hs.1 he hm)

/-! ## A byte taken in each phase (R209) -/

section Phases

variable (b len low : Byte) (held : List Byte)

theorem take_hunt : Phase.hunt.take b = (if b = 0x5A#8 then .length else .hunt, .none) := by
  by_cases h : b = 0x5A#8 <;> simp [Phase.take, startByte, h]

theorem take_length : Phase.length.take b =
    if 1 ≤ b.toNat ∧ b.toNat ≤ 240 then (.inBody b [] b.toNat, .none) else (.hunt, .dropped) := rfl

theorem take_inBody_last : (Phase.inBody len held 1).take b = (.inCrc len (held.reverse ++ [b]) none, .none) := by
  rw [← List.reverse_cons]
  rfl

theorem take_inBody_more (left : Nat) :
    (Phase.inBody len held (left + 2)).take b = (.inBody len (b :: held) (left + 1), .none) := by
  have hmore : ¬ left + 2 ≤ 1 := by omega
  rw [Phase.take, if_neg hmore]
  rfl

theorem take_inCrc_low : (Phase.inCrc len held none).take b = (.inCrc len held (some b), .none) := rfl

/-- Two bytes, the high one first, are a number of 16 bits. -/
theorem toNat_append_byte (high low : Byte) : (high ++ low).toNat = 256 * high.toNat + low.toNat := by
  rw [BitVec.toNat_append, ← Nat.shiftLeft_add_eq_or_of_lt low.isLt, Nat.shiftLeft_eq, Nat.mul_comm]

theorem take_inCrc_high : (Phase.inCrc len held (some low)).take b =
    (.hunt, if (crc (len :: held)).toNat = 256 * b.toNat + low.toNat then .good held else .dropped) := by
  have hagree : crc (len :: held) = b ++ low ↔ (crc (len :: held)).toNat = 256 * b.toNat + low.toNat := by
    rw [← toNat_append_byte, BitVec.toNat_inj]
  by_cases h : crc (len :: held) = b ++ low
  · rw [if_pos (hagree.1 h)]
    exact if_pos h
  · rw [if_neg (hagree.not.1 h)]
    exact if_neg h

end Phases

/-! ## Frames dropped and gaps (R209), frames of a bad body (R211, R212) -/

section Frames

theorem exec_badFrame (l : Link) (s : State) : exec (.badFrame l) s = event (badFrame l) s := rfl

theorem exec_byteGapTimeout (l : Link) (b : Byte) (s : State) :
    exec (.byteGapTimeout l b) s = event (byteGapTimeout l b) s := rfl

theorem exec_unknownRequest (kind : Byte) (s : State) :
    exec (.unknownRequest kind) s = hostRequest kind unknownRequest s := rfl

theorem byteGapTimeout_eq (l : Link) (b : Byte) (s : State) :
    byteGapTimeout l b s = s.setReceiver l (if b = 0x5A#8 then .length else .hunt) := by
  rw [byteGapTimeout, take_hunt]

theorem amendSlab_tooManyFlaws {flaws : List Flaw} (h : 4 < flaws.length)
    (number material thickness lotNumber lotSeq basis : Nat) (s : State) :
    amendSlab number material thickness lotNumber lotSeq basis flaws s = refused .form s := if_pos h

theorem layoutTooLong_iff {strips : List Strip} :
    layoutTooLong strips = true ↔ 8 < strips.length ∨ ∃ t ∈ strips, 6 < t.pieces.length := by
  simp [layoutTooLong]

theorem revisePlan_tooLong {strips : List Strip} (h : 8 < strips.length ∨ ∃ t ∈ strips, 6 < t.pieces.length)
    (number kerf : Nat) (s : State) : revisePlan number kerf strips s = refused .form s :=
  if_pos (layoutTooLong_iff.2 h)

end Frames

/-- R210's check value. -/
theorem crc_check_value :
    crc [0x31#8, 0x32#8, 0x33#8, 0x34#8, 0x35#8, 0x36#8, 0x37#8, 0x38#8, 0x39#8] = 0x29B1#16 := by
  decide +kernel

/-- Settles O51: the table by a lemma for each phase, the events by the byte examined in HUNT, the bad bodies by the count that
comes before every other check. -/
theorem receiving : Obligations.Receiving := by
  refine ⟨crc_check_value, fun b len low held left => ?table, fun s l b hr => ?events, fun s kind hs => ?bodies⟩
  case table =>
    exact ⟨take_hunt b, take_length b, take_inBody_last b len held, take_inBody_more b len held left,
      take_inCrc_low b len held, take_inCrc_high b len low held⟩
  case events =>
    refine ⟨(exec_badFrame l s).trans (event_running hr _), ?_⟩
    rw [exec_byteGapTimeout, event_running hr, byteGapTimeout_eq]
  case bodies =>
    exact ⟨hs.refuses (exec_unknownRequest kind s) rfl,
      fun _ _ _ _ _ _ _ h => hs.refuses (exec_amendSlab ..) (amendSlab_tooManyFlaws h ..),
      fun _ _ _ h => hs.refuses (exec_revisePlan ..) (revisePlan_tooLong h ..)⟩

end Sys2Proof.Machine
end

section
/-! PROOFS. What a step is, once for all commands: a request, a saw's message, an event or a supply event, with what every law of
the state asks of them. -/

namespace Sys2Proof.Machine

/-! ## The four ways a command is taken (R89, R213, R224) -/

/-- How a command is taken and what it does once taken. -/
inductive Meaning where
  | request (kind : Byte) (perform : State → Answer × State)
  | message (w : Saw) (kind : Byte) (check : State → Option Status) (handle : State → State)
  | event (handle : State → State)
  | supply (handle : State → State)

/-- The meaning of each command. -/
def Instr.meaning : Instr → Meaning
  | .defineMaterial code hardness feed => .request Kind.defineMaterial (defineMaterial code hardness feed)
  | .dropMaterial code => .request Kind.dropMaterial (dropMaterial code)
  | .readMaterial code => .request Kind.readMaterial (readMaterial code)
  | .createSlab number material thickness lotNumber lotSeq length width basis flaws =>
    .request Kind.createSlab (createSlab number material thickness lotNumber lotSeq length width basis flaws)
  | .amendSlab number material thickness lotNumber lotSeq basis flaws =>
    .request Kind.amendSlab (amendSlab number material thickness lotNumber lotSeq basis flaws)
  | .scrapSlab number => .request Kind.scrapSlab (scrapSlab number)
  | .retireSlab number => .request Kind.retireSlab (retireSlab number)
  | .readSlab number => .request Kind.readSlab (readSlab number)
  | .findSlabs material thickness minLength minWidth lotNumber => .request Kind.findSlabs (findSlabs material thickness minLength minWidth lotNumber)
  | .readRack rack => .request Kind.readRack (readRack rack)
  | .moveSlab number rack position => .request Kind.moveSlab (moveSlab number rack position)
  | .startAudit spans => .request Kind.startAudit (startAudit spans)
  | .verifySlab number rack position => .request Kind.verifySlab (verifySlab number rack position)
  | .endAudit => .request Kind.endAudit endAudit
  | .abortAudit => .request Kind.abortAudit abortAudit
  | .readAudit => .request Kind.readAudit readAudit
  | .createPlan number job slab kerf strips => .request Kind.createPlan (createPlan number job slab kerf strips)
  | .revisePlan number kerf strips => .request Kind.revisePlan (revisePlan number kerf strips)
  | .checkPlan number => .request Kind.checkPlan (checkPlan number)
  | .releasePlan number saw => .request Kind.releasePlan (releasePlan number saw)
  | .cancelPlan number => .request Kind.cancelPlan (cancelPlan number)
  | .abandonPlan number => .request Kind.abandonPlan (abandonPlan number)
  | .readPlan number => .request Kind.readPlan (readPlan number)
  | .readPassList number => .request Kind.readPassList (readPassList number)
  | .retirePlan number => .request Kind.retirePlan (retirePlan number)
  | .configureSaw saw demand rate => .request Kind.configureSaw (configureSaw saw demand rate)
  | .readSaw saw => .request Kind.readSaw (readSaw saw)
  | .readContext saw => .request Kind.readContext (readContext saw)
  | .resumeSaw saw => .request Kind.resumeSaw (resumeSaw saw)
  | .addBlade number kerf price life => .request Kind.addBlade (addBlade number kerf price life)
  | .amendBlade number price life => .request Kind.amendBlade (amendBlade number price life)
  | .fitBlade number saw => .request Kind.fitBlade (fitBlade number saw)
  | .removeBlade saw => .request Kind.removeBlade (removeBlade saw)
  | .retireBlade number => .request Kind.retireBlade (retireBlade number)
  | .readBlade number => .request Kind.readBlade (readBlade number)
  | .setChannel channel range filter low high raw => .request Kind.setChannel (setChannel channel range filter low high raw)
  | .readChannel channel => .request Kind.readChannel (readChannel channel)
  | .calBegin set => .request Kind.calBegin (calBegin set)
  | .calPoint set point => .request Kind.calPoint (calPoint set point)
  | .calEnd set mode => .request Kind.calEnd (calEnd set mode)
  | .calAbort set => .request Kind.calAbort (calAbort set)
  | .setPlant rating hold restart reduce turbidity sump waterRate grace =>
    .request Kind.setPlant (setPlant ⟨rating, hold, restart, reduce, turbidity, sump, waterRate, grace⟩)
  | .readPlant => .request Kind.readPlant readPlant
  | .openJob number lotNumber quote => .request Kind.openJob (openJob number lotNumber quote)
  | .amendJob number quote lotNumber => .request Kind.amendJob (amendJob number quote lotNumber)
  | .readJob number => .request Kind.readJob (readJob number)
  | .closeJob number => .request Kind.closeJob (closeJob number)
  | .retireJob number => .request Kind.retireJob (retireJob number)
  | .readNotices => .request Kind.readNotices readNotices
  | .setNotices enable master => .request Kind.setNotices (setNotices enable master)
  | .readState backup => .request Kind.readState (readState backup)
  | .wipeStore => .request Kind.wipeStore wipeStore
  | .unknownRequest kind => .request kind unknownRequest
  | .busyRequest kind => .event (busyRequest kind)
  | .replySent => .event replySent
  | .badFrame link => .event (badFrame link)
  | .byteGapTimeout link byte => .event (byteGapTimeout link byte)
  | .hello w maxFeed => .event (hello w maxFeed)
  | .loaded w plan => .message w Kind.loaded (checkLoaded w plan) (loaded w plan)
  | .start w tag => .message w Kind.start (checkStart w tag) (start w tag)
  | .done w tag => .message w Kind.done (checkDone w tag) (done w)
  | .held w tag position => .message w Kind.held (checkHeld w tag) (held w position)
  | .fault w tag position cause => .message w Kind.fault (fun _ => none) (fault w tag position (causeOf cause))
  | .status w position => .message w Kind.status (fun _ => none) (status w position)
  | .sawMessageMalformed w kind => .event (sawMessageMalformed w kind)
  | .linkSilence w => .event (linkSilence w)
  | .holdTimerExpiry w => .event (holdTimerExpiry w)
  | .interlockDrop w => .event (interlockDrop w)
  | .interlockReturn w => .event (interlockReturn w)
  | .channelSample c raw => .event (channelSample c raw)
  | .graceExpiry c => .event (graceExpiry c)
  | .fieldSupplyLoss => .event fieldSupplyLoss
  | .fieldSupplyReturn raw => .event (fieldSupplyReturn raw)
  | .capacityEvaluation => .event State.evaluate
  | .meteringInterval w => .event (meteringInterval w)
  | .resetRelease inputs => .supply (resetRelease inputs)
  | .powerReturn inputs => .supply (powerReturn inputs)
  | .powerLoss cause => .supply (powerLoss cause)
  | .backupFailure => .supply (backupFailure)

/-- A command run by its meaning. -/
def Meaning.run (s : State) : Meaning → Out
  | .request kind perform => hostRequest kind perform s
  | .message w kind check handle => sawMessage w kind check handle s
  | .event handle => Machine.event handle s
  | .supply handle => .next (handle s)

theorem exec_eq_run (i : Instr) (s : State) : exec i s = (Instr.meaning i).run s := by cases i <;> rfl

/-- What a command does to the state once it is taken, its answer aside. -/
def Meaning.act (s : State) : Meaning → State
  | .request _ perform => (perform s).2
  | .message _ _ _ handle => handle s
  | .event handle => handle s
  | .supply handle => handle s

/-- A command is taken: a request by a ready part, a message by a linked saw whose rule does not refuse it, an event by a part
that runs, a supply event always. -/
def Meaning.Taken (s : State) : Meaning → Prop
  | .request _ _ => s.ready
  | .message w _ check _ => s.linked w ∧ check s = none
  | .event _ => s.running = true
  | .supply _ => True

/-- A check of a saw's message does not see the frames queued for the saws. -/
theorem check_send {i : Instr} {w : Saw} {kind : Byte} {check : State → Option Status} {handle : State → State}
    (h : Instr.meaning i = .message w kind check handle) (s : State) (f : Frame) : check (s.send w f) = check s := by
  cases i <;> cases h <;> rfl

/-! ## A law that every step keeps -/

/-- A law that says nothing of the commands waiting, of the request slot, of the frames for the saws and of the timers that a
tick moves. -/
structure Ambient (P : State → Prop) : Prop where
  queue : ∀ s is, P s → P { s with pending := is }
  slot : ∀ s slot reply owed, P s → P { s with olc := { s.olc with slot := slot, reply := reply, owed := owed } }
  heard : ∀ s w, P s → P (s.sawFrame w)
  sent : ∀ s w f, P s → P (s.send w f)
  aged : ∀ s, P s → P s.age

section

variable {P : State → Prop} (hP : Ambient P)
include hP

theorem Ambient.oweBusy {s : State} (h : P s) (kind : Byte) : P (s.oweBusy kind) := by
  unfold State.oweBusy
  split
  · exact hP.slot s s.olc.slot s.olc.reply _ h
  · exact h

theorem Ambient.sendReply {s : State} (h : P s) (kind : Byte) (a : Answer) : P (s.sendReply kind a) :=
  hP.slot s _ _ s.olc.owed h

theorem Ambient.acked {s : State} (h : P s) (w : Saw) (kind : Byte) (st : Status) : P (s.acked w kind st) :=
  hP.sent _ w _ (hP.heard s w h)

theorem Ambient.tick {s : State} (h : P s) : P s.tick := by
  unfold State.tick
  split
  · exact hP.queue _ _ (hP.aged s h)
  · exact h

/-- A law kept by what each command does once taken is kept by the command, however it is met. -/
theorem Ambient.exec (hact : ∀ i s, P s → (Instr.meaning i).Taken s → P ((Instr.meaning i).act s)) {i : Instr} {s t : State}
    (h : P s) (ht : exec i s = .next t) : P t := by
  rw [exec_eq_run] at ht
  have act := hact i
  have sent := @check_send i
  generalize Instr.meaning i = m at ht act sent
  cases m with
  | request kind perform =>
    by_cases hr : s.running = true
    · cases hs : s.olc.slot with
      | serving =>
        rw [Meaning.run, hostRequest_serving hr hs] at ht
        cases ht
        exact hP.oweBusy h kind
      | ready =>
        rw [Meaning.run, hostRequest_ready ⟨hr, hs⟩] at ht
        cases ht
        exact hP.sendReply (act s h ⟨hr, hs⟩) _ _
    · rw [Meaning.run, hostRequest_silent (by simpa using hr)] at ht
      cases ht
      exact h
  | message w kind check handle =>
    by_cases hr : s.running = true
    · cases hl : (s.saw w).link with
      | down =>
        simp only [Meaning.run, sawMessage, hr, if_true, sawFrame_link, hl] at ht
        cases ht
        exact hP.acked h w kind .state
      | up =>
        cases hc : check (s.sawFrame w) with
        | some st =>
          rw [Meaning.run, sawMessage_refused ⟨hr, hl⟩ kind hc] at ht
          cases ht
          exact hP.acked h w kind st
        | none =>
          rw [Meaning.run, sawMessage_taken ⟨hr, hl⟩ kind hc] at ht
          cases ht
          exact act _ (hP.acked h w kind .ok) ⟨⟨hr, (sawFrame_link s w).trans hl⟩, (sent rfl _ _).trans hc⟩
    · simp only [Meaning.run, sawMessage, hr] at ht
      cases ht
      exact h
  | event handle =>
    by_cases hr : s.running = true
    · rw [Meaning.run, event_running hr] at ht
      cases ht
      exact act s h hr
    · simp only [Meaning.run, Machine.event, hr] at ht
      cases ht
      exact h
  | supply handle =>
    cases ht
    exact act s h trivial

/-- A law kept by what each command does once taken is kept by every step. -/
theorem Ambient.step (hact : ∀ i s, P s → (Instr.meaning i).Taken s → P ((Instr.meaning i).act s)) {s t : State}
    (h : P s) (ht : Machine.step s = .next t) : P t := by
  unfold Machine.step at ht
  split at ht
  · exact hP.exec hact (hP.queue s _ h) ht
  · cases ht
    exact hP.tick h

end

end Sys2Proof.Machine
end

section
/-! PROOFS. What the shared operations of a cut keep of four laws at once: ATTN with the notices (R219), the numbers of every
table (R6, R44, R132, R187), the figures in their ranges, and the pieces of the plans. -/

namespace Sys2Proof.Machine

/-! ## Tables seen through their numbers -/

theorem rising_iff_pairwise {α : Type} {key : α → Nat} {xs : List α} : Rising key xs ↔ (xs.map key).Pairwise (· < ·) := by
  induction xs with
  | nil => simp [Rising]
  | cons x xs ih => simp [Rising, ih]

theorem Rising.of_map_eq {α : Type} {key : α → Nat} {xs ys : List α} (h : Rising key xs) (e : ys.map key = xs.map key) :
    Rising key ys := by
  rw [rising_iff_pairwise] at h ⊢
  rwa [e]

theorem length_eq_of_map_eq {α β : Type} {f : α → β} {xs ys : List α} (e : ys.map f = xs.map f) : ys.length = xs.length := by
  simpa using congrArg List.length e

theorem map_updateBy {α β : Type} {key : α → Nat} {g : α → β} {n : Nat} {f : α → α} {xs : List α}
    (h : ∀ x ∈ xs, key x = n → g (f x) = g x) : (updateBy key n f xs).map g = xs.map g := by
  simp only [updateBy, List.map_map]
  refine List.map_congr_left fun x hx => ?_
  by_cases e : key x = n <;> simp [e, h x hx]

theorem forall_mem_updateBy {α : Type} {key : α → Nat} {Q : α → Prop} {n : Nat} {f : α → α} {xs : List α}
    (h : ∀ x ∈ xs, Q x) (hf : ∀ x ∈ xs, key x = n → Q (f x)) : ∀ x ∈ updateBy key n f xs, Q x := by
  intro x hx
  obtain ⟨y, hy, rfl⟩ := List.mem_map.mp hx
  by_cases e : key y = n
  · simpa [e] using hf y hy e
  · simpa [e] using h y hy

/-! ## What a shared operation keeps -/

/-- A plan record but for its derived part. -/
def Plan.bare (p : Plan) : Plan := { p with derived := none }

/-- The laws of ATTN, of the tables and of the ranges go on from one state to another. -/
structure Sound (s t : State) : Prop where
  attn : AttnLaw s → AttnLaw t
  tables : TableLaw s → TableLaw t
  ranges : RangeLaw s → RangeLaw t

/-- Besides the three laws, the plan records go on as they are but for their passes. -/
structure Steady (s t : State) : Prop extends Sound s t where
  plans : t.pln.plans.map Plan.bare = s.pln.plans.map Plan.bare

theorem Sound.refl (s : State) : Sound s s := ⟨id, id, id⟩
theorem Sound.trans {s t u : State} (h : Sound s t) (k : Sound t u) : Sound s u :=
  ⟨k.attn ∘ h.attn, k.tables ∘ h.tables, k.ranges ∘ h.ranges⟩
theorem Steady.refl (s : State) : Steady s s := ⟨.refl s, rfl⟩
theorem Steady.trans {s t u : State} (h : Steady s t) (k : Steady t u) : Steady s u :=
  ⟨h.toSound.trans k.toSound, k.plans.trans h.plans⟩

/-- Composition from the last operation back. -/
theorem Steady.after {s t u : State} (k : Steady t u) (h : Steady s t) : Steady s u := h.trans k

theorem AttnLaw.congr {s t : State} (h : AttnLaw s) (ho : t.olc = s.olc) (hr : t.rsv = s.rsv) : AttnLaw t := by
  simpa [AttnLaw, State.running, ho, hr] using h

theorem attnLaw_settleAttn (s : State) : AttnLaw s.settleAttn := rfl

theorem TableLaw.congr {s t : State} (h : TableLaw s) (hs : t.stk = s.stk)
    (hp : t.pln.plans.map Plan.number = s.pln.plans.map Plan.number)
    (hb : t.bld.blades.map Blade.number = s.bld.blades.map Blade.number)
    (hj : t.jcu.jobs.map Job.number = s.jcu.jobs.map Job.number) : TableLaw t where
  slabs := hs ▸ h.slabs
  slabsFit := hs ▸ h.slabsFit
  materials := hs ▸ h.materials
  materialCodes := hs ▸ h.materialCodes
  plans := h.plans.of_map_eq hp
  plansFit := (length_eq_of_map_eq hp).trans_le h.plansFit
  blades := h.blades.of_map_eq hb
  bladesFit := (length_eq_of_map_eq hb).trans_le h.bladesFit
  jobs := h.jobs.of_map_eq hj
  jobsFit := (length_eq_of_map_eq hj).trans_le h.jobsFit
  counter := hs ▸ h.counter

theorem map_number_of_bare {xs ys : List Plan} (h : ys.map Plan.bare = xs.map Plan.bare) :
    ys.map Plan.number = xs.map Plan.number := by
  simpa [Function.comp_def, Plan.bare] using congrArg (List.map Plan.number) h

/-! ## The plain updates -/

/-- An update that leaves stock, plans, blades, jobs, notices and supplies, and every saw's figures in range. -/
theorem Steady.of_blocks {s t : State} (hs : t.stk = s.stk) (hp : t.pln = s.pln) (hb : t.bld = s.bld) (hj : t.jcu = s.jcu)
    (ho : t.olc = s.olc) (hr : t.rsv = s.rsv) (hw : ∀ w, SawRange (s.saw w) → SawRange (t.saw w)) : Steady s t where
  attn h := h.congr ho hr
  tables h := h.congr hs (by rw [hp]) (by rw [hb]) (by rw [hj])
  ranges h := ⟨hj ▸ h.jobs, hb ▸ h.blades, fun w => hw w (h.saws w), hs ▸ h.audit⟩
  plans := by rw [hp]

theorem Steady.updateSaw (s : State) (w : Saw) {f : SawRec → SawRec} (h : SawRange (s.saw w) → SawRange (f (s.saw w))) :
    Steady s (s.updateSaw w f) := by
  refine .of_blocks rfl rfl rfl rfl rfl rfl fun v hv => ?_
  rw [State.saw_updateSaw]
  split
  · subst v
    exact h hv
  · exact hv

theorem Steady.send (s : State) (w : Saw) (f : Frame) : Steady s (s.send w f) := .of_blocks rfl rfl rfl rfl rfl rfl fun _ => id
theorem Steady.withWau (s : State) (f : Admission → Admission) : Steady s (s.withWau f) :=
  .of_blocks rfl rfl rfl rfl rfl rfl fun _ => id
theorem Steady.setSawState (s : State) (w : Saw) (x : SawState) : Steady s (s.setSawState w x) :=
  .updateSaw _ _ fun ⟨a, b, c, d, e, f, g, h, i, j, k⟩ => ⟨a, b, c, d, e, f, g, h, i, j, k⟩

theorem Steady.raise (s : State) (n : Notice) : Steady s (s.raise n) where
  attn _ := attnLaw_settleAttn _
  tables h := h.congr rfl rfl rfl rfl
  ranges h := ⟨h.jobs, h.blades, h.saws, h.audit⟩
  plans := rfl

theorem Steady.raiseIf (s : State) (c : Bool) (n : Notice) : Steady s (s.raiseIf c n) := by
  cases c
  · exact .refl s
  · exact .raise s n

theorem Steady.updateJob (s : State) (n : Nat) {f : Job → Job} (hn : ∀ j ∈ s.jcu.jobs, j.number = n → (f j).number = j.number)
    (hr : (∀ j ∈ s.jcu.jobs, JobRange j) → ∀ j ∈ s.jcu.jobs, j.number = n → JobRange (f j)) : Steady s (s.updateJob n f) where
  attn h := h
  tables h := h.congr rfl rfl rfl (map_updateBy hn)
  ranges h := ⟨forall_mem_updateBy h.jobs (hr h.jobs), h.blades, h.saws, h.audit⟩
  plans := rfl

theorem Steady.updateBlade (s : State) (n : Nat) {f : Blade → Blade} (hn : ∀ b, (f b).number = b.number)
    (hr : ∀ b, BladeRange b → BladeRange (f b)) : Steady s (s.updateBlade n f) where
  attn h := h
  tables h := h.congr rfl rfl (map_updateBy fun b _ _ => hn b) rfl
  ranges h := ⟨h.jobs, forall_mem_updateBy h.blades fun b hb _ => hr b (h.blades b hb), h.saws, h.audit⟩
  plans := rfl

theorem Steady.updatePlan (s : State) (n : Nat) {f : Plan → Plan} (hf : ∀ p, (f p).bare = p.bare) :
    Steady s (s.updatePlan n f) := by
  have hp : (updateBy Plan.number n f s.pln.plans).map Plan.bare = s.pln.plans.map Plan.bare := map_updateBy fun p _ _ => hf p
  exact
    { attn := fun h => h
      tables := fun h => h.congr rfl (map_number_of_bare hp) rfl rfl
      ranges := fun h => ⟨h.jobs, h.blades, h.saws, h.audit⟩
      plans := hp }

theorem Steady.updatePass (s : State) (n i : Nat) (f : Pass → Pass) : Steady s (s.updatePass n i f) :=
  .updatePlan s n fun _ => rfl

/-! ## Charges, wear and health -/

/-- A change of a job record that a charge makes: the number stays and the figures stay in range. -/
def ChargeOk (f : Job → Job) : Prop := ∀ j, (f j).number = j.number ∧ (JobRange j → JobRange (f j))

theorem satAdd_le (limit a b : Nat) : satAdd limit a b ≤ limit := Nat.min_le_left ..

theorem chargeOk_stone (n : Nat) : ChargeOk (Job.chargeStone n) :=
  fun _ => ⟨rfl, fun h => { h with stone := satAdd_le .. }⟩
theorem chargeOk_blade (n : Nat) : ChargeOk (Job.chargeBlade n) :=
  fun _ => ⟨rfl, fun h => { h with blade := satAdd_le .. }⟩
theorem chargeOk_sawTime (rate time : Nat) : ChargeOk (Job.chargeSawTime rate time) :=
  fun _ => ⟨rfl, fun h => { h with sawTime := satAdd_le .., sawRemainder := Nat.mod_lt _ (by decide) }⟩
theorem chargeOk_water (rate volume : Nat) : ChargeOk (Job.chargeWater rate volume) :=
  fun _ => ⟨rfl, fun h => { h with water := satAdd_le .., waterRemainder := Nat.mod_lt _ (by decide) }⟩

theorem JobRange.of_figures {j k : Job} (h : JobRange j) (hs : k.stone = j.stone) (ht : k.sawTime = j.sawTime)
    (hw : k.water = j.water) (hb : k.blade = j.blade) (hq : k.quote = j.quote) (hsr : k.sawRemainder = j.sawRemainder)
    (hwr : k.waterRemainder = j.waterRemainder) (hp : k.planned = j.planned) (hc : k.cut = j.cut) : JobRange k :=
  ⟨hs ▸ h.stone, ht ▸ h.sawTime, hw ▸ h.water, hb ▸ h.blade, hq ▸ h.quote, hsr ▸ h.sawRemainder, hwr ▸ h.waterRemainder,
    hp ▸ h.planned, hc ▸ h.cut⟩

theorem Steady.charge (s : State) (n : Nat) {f : Job → Job} (hf : ChargeOk f) : Steady s (s.charge n f) := by
  unfold State.charge
  cases hj : s.job? n with
  | none => exact .refl s
  | some j =>
    obtain ⟨hmem, hnum⟩ := findBy_some hj
    refine .trans (.updateJob s n (fun k _ hk => ?_) fun h k _ _ => ?_) (.raiseIf ..)
    · exact (hf j).1.trans (hnum.trans hk.symm)
    · exact ((hf j).2 (h j hmem)).of_figures rfl rfl rfl rfl rfl rfl rfl rfl rfl

theorem Steady.testHealth (s : State) (n : Nat) : Steady s (s.testHealth n) := by
  unfold State.testHealth
  split
  · exact .refl s
  · exact .after (.raiseIf ..) (.after (.raiseIf ..) (.updateBlade s n (fun _ => rfl) fun _ h =>
      ⟨h.life, h.price, h.wear, h.wearRemainder, h.costRemainder, h.overloads⟩))

theorem Steady.accrueWear (s : State) (n p h : Nat) : Steady s (s.accrueWear n p h).2 := by
  unfold State.accrueWear
  split
  · exact .refl s
  · refine .after (.testHealth ..) (.updateBlade s n (fun _ => rfl) fun b hb => ?_)
    have life : 500 ≤ b.life := by have := hb.life; simp only [within, Bool.and_eq_true, decide_eq_true_eq] at this; exact this.1
    exact { hb with
      wear := satAdd_le ..
      wearRemainder := Nat.mod_lt _ (by decide)
      costRemainder := Nat.mod_lt _ (by omega) }

theorem Steady.countOverload (s : State) (n : Nat) : Steady s (s.countOverload n) :=
  .after (.testHealth ..) (.updateBlade s n (fun _ => rfl) fun _ h => { h with overloads := satAdd_le .. })

theorem Steady.faultBlade (s : State) (w : Saw) (c : Cause) : Steady s (s.faultBlade w c) := by
  unfold State.faultBlade
  split
  · exact .countOverload ..
  · exact .refl s

theorem Steady.chargeHead (s : State) (w : Saw) {f : Job → Job} (hf : ChargeOk f) : Steady s (s.chargeHead w f) := by
  unfold State.chargeHead
  split
  · exact .charge s _ hf
  · exact .refl s

theorem Steady.chargeWear (s : State) (w : Saw) (p : Nat) : Steady s (s.chargeWear w p) := by
  unfold State.chargeWear
  split
  · exact .after (.chargeHead _ w (chargeOk_blade _)) (.accrueWear ..)
  · exact .refl s

theorem Steady.closeSegment (s : State) (w : Saw) (p : Nat) : Steady s (s.closeSegment w p) := by
  unfold State.closeSegment
  refine .after (.updateSaw _ w fun h => ?_) (.after (.chargeHead _ w (chargeOk_water _ _))
    (.after (.chargeHead _ w (chargeOk_sawTime _ _)) (.after (.updateSaw _ w fun h => ?_) (.chargeWear ..))))
  · exact { h with time := Nat.zero_le _, passTime := satAdd_le .. }
  · exact { h with flow := Nat.zero_le _, remainder := Nat.mod_lt _ (by decide) }

/-! ## Passes, windows and cuts -/

theorem Steady.reportReached (s : State) (w : Saw) (p : Nat) : Steady s (s.reportReached w p) := by
  unfold State.reportReached
  split
  · exact .updatePass ..
  · exact .refl s

theorem SawRange.window {r : SawRec} (h : SawRange r) (o : List Outstanding) {t : Nat} (ht : t ≤ 7) :
    SawRange { r with outstanding := o, nextTag := t } :=
  { h with nextTag := ht }

theorem nextTag_le (t : Nat) : (t + 1) % 8 ≤ 7 := Nat.lt_succ_iff.mp (Nat.mod_lt _ (by decide))

theorem Steady.dropWindow (s : State) (w : Saw) : Steady s (s.dropWindow w) := by
  unfold State.dropWindow
  refine .after (.updateSaw _ w fun h => h.window [] h.nextTag) ?_
  split
  · exact .updatePlan _ _ fun _ => rfl
  · exact .refl s

theorem Steady.stagePass (s : State) (w : Saw) : Steady s (s.stagePass w) := by
  unfold State.stagePass
  split
  · exact .refl s
  · split
    · exact .refl s
    · exact .after (.updatePass ..) (.after (.send ..) (.updateSaw s w fun h => h.window _ (nextTag_le _)))

theorem Steady.refill (s : State) (w : Saw) : Steady s (s.refill w) := by
  unfold State.refill
  split
  · exact .stagePass s w
  · exact .refl s

theorem Steady.openSegment (s : State) (w : Saw) : Steady s (s.openSegment w) := by
  unfold State.openSegment
  exact .updateSaw s w fun h => { h with flow := Nat.zero_le _, time := Nat.zero_le _ }

theorem Steady.writeContext (s : State) (w : Saw) (k : ContextKind) (c : Option Cause) {n : Nat} (hn : n ≤ 1) :
    Steady s (s.writeContext w k c n) := by
  unfold State.writeContext
  exact .updateSaw s w fun h => { h with faults := by intro c hc; cases hc; exact hn.trans (by decide) }

theorem Steady.admitSaw (s : State) (w : Saw) : Steady s (s.admitSaw w) := .withWau ..

theorem Steady.grantGo (s : State) (w : Saw) : Steady s (s.grantGo w) := by
  unfold State.grantGo
  refine .after (.setSawState ..) (.after (.openSegment ..)
    (.after (.updateSaw _ w fun h => { h with passTime := Nat.zero_le _ }) ?_))
  split
  · exact .after (.updatePass ..) (.send ..)
  · exact .refl s

theorem Steady.tagActive (s : State) (w : Saw) (q : Pass) : Steady s (s.tagActive w q).2 := by
  unfold State.tagActive
  split
  · exact .refl s
  · dsimp only
    exact .updateSaw s w fun h => h.window _ (nextTag_le _)

theorem Steady.clearContext (s : State) (w : Saw) : Steady s (s.updateSaw w fun r => { r with context := none }) :=
  .updateSaw s w fun h => { h with faults := by simp }

theorem Steady.resumeCut (s : State) (w : Saw) : Steady s (s.resumeCut w) := by
  unfold State.resumeCut
  refine .after (.setSawState ..) (.after (.clearContext ..) (.after (.refill ..) (.after (.openSegment ..) ?_)))
  split
  · exact .after (.send ..) (.tagActive ..)
  · exact .refl s

theorem Steady.enterCut (s : State) (w : Saw) : Steady s (s.enterCut w) := by
  unfold State.enterCut
  split
  · exact .resumeCut s w
  · exact .grantGo s w

theorem SawRange.timed {r : SawRec} (h : SawRange r) (x : SawState) {t : Option Nat} (ht : ∀ n ∈ t, n ≤ Config.holdTime) :
    SawRange { r with state := x, holdTimer := t } :=
  { h with holdTimer := ht }

theorem Steady.stopTimer (s : State) (w : Saw) : Steady s (s.updateSaw w fun r => { r with holdTimer := none }) :=
  .updateSaw s w fun h => h.timed _ (by simp)

theorem Steady.orderHold (s : State) (w : Saw) : Steady s (s.orderHold w) :=
  .after (.updateSaw _ w fun h => h.timed _ (by simp)) (.send ..)

/-! ## Stops and admission passes -/

theorem Steady.leaveWater {pass : State → State} (hp : ∀ s, Steady s (pass s)) (s : State) (w : Saw) :
    Steady s (s.leaveWater pass w) := by
  unfold State.leaveWater
  split
  · exact .after (hp _) (.withWau ..)
  · exact .withWau ..
  · exact .refl s

theorem Steady.faultInCut {pass : State → State} (hp : ∀ s, Steady s (pass s)) (s : State) (w : Saw) (p : Nat) (c : Cause) :
    Steady s (s.faultInCut pass w p c) := by
  unfold State.faultInCut
  exact .after (.raise ..) (.after (.setSawState ..) (.after (.writeContext _ _ _ _ (Nat.le_refl 1)) (.after (.faultBlade ..)
    (.after (.leaveWater hp ..) (.after (.closeSegment ..) (.after (.reportReached ..) (.stopTimer s w)))))))

theorem Steady.settleInterlock {pass : State → State} (hp : ∀ s, Steady s (pass s)) (s : State) (w : Saw) :
    Steady s (s.settleInterlock pass w) := by
  unfold State.settleInterlock
  split
  · exact .refl s
  · exact .faultInCut hp ..

theorem Steady.admissionPass (n : Nat) : ∀ s, Steady s (admissionPass n s) := by
  induction n with
  | zero => exact .refl
  | succ n ih =>
    intro s
    unfold Machine.admissionPass
    split
    · exact .refl s
    · split
      · exact .after (ih _) (.after (.settleInterlock ih ..) (.after (.enterCut ..) (.after (.admitSaw ..) (.withWau ..))))
      · exact .refl s

theorem Steady.runPass (s : State) : Steady s s.runPass := .admissionPass _ s

theorem Steady.removeFromLine (s : State) (w : Saw) : Steady s (s.removeFromLine w) := by
  unfold State.removeFromLine
  split
  · exact .after (.runPass _) (.withWau ..)
  · exact .refl s

theorem Steady.revokeDown (c : Nat) (ws : List Saw) : ∀ s, Steady s (revokeDown c ws s) := by
  induction ws with
  | nil => exact .refl
  | cons w ws ih =>
    intro s
    unfold Machine.revokeDown
    split
    · exact .refl s
    · split
      · exact .after (ih _) (.after (.orderHold ..) (.withWau ..))
      · exact ih s

theorem Steady.evaluate (s : State) : Steady s s.evaluate := by
  unfold State.evaluate
  have settled (c : Nat) (t : State) : Steady t (if s.wau.capacity < c then t.runPass else t) := by
    split
    · exact .runPass t
    · exact .refl t
  exact .after (.raiseIf ..) (.after (settled _ _) (.after (.withWau ..) (.after (.revokeDown ..) (.withWau ..))))

end Sys2Proof.Machine
end

section
/-! PROOFS. The requests of the stock, the plans, the saws, the blades, the plant, the jobs and the office keep ATTN, the tables
and the ranges. -/

namespace Sys2Proof.Machine

theorem Sound.after {s t u : State} (k : Sound t u) (h : Sound s t) : Sound s u := h.trans k

/-! ## Requests that only read -/

/-- The requests and frames that leave the records as they are. -/
def Instr.reads : Instr → Bool
  | .readMaterial _ | .readSlab _ | .findSlabs .. | .readRack _ | .readAudit | .readPlan _ | .readPassList _ | .readSaw _
  | .readContext _ | .readBlade _ | .readChannel _ | .readPlant | .readJob _ | .unknownRequest _ => true
  | _ => false

theorem act_of_reads {i : Instr} (h : Instr.reads i = true) (s : State) : (Instr.meaning i).act s = s := by
  cases i
  case readMaterial => simp only [Instr.meaning, Meaning.act, readMaterial]; split <;> rfl
  case readSlab => simp only [Instr.meaning, Meaning.act, readSlab]; split <;> rfl
  case findSlabs => simp only [Instr.meaning, Meaning.act, findSlabs]; split <;> rfl
  case readRack => simp only [Instr.meaning, Meaning.act, readRack]; split <;> rfl
  case readPlan => simp only [Instr.meaning, Meaning.act, readPlan]; split <;> rfl
  case readPassList => simp only [Instr.meaning, Meaning.act, readPassList]; split <;> rfl
  case readSaw => simp only [Instr.meaning, Meaning.act, readSaw]; split <;> rfl
  case readContext => simp only [Instr.meaning, Meaning.act, readContext]; split <;> rfl
  case readBlade => simp only [Instr.meaning, Meaning.act, readBlade]; split <;> rfl
  case readChannel => simp only [Instr.meaning, Meaning.act, readChannel]; split <;> rfl
  case readJob => simp only [Instr.meaning, Meaning.act, readJob]; split <;> rfl
  case readAudit | readPlant | unknownRequest => rfl
  all_goals exact absurd h Bool.false_ne_true

/-! ## Stock: tables and marks -/

/-- The number of slabs that carry the mark depends on the marks alone. -/
theorem marks_of_map_eq {xs ys : List Slab} (e : ys.map Slab.mark = xs.map Slab.mark) :
    (ys.filter Slab.mark).length = (xs.filter Slab.mark).length := by
  simpa [List.filter_map, Function.comp_def] using congrArg (fun l => (l.filter id).length) e

theorem AuditRange.of_slabs {k : Stock} {ys : List Slab} (h : AuditRange k) (hn : ys.length ≤ Config.maxSlabs)
    (hm : (ys.filter Slab.mark).length ≤ (k.slabs.filter Slab.mark).length) : AuditRange { k with slabs := ys } :=
  ⟨hn, hm.trans h.marks, h.counts⟩

/-- A change of the slab table that keeps its laws. -/
theorem Sound.slabs (s : State) {g : List Slab → List Slab}
    (ht : TableLaw s → Rising Slab.number (g s.stk.slabs) ∧ (g s.stk.slabs).length ≤ Config.maxSlabs)
    (ha : AuditRange s.stk → AuditRange { s.stk with slabs := g s.stk.slabs }) : Sound s (s.withSlabs g) where
  attn h := h
  tables h := { h with slabs := (ht h).1, slabsFit := (ht h).2 }
  ranges h := { h with audit := ha h.audit }

/-- A change of slab records that keeps their numbers and marks. -/
theorem Steady.updateSlab (s : State) (n : Nat) {f : Slab → Slab} (hn : ∀ r, (f r).number = r.number)
    (hm : ∀ r, (f r).mark = r.mark) : Steady s (s.updateSlab n f) := by
  have numbers := map_updateBy (g := Slab.number) (n := n) (xs := s.stk.slabs) fun r _ (_ : r.number = n) => hn r
  have marks := map_updateBy (g := Slab.mark) (n := n) (xs := s.stk.slabs) fun r _ (_ : r.number = n) => hm r
  exact ⟨.slabs s (fun h => ⟨h.slabs.of_map_eq numbers, (length_eq_of_map_eq numbers).trans_le h.slabsFit⟩)
    fun h => h.of_slabs ((length_eq_of_map_eq numbers).trans_le h.slabs) (marks_of_map_eq marks).le, rfl⟩

theorem Steady.withRackMap (s : State) (f : List RackEntry → List RackEntry) : Steady s (s.withRackMap f) where
  attn h := h
  tables h := { h with }
  ranges h := { h with audit := ⟨h.audit.slabs, h.audit.marks, h.audit.counts⟩ }
  plans := rfl

theorem Steady.clearRack (s : State) (p : Place) : Steady s (s.clearRack p) := .withRackMap ..

theorem Steady.setPlace (s : State) (n : Nat) (p : Option Place) : Steady s (s.setPlace n p) := by
  unfold State.setPlace
  split
  · exact .refl s
  · refine .after (.updateSlab _ n (fun _ => rfl) fun _ => rfl) ?_
    have emptied (q : Option Place) : Steady s (q.elim s s.clearRack) := by
      cases q
      · exact .refl s
      · exact .clearRack ..
    cases p
    · exact emptied _
    · exact .after (.withRackMap ..) (.after (.clearRack ..) (emptied _))

theorem marks_unmarked (n : Nat) (xs : List Slab) :
    ((updateBy Slab.number n (fun r => { r with mark := false }) xs).filter Slab.mark).length
      ≤ (xs.filter Slab.mark).length := by
  induction xs with
  | nil => exact Nat.le_refl _
  | cons x xs ih =>
    simp only [updateBy, List.map_cons] at ih ⊢
    by_cases e : x.number = n <;> by_cases m : x.mark = true <;> simp [e, m] <;> omega

theorem marks_unmarked_lt {n : Nat} {xs : List Slab} {r : Slab} (h : findBy Slab.number n xs = some r) (hm : r.mark = true) :
    ((updateBy Slab.number n (fun r => { r with mark := false }) xs).filter Slab.mark).length
      < (xs.filter Slab.mark).length := by
  induction xs with
  | nil => cases h
  | cons x xs ih =>
    have := marks_unmarked n xs
    rw [findBy_cons] at h
    simp only [updateBy, List.map_cons] at ih this ⊢
    by_cases e : x.number = n
    · simp only [e, if_true, Option.some.injEq] at h
      subst h
      simp [e, hm]
      omega
    · simp only [e, if_false] at h
      have := ih h
      by_cases m : x.mark = true <;> simp [e, m] <;> omega

theorem Steady.unmark (s : State) (n : Nat) {v : Nat} (hv : v ≤ 1) : Steady s (s.unmark n v) := by
  unfold State.unmark
  split
  case h_2 => exact .refl s
  case h_1 r hr =>
    split
    case isFalse => exact .refl s
    case isTrue hm =>
      have numbers := map_updateBy (g := Slab.number) (f := fun r => { r with mark := false }) (n := n) (xs := s.stk.slabs)
        fun r _ (_ : r.number = n) => rfl
      have fewer := marks_unmarked_lt hr hm
      refine ⟨⟨fun h => h, fun h => ?_, fun h => ⟨h.jobs, h.blades, h.saws, ?_⟩⟩, rfl⟩
      · exact { h with
          slabs := h.slabs.of_map_eq numbers
          slabsFit := (length_eq_of_map_eq numbers).trans_le h.slabsFit }
      · have := h.audit.marks
        have := h.audit.counts
        refine ⟨(length_eq_of_map_eq numbers).trans_le h.audit.slabs, ?_, ?_⟩
        · simp only [State.withAudit_stk, State.updateSlab, State.withSlabs_stk]
          omega
        · simp only [State.withAudit_stk, State.updateSlab, State.withSlabs_stk]
          omega

theorem Steady.place (s : State) (n : Nat) (p : Option Place) : Steady s (s.place n p) :=
  .after (.unmark _ n (Nat.le_refl 1)) (.after (.updateSlab _ n (fun _ => rfl) fun _ => rfl) (.setPlace ..))

/-- Every mark rewritten, with counts that suit the new marks. -/
theorem Steady.remark (s : State) {f : Slab → Slab} {a : Audit} (hn : ∀ r, (f r).number = r.number)
    (hm : ((s.stk.slabs.map f).filter Slab.mark).length ≤ a.marked)
    (hc : s.stk.slabs.length ≤ Config.maxSlabs → a.marked + a.verified ≤ Config.maxSlabs) :
    Steady s ((s.withSlabs fun rs => rs.map f).withAudit fun _ => a) where
  attn h := h
  tables h := { h with slabs := h.slabs.map hn, slabsFit := by simpa using h.slabsFit }
  ranges h := { h with audit := ⟨by simpa using h.audit.slabs, hm, hc h.audit.slabs⟩ }
  plans := rfl

theorem marks_cleared (xs : List Slab) : ((xs.map fun r => { r with mark := false }).filter Slab.mark).length = 0 := by
  simp

theorem Steady.closeAudit (s : State) : Steady s s.closeAudit :=
  .remark s (fun _ => rfl) (marks_cleared _).le fun _ => Nat.zero_le _

theorem Steady.openAudit (s : State) (spans : List Span) : Steady s (s.openAudit spans) := by
  refine .remark s (fun _ => rfl) ?_ fun h => (List.length_filter_le ..).trans h
  simp [List.filter_map, Function.comp_def]

theorem Steady.declareMissing (s : State) : Steady s s.declareMissing := by
  have number (r : Slab) : r.declareMissing.number = r.number := by unfold Slab.declareMissing; split <;> rfl
  have mark (r : Slab) : r.declareMissing.mark = r.mark := by unfold Slab.declareMissing; split <;> rfl
  refine .after ⟨.slabs _ (fun h => ⟨h.slabs.map number, by simpa using h.slabsFit⟩) fun h => h.of_slabs ?_ ?_, rfl⟩
    (.withRackMap s _)
  · simpa using h.slabs
  · exact (marks_of_map_eq (by simp [Function.comp_def, mark])).le

theorem AuditRange.insert {k : Stock} {r : Slab} (h : AuditRange k) (hn : k.slabs.length < Config.maxSlabs)
    (hr : r.mark = false) : AuditRange { k with slabs := insertBy Slab.number r k.slabs } := by
  refine h.of_slabs (by simpa using hn) ?_
  have : ∀ xs : List Slab, (insertBy Slab.number r xs).filter Slab.mark = xs.filter Slab.mark := by
    intro xs
    induction xs with
    | nil => simp [insertBy, hr]
    | cons x xs ih =>
      unfold insertBy
      split
      · simp [hr]
      · simp [List.filter_cons, ih]
  rw [this]

/-! ## The requests of the stock -/

theorem defineMaterial_steady (code hardness feed : Nat) (s : State) : Steady s (defineMaterial code hardness feed s).2 := by
  unfold defineMaterial
  split
  · exact .refl s
  case isFalse hc =>
    refine ⟨⟨fun h => h, fun h => { h with materials := ?_, materialCodes := ?_ }, fun h =>
      ⟨h.jobs, h.blades, h.saws, h.audit.slabs, h.audit.marks, h.audit.counts⟩⟩, rfl⟩
    · exact h.materials.removeBy.insertBy (by simp [findBy_removeBy])
    · intro m hm
      obtain rfl | hm := mem_insertBy.mp hm
      · dsimp only
        omega
      · exact h.materialCodes m (mem_removeBy.mp hm).1

theorem dropMaterial_steady (code : Nat) (s : State) : Steady s (dropMaterial code s).2 := by
  unfold dropMaterial
  iterate 3 (split; exact .refl s)
  exact ⟨⟨fun h => h, fun h => { h with
      materials := h.materials.removeBy
      materialCodes := fun m hm => h.materialCodes m (mem_removeBy.mp hm).1 },
    fun h => ⟨h.jobs, h.blades, h.saws, h.audit.slabs, h.audit.marks, h.audit.counts⟩⟩, rfl⟩

theorem Steady.insertSlab (s : State) {r : Slab} (hr : s.slab? r.number = none) (hn : s.stk.slabs.length < Config.maxSlabs)
    (hm : r.mark = false) : Steady s (s.withSlabs (insertBy Slab.number r)) :=
  ⟨.slabs s (fun h => ⟨h.slabs.insertBy hr, by simpa using hn⟩) fun h => h.insert hn hm, rfl⟩

theorem createSlab_steady (number material thickness lotNumber lotSeq length width basis : Nat) (flaws : List Flaw) (s : State) :
    Steady s (createSlab number material thickness lotNumber lotSeq length width basis flaws s).2 := by
  unfold createSlab
  iterate 2 (split; exact .refl s)
  split
  · exact .refl s
  case isFalse hx =>
    split
    · exact .refl s
    case isFalse hf => exact .insertSlab s (by simpa using hx) (by omega) rfl

theorem amendSlab_steady (number material thickness lotNumber lotSeq basis : Nat) (flaws : List Flaw) (s : State) :
    Steady s (amendSlab number material thickness lotNumber lotSeq basis flaws s).2 := by
  unfold amendSlab
  iterate 5 (split; exact .refl s)
  exact .updateSlab s _ (fun _ => rfl) fun _ => rfl

theorem scrapSlab_steady (n : Nat) (s : State) : Steady s (scrapSlab n s).2 := by
  unfold scrapSlab
  iterate 2 (split; exact .refl s)
  exact .after (.updateSlab _ _ (fun _ => rfl) fun _ => rfl) (.after (.unmark _ n (Nat.zero_le 1)) (.setPlace ..))

theorem retireSlab_steady (n : Nat) (s : State) : Steady s (retireSlab n s).2 := by
  unfold retireSlab
  split
  · exact .refl s
  · split
    · refine ⟨.slabs s (fun h => ⟨h.slabs.removeBy, (length_removeBy ..).trans h.slabsFit⟩) fun h =>
        h.of_slabs ((length_removeBy ..).trans h.slabs) ?_, rfl⟩
      exact ((List.filter_sublist).filter _).length_le
    · exact .refl s

theorem moveSlab_steady (n rack position : Nat) (s : State) : Steady s (moveSlab n rack position s).2 := by
  unfold moveSlab
  iterate 4 (split; exact .refl s)
  exact .place ..

theorem verifySlab_steady (n rack position : Nat) (s : State) : Steady s (verifySlab n rack position s).2 := by
  unfold verifySlab
  iterate 3 (split; exact .refl s)
  refine .after (.place ..) ?_
  cases s.other? n (placeOf rack position)
  · exact .refl s
  · exact .setPlace ..

theorem startAudit_steady (spans : List Span) (s : State) : Steady s (startAudit spans s).2 := by
  unfold startAudit
  split
  · exact .refl s
  · refine .after (.openAudit ..) ?_
    split
    · exact .closeAudit s
    · exact .refl s

theorem endAudit_steady (s : State) : Steady s (endAudit s).2 := by
  unfold endAudit
  split
  · exact .refl s
  · exact .after (.raise ..) (.after (.closeAudit _) (.declareMissing s))

theorem abortAudit_steady (s : State) : Steady s (abortAudit s).2 := by
  unfold abortAudit
  split
  · exact .refl s
  · exact .closeAudit s

end Sys2Proof.Machine
end

section
/-! PROOFS. The plan requests, the loading and completion of plans, and the saw, blade, channel, plant, job and office requests
keep ATTN, the tables and the ranges. -/

namespace Sys2Proof.Machine

/-! ## Plans and their saws -/

theorem Steady.sound {s t : State} (h : Steady s t) : Sound s t := h.toSound

theorem Sound.updatePlan (s : State) (n : Nat) {f : Plan → Plan} (hf : ∀ p, (f p).number = p.number) :
    Sound s (s.updatePlan n f) where
  attn h := h
  tables h := h.congr rfl (map_updateBy fun p _ _ => hf p) rfl rfl
  ranges h := ⟨h.jobs, h.blades, h.saws, h.audit⟩

/-- A change of job records that is safe for each of them. -/
theorem Steady.updateJobs (s : State) (n : Nat) {f : Job → Job} (hf : ChargeOk f) : Steady s (s.updateJob n f) :=
  .updateJob s n (fun j _ _ => (hf j).1) fun h j hj _ => (hf j).2 (h j hj)

theorem chargeOk_reducePlanned (n : Nat) : ChargeOk (Job.reducePlanned n) := by
  refine fun j => ⟨rfl, fun h => { h with planned := ?_ }⟩
  have := h.planned
  simp only [Job.reducePlanned]
  split <;> omega
theorem chargeOk_addPlanned (n : Nat) : ChargeOk (Job.addPlanned n) := fun _ => ⟨rfl, fun h => { h with planned := satAdd_le .. }⟩
theorem chargeOk_addCut (n : Nat) : ChargeOk (Job.addCut n) := fun _ => ⟨rfl, fun h => { h with cut := satAdd_le .. }⟩
theorem chargeOk_plans (g : List Nat → List Nat) : ChargeOk fun j => { j with plans := g j.plans } :=
  fun _ => ⟨rfl, fun h => { h with }⟩

theorem Steady.reserve (s : State) (n p : Nat) : Steady s (s.reserve n p) := by
  unfold State.reserve
  exact .updateSlab s n (fun _ => rfl) fun _ => rfl
theorem Steady.unreserve (s : State) (n : Nat) : Steady s (s.unreserve n) := by
  unfold State.unreserve
  exact .updateSlab s n (fun _ => rfl) fun _ => rfl
theorem Steady.consume (s : State) (n : Nat) : Steady s (s.consume n) := by
  unfold State.consume
  exact .updateSlab s n (fun _ => rfl) fun _ => rfl
theorem Steady.scrapOnAbandon (s : State) (n : Nat) : Steady s (s.scrapOnAbandon n) := by
  unfold State.scrapOnAbandon
  exact .updateSlab s n (fun _ => rfl) fun _ => rfl

theorem Steady.undoCheck (s : State) (p : Plan) : Steady s (s.undoCheck p) :=
  .after (.updateJobs _ _ (chargeOk_reducePlanned _)) (.unreserve ..)

theorem Sound.performCheck (s : State) (p : Plan) (d : Derived) : Sound s (s.performCheck p d) :=
  .after (Steady.updateJobs _ _ (chargeOk_addPlanned _)).sound
    (.after (Steady.reserve ..).sound (.updatePlan s _ fun _ => rfl))

theorem Steady.loadHead (s : State) (w : Saw) : Steady s (s.loadHead w) := by
  unfold State.loadHead
  split
  · split
    · exact .refl s
    · split
      · split
        · exact .refl s
        · exact .after (.updateSaw _ _ fun h => { h with }) (.send ..)
      · exact .refl s
  · exact .refl s

theorem Steady.goOn (s : State) (w : Saw) : Steady s (s.goOn w) := .after (.loadHead ..) (.setSawState ..)

theorem Steady.unload (s : State) (w : Saw) (n : Nat) : Steady s (s.unload w n) := by
  unfold State.unload
  split
  · exact .after (.updateSaw _ _ fun h => { h with }) (.send ..)
  · exact .refl s

theorem Sound.leaveQueue (s : State) (w : Saw) (n : Nat) : Sound s (s.leaveQueue w n) :=
  .after (.updatePlan _ _ fun _ => rfl) (Steady.updateSaw s w fun h => { h with }).sound

theorem Steady.cancelLoad (s : State) (w : Saw) (n : Nat) : Steady s (s.cancelLoad w n) := by
  unfold State.cancelLoad
  split
  · have cleared : Steady s ((s.unload w n).updateSaw w fun r => { r with pendingLoad := none }) :=
      .after (.updateSaw _ _ fun h => { h with }) (.unload ..)
    dsimp only
    split
    · exact .after (.goOn ..) cleared
    · exact cleared
  · exact .refl s

theorem Steady.writeOff (s : State) (p : Plan) : Steady s (s.writeOff p) :=
  .after (.updateJobs _ _ (chargeOk_reducePlanned _)) (.after (.charge _ _ (chargeOk_stone _))
    (.after (.scrapOnAbandon ..) (.updatePlan s _ fun _ => rfl)))

theorem Steady.clearSaw (s : State) (w : Saw) (n : Nat) : Steady s (s.clearSaw w n) := by
  unfold State.clearSaw
  exact .after (.unload ..) (.after
    (.updateSaw _ w fun h => { h with passTime := Nat.zero_le _, faults := by simp }) (.removeFromLine s w))

theorem Steady.goOnByLink (s : State) (w : Saw) : Steady s (s.goOnByLink w) := by
  unfold State.goOnByLink
  split
  · exact .goOn ..
  · exact .setSawState ..

/-! ## The plan requests -/

theorem createPlan_sound (number job slab kerf : Nat) (strips : List Strip) (s : State) :
    Sound s (createPlan number job slab kerf strips s).2 := by
  unfold createPlan
  split
  · exact .refl s
  split
  case h_2 => exact .refl s
  iterate 2 (split; exact .refl s)
  split
  · exact .refl s
  case isFalse hf =>
    split
    · exact .refl s
    case isFalse hx =>
      have free : findBy Plan.number number s.pln.plans = none := by simpa [State.plan?] using hx
      dsimp only [performed]
      refine .after (Steady.updateJobs _ _ (chargeOk_plans fun ns => ns ++ [number])).sound ⟨fun h => h, fun h => ?_, fun h =>
        ⟨h.jobs, h.blades, h.saws, h.audit⟩⟩
      exact { h with plans := h.plans.insertBy free, plansFit := by simp; omega }

theorem revisePlan_sound (number kerf : Nat) (strips : List Strip) (s : State) : Sound s (revisePlan number kerf strips s).2 := by
  unfold revisePlan
  iterate 2 (split; exact .refl s)
  split
  · split
    · exact .refl s
    · exact .updatePlan s _ fun _ => rfl
  · split
    · exact .refl s
    · exact .after (.updatePlan _ _ fun _ => rfl) (Steady.undoCheck ..).sound
  · exact .refl s

theorem checkPlan_sound (number : Nat) (s : State) : Sound s (checkPlan number s).2 := by
  unfold checkPlan
  iterate 7 (split; exact .refl s)
  exact .performCheck ..

theorem releasePlan_sound (number saw : Nat) (s : State) : Sound s (releasePlan number saw s).2 := by
  unfold releasePlan
  iterate 8 (split; exact .refl s)
  exact .after (Steady.loadHead ..).sound (.after (Steady.updateSaw _ _ fun h => { h with }).sound
    (.updatePlan s _ fun _ => rfl))

theorem cancelPlan_sound (number : Nat) (s : State) : Sound s (cancelPlan number s).2 := by
  unfold cancelPlan
  split
  · exact .refl s
  case h_2 p hp =>
    have undone : Sound s ((s.undoCheck p).updatePlan number fun p => { p with state := .cancelled }) :=
      .after (.updatePlan _ _ fun _ => rfl) (Steady.undoCheck ..).sound
    dsimp only
    split
    · exact .updatePlan s _ fun _ => rfl
    · exact undone
    · cases p.saw
      · exact undone
      · exact .after (Steady.cancelLoad ..).sound (.after (.leaveQueue ..) undone)
    · exact .refl s

theorem abandonPlan_sound (number : Nat) (s : State) : Sound s (abandonPlan number s).2 := by
  unfold abandonPlan
  iterate 2 (split; exact .refl s)
  rename_i p _ _
  cases p.saw
  · exact .after (.updatePlan _ _ fun _ => rfl) (Steady.writeOff ..).sound
  · exact .after (Steady.goOnByLink ..).sound (.after (.leaveQueue ..) (.after (.updatePlan _ _ fun _ => rfl)
      (Steady.after (.clearSaw ..) (.writeOff s p)).sound))

theorem retirePlan_sound (number : Nat) (s : State) : Sound s (retirePlan number s).2 := by
  unfold retirePlan
  split
  · exact .refl s
  · split
    · dsimp only [performed]
      refine .trans (Steady.updateJobs s _ (chargeOk_plans _)).sound ⟨fun h => h, fun h => ?_, fun h =>
        ⟨h.jobs, h.blades, h.saws, h.audit⟩⟩
      exact { h with plans := h.plans.removeBy, plansFit := (length_removeBy ..).trans h.plansFit }
    · exact .refl s

/-! ## Loading, strips and completion -/

theorem Steady.putOnSaw (s : State) (n : Nat) : Steady s (s.putOnSaw n) := by
  unfold State.putOnSaw
  split
  · split
    · exact .refl s
    · exact .after (.updateSlab _ _ (fun _ => rfl) fun _ => rfl) (.after (.unmark _ n (Nat.zero_le 1)) (.setPlace ..))
  · exact .refl s

theorem Sound.reportLoad (s : State) (n : Nat) : Sound s (s.reportLoad n) := by
  unfold State.reportLoad
  split
  · split
    · exact .after (Steady.putOnSaw ..).sound (.updatePlan s _ fun _ => rfl)
    · exact .refl s
  · exact .refl s

theorem Sound.finishStrips (s : State) (n : Nat) : Sound s (s.finishStrips n) := by
  unfold State.finishStrips
  split
  · exact .refl s
  · exact .after (Steady.updateJobs _ _ (chargeOk_addCut _)).sound (.updatePlan s _ fun _ => rfl)

theorem Sound.reportDone (s : State) (n i : Nat) : Sound s (s.reportDone n i) :=
  .after (.finishStrips ..) (Steady.updatePass ..).sound

theorem Steady.createRemnant (s : State) (n : Nat) (part : RemnantPart) : Steady s (s.createRemnant n part).2 := by
  unfold State.createRemnant
  split
  · exact .refl s
  · split
    · exact .refl s
    case isFalse r _ hf =>
      refine ⟨⟨fun h => h, fun h => ?_, fun h => ⟨h.jobs, h.blades, h.saws, ?_⟩⟩, rfl⟩
      · have fewer : s.stk.slabs.length < 15536 := by simp only [Config.maxSlabs] at hf; omega
        obtain ⟨k, hk, hn, hfree, -⟩ := freeRemnant_spec s.stk.slabs h.counter fewer
        rw [hn]
        refine { h with slabs := h.slabs.insertBy hfree, slabsFit := by simp; omega, counter := ?_ }
        dsimp only
        rw [nextRemnant_at]
        simp only [remnantAt, Config.firstRemnant, Config.lastRemnant]
        omega
      · have := h.audit.insert (r := remnantRecord (freeRemnant s.stk.slabs (s.stk.slabs.length + 1) s.stk.counter) r part)
          (by omega) rfl
        exact ⟨this.slabs, this.marks, this.counts⟩

theorem Sound.settleRemnant (s : State) (p : Plan) (d : Derived) : Sound s (s.settleRemnant p d) := by
  unfold State.settleRemnant
  split
  · exact (Steady.after (.raise ..) (.charge s _ (chargeOk_stone _))).sound
  · dsimp only
    split
    · exact .after (Steady.after (.raise ..) (.after (.raise ..) (.charge _ _ (chargeOk_stone _)))).sound
        (.after (.updatePlan _ _ fun _ => rfl) (Steady.createRemnant ..).sound)
    · exact (Steady.after (.raise ..) (.after (.raise ..) (.after (.charge _ _ (chargeOk_stone _)) (.createRemnant ..)))).sound

theorem Sound.complete (s : State) (w : Saw) (p : Plan) : Sound s (s.complete w p) := by
  unfold State.complete
  refine .after (Steady.goOn ..).sound (.after (Steady.unload ..).sound (.after (.leaveQueue ..) ?_))
  have consumed : Sound s ((s.updatePlan p.number fun p => { p with state := .done }).consume p.slab) :=
    .after (Steady.consume ..).sound (.updatePlan s _ fun _ => rfl)
  cases p.derived
  · exact .after (Steady.raise ..).sound consumed
  · exact .after (.settleRemnant ..) consumed

/-! ## The saw and blade requests -/

theorem clamp_mem {lo hi n : Nat} (h : lo ≤ hi) : lo ≤ clamp lo hi n ∧ clamp lo hi n ≤ hi := by
  unfold clamp
  split
  · omega
  · split <;> omega

theorem configureSaw_steady (saw demand rate : Nat) (s : State) : Steady s (configureSaw saw demand rate s).2 := by
  unfold configureSaw
  split
  · exact .refl s
  · dsimp only [performed]
    exact .updateSaw s _ fun h => { h with
      demand := within_iff.mpr (clamp_mem (by decide))
      rate := (clamp_mem (Nat.zero_le _)).2 }

theorem Steady.seekResume (s : State) (w : Saw) : Steady s (s.seekResume w) := by
  unfold State.seekResume
  split
  · exact .after (.settleInterlock Steady.runPass ..) (.after (.resumeCut ..) (.admitSaw ..))
  · exact .after (.setSawState ..) (.withWau ..)

theorem Steady.resumeNormal (s : State) (w : Saw) : Steady s (s.resumeNormal w) := by
  unfold State.resumeNormal
  split
  · exact .setSawState ..
  · exact .goOn ..

theorem resumeSaw_steady (saw : Nat) (s : State) : Steady s (resumeSaw saw s).2 := by
  unfold resumeSaw
  split
  · exact .refl s
  · dsimp only
    iterate 4 (split; exact .refl s)
    unfold State.resumeSaw
    dsimp only [performed]
    split
    · exact .after (.seekResume ..) (.clearContext ..)
    · exact .after (.resumeNormal ..) (.clearContext ..)

theorem Steady.insertBlade (s : State) {b : Blade} (hb : s.blade? b.number = none)
    (hn : s.bld.blades.length < Config.maxBlades) (hr : BladeRange b) : Steady s (s.withBlades (insertBy Blade.number b)) where
  attn h := h
  tables h := { h with blades := h.blades.insertBy hb, bladesFit := by simpa using hn }
  ranges h := { h with blades := fun x hx => (mem_insertBy.mp hx).elim (fun e => e ▸ hr) (h.blades x) }
  plans := rfl

theorem addBlade_steady (number kerf price life : Nat) (s : State) : Steady s (addBlade number kerf price life s).2 := by
  unfold addBlade
  split
  · exact .refl s
  case isFalse hc =>
    split
    · exact .refl s
    case isFalse hx =>
      split
      · exact .refl s
      case isFalse hf =>
        simp only [not_or, Bool.not_eq_true', Bool.not_eq_false] at hc
        obtain ⟨-, -, price, life⟩ := hc
        refine .insertBlade s (by simpa using hx) (by omega) ⟨life, by dsimp only; omega, Nat.zero_le _, by simp, ?_, Nat.zero_le _⟩
        simp only [within, Bool.and_eq_true, decide_eq_true_eq] at life
        dsimp only
        omega

theorem amendBlade_steady (number price life : Nat) (s : State) : Steady s (amendBlade number price life s).2 := by
  unfold amendBlade
  iterate 2 (split; exact .refl s)
  split
  · exact .refl s
  case isFalse hc =>
    simp only [not_or, Bool.not_eq_true', Bool.not_eq_false] at hc
    obtain ⟨price, life⟩ := hc
    refine .after (.testHealth ..) (.updateBlade s _ (fun _ => rfl) fun b h => { h with
      life := life, price := by dsimp only; omega, costRemainder := ?_ })
    simp only [within, Bool.and_eq_true, decide_eq_true_eq] at life
    dsimp only
    omega

theorem Steady.bladeMoved (s : State) (n : Nat) (x : BladeState) (w : Option Saw) :
    Steady s (s.updateBlade n fun b => { b with state := x, saw := w }) :=
  .updateBlade s n (fun _ => rfl) fun _ h => { h with }

theorem fitBlade_steady (number saw : Nat) (s : State) : Steady s (fitBlade number saw s).2 := by
  unfold fitBlade
  iterate 6 (split; exact .refl s)
  dsimp only [performed]
  refine .after (.updateSaw _ _ fun h => { h with }) (.after (.bladeMoved ..) ?_)
  cases (s.saw _).blade
  · exact .refl s
  · exact .bladeMoved ..

theorem removeBlade_steady (saw : Nat) (s : State) : Steady s (removeBlade saw s).2 := by
  unfold removeBlade
  iterate 3 (split; exact .refl s)
  dsimp only [performed]
  exact .after (.updateSaw _ _ fun h => { h with }) (.bladeMoved s _ _ _)

theorem retireBlade_steady (n : Nat) (s : State) : Steady s (retireBlade n s).2 := by
  unfold retireBlade
  split
  · exact .refl s
  split
  · exact .refl s
  · exact .updateBlade s n (fun _ => rfl) fun _ h => { h with }
  · exact ⟨⟨fun h => h, fun h => { h with
        blades := h.blades.removeBy
        bladesFit := (length_removeBy ..).trans h.bladesFit },
      fun h => { h with blades := fun b hb => h.blades b (mem_removeBy.mp hb).1 }⟩, rfl⟩

/-! ## Channels -/

theorem Steady.setChannelRec (s : State) (c : Chan) (r : Channel) : Steady s (s.setChannelRec c r) :=
  .of_blocks rfl rfl rfl rfl rfl rfl fun _ => id

theorem Steady.putChannel (s : State) (c : Chan) (r : Channel) : Steady s (s.putChannel c r) := by
  unfold State.putChannel
  split
  · exact .after (.raise ..) (.setChannelRec ..)
  · exact .setChannelRec ..

theorem Steady.eachChannel (f : Chan → Channel → Channel) (cs : List Chan) : ∀ s : State, Steady s (s.eachChannel cs f) := by
  induction cs with
  | nil => exact .refl
  | cons c cs ih => exact fun s => .after (ih _) (.putChannel ..)

theorem Steady.fieldSupply (s : State) (b : Bool) : Steady s { s with pmn := { s.pmn with fieldSupply := b } } :=
  .of_blocks rfl rfl rfl rfl rfl rfl fun _ => id

theorem setChannel_steady (channel range filter : Nat) (low high raw : Int) (s : State) :
    Steady s (setChannel channel range filter low high raw s).2 := by
  unfold setChannel
  iterate 3 (split; exact .refl s)
  exact .putChannel ..

theorem calBegin_steady (set : List Nat) (s : State) : Steady s (calBegin set s).2 := by
  unfold calBegin
  iterate 2 (split; exact .refl s)
  dsimp only [performed]
  exact .eachChannel ..

theorem calPoint_steady (set : List Nat) (point : Nat) (s : State) : Steady s (calPoint set point s).2 := by
  unfold calPoint
  iterate 2 (split; exact .refl s)
  dsimp only [performed]
  exact .eachChannel ..

theorem calEnd_steady (set : List Nat) (mode : Nat) (s : State) : Steady s (calEnd set mode s).2 := by
  unfold calEnd
  iterate 2 (split; exact .refl s)
  dsimp only [performed]
  exact .eachChannel ..

theorem calAbort_steady (set : List Nat) (s : State) : Steady s (calAbort set s).2 := by
  unfold calAbort
  iterate 2 (split; exact .refl s)
  dsimp only [performed]
  exact .eachChannel ..

theorem channelSample_steady (c : Chan) (raw : Int) (s : State) : Steady s (channelSample c raw s) := by
  unfold channelSample
  dsimp only
  split
  · exact .refl s
  · split
    · exact .setChannelRec ..
    · exact .putChannel ..

theorem graceExpiry_steady (c : Chan) (s : State) : Steady s (graceExpiry c s) := by
  unfold graceExpiry
  split
  · exact .after (.raise ..) (.setChannelRec ..)
  · exact .refl s
  · exact .refl s

theorem fieldSupplyLoss_steady (s : State) : Steady s (fieldSupplyLoss s) := by
  unfold fieldSupplyLoss
  split
  · exact .after (.eachChannel ..) (.fieldSupply ..)
  · exact .refl s

theorem fieldSupplyReturn_steady (raw : Seven Int) (s : State) : Steady s (fieldSupplyReturn raw s) := by
  unfold fieldSupplyReturn
  split
  · exact .refl s
  · exact .after (.eachChannel ..) (.fieldSupply ..)

/-! ## Plant and jobs -/

theorem setPlant_steady (p : Settings) (s : State) : Steady s (setPlant p s).2 := .after (.evaluate _) (.withWau ..)

theorem meteringInterval_steady (w : Saw) (s : State) : Steady s (meteringInterval w s) := by
  unfold meteringInterval
  dsimp only
  split
  · have ticked : Steady s (s.updateSaw w fun r => { r with meters := r.meters.tick (s.intervalFlow w) }) :=
      .updateSaw s w fun h => { h with flow := satAdd_le .., time := satAdd_le .. }
    split
    · refine .trans ticked ?_
      unfold State.markEstimated
      split
      · exact .updateJobs _ _ fun _ => ⟨rfl, fun h => { h with }⟩
      · exact .refl _
    · exact ticked
  · exact .refl s

theorem Steady.insertJob (s : State) {j : Job} (hj : s.job? j.number = none) (hn : s.jcu.jobs.length < Config.maxJobs)
    (hr : JobRange j) : Steady s (s.withJobs (insertBy Job.number j)) where
  attn h := h
  tables h := { h with jobs := h.jobs.insertBy hj, jobsFit := by simpa using hn }
  ranges h := { h with jobs := fun x hx => (mem_insertBy.mp hx).elim (fun e => e ▸ hr) (h.jobs x) }
  plans := rfl

theorem openJob_steady (number lotNumber quote : Nat) (s : State) : Steady s (openJob number lotNumber quote s).2 := by
  unfold openJob
  split
  · exact .refl s
  case isFalse hc =>
    split
    · exact .refl s
    case isFalse hx =>
      split
      · exact .refl s
      case isFalse hf =>
        refine .insertJob s (by simpa using hx) (by omega) ?_
        exact ⟨Nat.zero_le _, Nat.zero_le _, Nat.zero_le _, Nat.zero_le _, by dsimp only; omega, Nat.zero_lt_succ _, Nat.zero_lt_succ _,
          Nat.zero_le _, Nat.zero_le _⟩

theorem amendJob_steady (number quote lotNumber : Nat) (s : State) : Steady s (amendJob number quote lotNumber s).2 := by
  unfold amendJob
  split
  · exact .refl s
  case h_2 j hj =>
    obtain ⟨hmem, hnum⟩ := findBy_some hj
    split
    · exact .refl s
    case isFalse hq =>
      iterate 2 (split; exact .refl s)
      refine .after (.raiseIf ..) (.updateJob s _ (fun k _ hk => hnum.trans hk.symm) fun h k _ _ => ?_)
      exact { h j hmem with quote := by dsimp only; omega }

theorem closeJob_sound (number : Nat) (s : State) : Sound s (closeJob number s).2 := by
  unfold closeJob
  iterate 3 (split; exact .refl s)
  dsimp only [performed]
  have closed : ChargeOk fun j => { j with state := .closed } := fun _ => ⟨rfl, fun h => { h with }⟩
  refine .after (Steady.updateJobs _ _ closed).sound ⟨fun h => h, fun h => ?_, fun h =>
    ⟨h.jobs, h.blades, h.saws, h.audit⟩⟩
  have number (l : List Nat) (p : Plan) : (p.cancelDraft l).number = p.number := by unfold Plan.cancelDraft; split <;> rfl
  exact { h with plans := h.plans.map (number _), plansFit := by simpa using h.plansFit }

theorem retireJob_steady (number : Nat) (s : State) : Steady s (retireJob number s).2 := by
  unfold retireJob
  iterate 3 (split; exact .refl s)
  exact ⟨⟨fun h => h, fun h => { h with
      jobs := h.jobs.removeBy
      jobsFit := (length_removeBy ..).trans h.jobsFit },
    fun h => { h with jobs := fun j hj => h.jobs j (mem_removeBy.mp hj).1 }⟩, rfl⟩

end Sys2Proof.Machine
end

section
/-! PROOFS. The messages and events of the saws, the office and the supplies keep ATTN, the tables and the ranges; with the
requests, so does every step (R219, R224). -/

namespace Sys2Proof.Machine

/-! ## Silence, HELLO, faults and resumption -/

theorem Steady.sawMoved (s : State) (w : Saw) (x : SawState) (l : Option Nat) :
    Steady s (s.updateSaw w fun r => { r with pendingLoad := l, state := x }) := .updateSaw s w fun h => { h with }

theorem Steady.setLink (s : State) (w : Saw) (l : LinkState) : Steady s (s.updateSaw w fun r => { r with link := l }) :=
  .updateSaw s w fun h => { h with }

theorem Steady.clearLoad (s : State) (w : Saw) : Steady s (s.updateSaw w fun r => { r with pendingLoad := none }) :=
  .updateSaw s w fun h => { h with }

theorem Steady.goOffline (s : State) (w : Saw) : Steady s (s.goOffline w) := .after (.sawMoved ..) (.dropWindow ..)

theorem Steady.linkContext (s : State) (w : Saw) : Steady s (s.linkContext w) :=
  .after (.setSawState ..) (.after (.dropWindow ..) (.writeContext s w _ _ (Nat.le_refl 1)))

theorem Steady.stopCut (s : State) (w : Saw) : Steady s (s.stopCut w) :=
  .after (.leaveWater Steady.runPass ..) (.after (.closeSegment ..) (.stopTimer s w))

theorem Steady.loseLink (s : State) (w : Saw) : Steady s (s.loseLink w) := by
  unfold State.loseLink
  have down : Steady s ((s.updateSaw w fun r => { r with link := .down }).raise .sawLink) := .after (.raise ..) (.setLink ..)
  dsimp only
  split
  · exact down
  iterate 3 exact .after (.goOffline ..) down
  · exact .after (.goOffline ..) (.after (.removeFromLine ..) down)
  · exact .after (.clearLoad ..) (.after (.dropWindow ..) down)
  iterate 2 exact .after (.linkContext ..) (.after (.stopCut ..) down)
  · exact .after (.linkContext ..) (.after (.removeFromLine ..) down)

theorem Steady.wake (s : State) (w : Saw) : Steady s (s.wake w) := by
  unfold State.wake
  dsimp only
  split
  · refine .after (.setSawState ..) (.after (.updateSaw _ w fun h => { h with faults := ?_ }) (.setSawState s w _))
    intro c hc
    cases hc
    exact Nat.le_of_ble_eq_true rfl
  · exact .after (.loadHead ..) (.setSawState ..)

theorem Steady.linkUp (s : State) (w : Saw) : Steady s (s.linkUp w) := by
  unfold State.linkUp
  have up : Steady s ((s.updateSaw w fun r => { r with link := .up }).raise .sawLink) := .after (.raise ..) (.setLink ..)
  dsimp only
  split
  · exact .after (.wake ..) up
  · exact up

theorem Steady.sawFrame (s : State) (w : Saw) : Steady s (s.sawFrame w) :=
  .updateSaw s w fun h => { h with heartbeat := Nat.zero_le _ }

theorem hello_steady (w : Saw) (n : Nat) (s : State) : Steady s (hello w n s) := by
  unfold hello
  have greeted : Steady s (((s.sawFrame w).send w (answerFrame Kind.hello .ok)).updateSaw w fun r =>
      { r with maxFeed := clamp 100 6000 n }) :=
    .after (.updateSaw _ w fun h => { h with maxFeed := within_iff.mpr (clamp_mem (by decide)) })
      (.after (.send ..) (.sawFrame ..))
  refine .after (.linkUp ..) ?_
  split
  · exact .after (.loseLink ..) greeted
  · exact greeted

theorem linkSilence_steady (w : Saw) (s : State) : Steady s (linkSilence w s) := by
  unfold linkSilence
  split
  · refine .after (.loseLink ..) (.updateSaw s w fun h => { h with heartbeat := ?_ })
    exact max_le h.heartbeat (by decide)
  · exact .refl s

theorem holdTimerExpiry_steady (w : Saw) (s : State) : Steady s (holdTimerExpiry w s) := by
  unfold holdTimerExpiry
  split
  · exact .after (.raise ..) (.after (.setSawState ..) (.after (.writeContext _ _ _ _ (Nat.le_refl 1))
      (.after (.closeSegment ..) (.after (.withWau ..) (.stopTimer s w)))))
  · exact .refl s

theorem Steady.faultOutside (s : State) (w : Saw) (c : Cause) : Steady s (s.faultOutside w c) :=
  .after (.raise ..) (.after (.setSawState ..) (.writeContext s w _ _ (Nat.le_refl 1)))

theorem Steady.refault (s : State) (w : Saw) {f : Context → Context} (hf : ∀ c, (f c).faults ≤ Config.maxFaults) :
    Steady s (s.updateSaw w fun r => { r with context := r.context.map f }) := by
  refine .updateSaw s w fun h => { h with faults := ?_ }
  intro c hc
  obtain ⟨d, -, rfl⟩ := Option.mem_map.mp hc
  exact hf d

theorem fault_steady (w : Saw) (tag : Option Nat) (position : Nat) (cause : Cause) (s : State) :
    Steady s (fault w tag position cause s) := by
  unfold fault
  split
  iterate 2 exact .faultInCut Steady.runPass ..
  iterate 3 exact .faultOutside ..
  · exact .after (.faultOutside ..) (.removeFromLine ..)
  · exact .after (.raise ..) (.after (.setSawState ..) (.after (.refault _ _ fun _ => Nat.le_of_ble_eq_true rfl) (.removeFromLine s w)))
  · exact .after (.raise ..) (.refault s w fun _ => satAdd_le ..)
  · exact .refl s

theorem Steady.setInterlock (s : State) (w : Saw) (b : Bool) : Steady s (s.updateSaw w fun r => { r with interlock := b }) :=
  .updateSaw s w fun h => { h with }

theorem interlockDrop_steady (w : Saw) (s : State) : Steady s (interlockDrop w s) := by
  unfold interlockDrop
  split
  · dsimp only
    split
    · exact .after (.faultInCut Steady.runPass ..) (.setInterlock ..)
    · exact .setInterlock ..
  · exact .refl s

/-! ## LOADED, START, DONE, HELD and STATUS -/

theorem loaded_sound (w : Saw) (plan : Nat) (s : State) : Sound s (loaded w plan s) :=
  .after (Steady.after (.setSawState ..) (.after (.refill ..) (.refill ..))).sound
    (.after (.reportLoad ..) (Steady.clearLoad s w).sound)

theorem start_steady (w : Saw) (tag : Nat) (s : State) : Steady s (start w tag s) := by
  unfold start
  split
  · exact .after (.settleInterlock Steady.runPass ..) (.after (.grantGo ..) (.admitSaw ..))
  · exact .after (.setSawState ..) (.after (.send ..) (.withWau ..))

theorem Sound.finishPass (s : State) (w : Saw) (p : Plan) (q : Pass) : Sound s (s.finishPass w p q) := by
  unfold State.finishPass
  exact .after (Steady.leaveWater Steady.runPass ..).sound (.after (.reportDone ..)
    (Steady.after (.updateSaw _ w fun h => { h with passTime := Nat.zero_le _ }) (.after (.closeSegment ..) (.stopTimer s w))).sound)

theorem done_sound (w : Saw) (s : State) : Sound s (done w s) := by
  unfold done
  split
  · exact .refl s
  · dsimp only
    rename_i p q _
    refine .trans (.finishPass s w p q) ?_
    split
    · exact (Steady.setSawState ..).sound
    · split
      · exact .complete ..
      · exact (Steady.after (.setSawState ..) (.stagePass ..)).sound

theorem held_steady (w : Saw) (position : Nat) (s : State) : Steady s (held w position s) := by
  unfold held
  exact .after (.runPass _) (.after (.withWau ..) (.after (.raise ..) (.after (.setSawState ..)
    (.after (.writeContext _ _ _ _ (Nat.zero_le 1)) (.after (.closeSegment ..) (.after (.reportReached ..) (.stopTimer s w)))))))

theorem status_steady (w : Saw) (position : Nat) (s : State) : Steady s (status w position s) := by
  unfold status
  split
  · exact .reportReached ..
  · exact .refl s

/-! ## The office -/

/-- A change of the office that keeps the law of ATTN. -/
theorem Steady.office {s t : State} (h : AttnLaw s → AttnLaw t) (ht : t = { s with olc := t.olc, rsv := t.rsv }) :
    Steady s t := by
  have tables : TableLaw s → TableLaw t := fun k => ht ▸ { k with }
  have ranges : RangeLaw s → RangeLaw t := fun k => ht ▸ { k with }
  exact ⟨⟨h, tables, ranges⟩, by rw [ht]⟩

theorem readNotices_steady (s : State) : Steady s (readNotices s).2 := .office (fun _ => rfl) rfl

theorem setNotices_steady (enable : BitVec 16) (master : Nat) (s : State) : Steady s (setNotices enable master s).2 := by
  unfold setNotices
  split
  · exact .refl s
  · exact .office (fun _ => rfl) rfl

theorem readState_steady (backup : Bool) (s : State) : Steady s (readState backup s).2 := .office id rfl

theorem Steady.oweBusy (s : State) (kind : Byte) : Steady s (s.oweBusy kind) := by
  unfold State.oweBusy
  split
  · exact .office id rfl
  · exact .refl s

theorem busyRequest_steady (kind : Byte) (s : State) : Steady s (busyRequest kind s) := by
  unfold busyRequest
  split
  · exact .oweBusy ..
  · exact .refl s

theorem replySent_steady (s : State) : Steady s (replySent s) := by
  unfold replySent
  split
  · refine .office (fun h => ?_) rfl
    unfold AttnLaw State.running Office.calls Office.sent
    cases s.olc.reply <;> exact h
  · exact .refl s

theorem Steady.setReceiver (s : State) (l : Link) (p : Phase) : Steady s (s.setReceiver l p) := by
  cases l
  · exact .office id rfl
  · exact .of_blocks rfl rfl rfl rfl rfl rfl fun _ => id

/-! ## Starts and supplies -/

theorem sawRange_reset (b : Bool) : SawRange (.reset b) where
  demand := rfl
  rate := Nat.zero_le _
  maxFeed := rfl
  flow := Nat.zero_le _
  time := Nat.zero_le _
  remainder := Nat.zero_lt_succ _
  passTime := Nat.zero_le _
  heartbeat := Nat.zero_le _
  holdTimer := by intro n hn; cases hn
  nextTag := Nat.zero_le _
  faults := by intro c hc; cases hc

theorem coldStart_attn (s : State) (interlock : Four Bool) (fieldSupply : Bool) :
    AttnLaw (s.coldStart interlock fieldSupply) := by simp [AttnLaw, State.coldStart, Office.reset, Office.calls]

theorem coldStart_tables (s : State) (interlock : Four Bool) (fieldSupply : Bool) :
    TableLaw (s.coldStart interlock fieldSupply) where
  slabs := trivial
  slabsFit := Nat.zero_le _
  materials := trivial
  materialCodes := by intro m hm; cases hm
  plans := trivial
  plansFit := Nat.zero_le _
  blades := trivial
  bladesFit := Nat.zero_le _
  jobs := trivial
  jobsFit := Nat.zero_le _
  counter := ⟨Nat.le_refl _, by simp [State.coldStart, Config.firstRemnant, Config.lastRemnant]⟩

theorem coldStart_saw (s : State) (interlock : Four Bool) (fieldSupply : Bool) (w : Saw) :
    (s.coldStart interlock fieldSupply).saw w = .reset (interlock.get w) := Four.get_map ..

theorem coldStart_ranges (s : State) (interlock : Four Bool) (fieldSupply : Bool) :
    RangeLaw (s.coldStart interlock fieldSupply) where
  jobs := by intro j hj; cases hj
  blades := by intro b hb; cases hb
  saws w := coldStart_saw s interlock fieldSupply w ▸ sawRange_reset _
  audit := ⟨Nat.zero_le _, Nat.zero_le _, Nat.zero_le _⟩

theorem Sound.coldStart (s : State) (interlock : Four Bool) (fieldSupply : Bool) :
    Sound s (s.coldStart interlock fieldSupply) :=
  ⟨fun _ => coldStart_attn .., fun _ => coldStart_tables .., fun _ => coldStart_ranges ..⟩

theorem wipeStore_sound (s : State) : Sound s (wipeStore s).2 := by
  unfold wipeStore
  split
  · exact .refl s
  · exact .coldStart ..

theorem warmSaw_range {s : State} {w : Saw} (h : SawRange (s.saw w)) (interlock : Four Bool) :
    SawRange (s.warmSaw interlock w) := by
  refine { h with
    flow := Nat.zero_le _, time := Nat.zero_le _, heartbeat := Nat.zero_le _
    holdTimer := by intro n hn; cases hn
    faults := fun c hc => ?_ }
  change s.warmContext w = some c at hc
  unfold State.warmContext at hc
  dsimp only at hc
  split at hc
  case h_1 d hd =>
    split at hc <;> cases hc
    · exact Nat.le_of_ble_eq_true rfl
    · exact h.faults c hd
  case h_2 =>
    obtain ⟨p, -, rfl⟩ := Option.map_eq_some_iff.mp hc
    exact Nat.le_of_ble_eq_true rfl

theorem warmSaws_get (s : State) (interlock : Four Bool) (w : Saw) :
    (s.warmSaws interlock).saws.get w = s.warmSaw interlock w := by cases w <;> rfl

theorem giveBackAll_number (p : Plan) : p.giveBackAll.number = p.number := rfl
theorem giveBackAll_bare (p : Plan) : p.giveBackAll.bare = p.bare := rfl

/-- The part between the clearing of the working records and the new conditions of the channels (R224). -/
def State.warmed (s : State) (interlock : Four Bool) : State :=
  { s with stk := s.warmStock, sdp := s.warmSaws interlock, wau := .reset s.wau.settings, olc := .reset,
           pln := ⟨s.pln.plans.map Plan.giveBackAll⟩, rsv := { s.rsv with latch := false, startKind := .warm } }

theorem warmed_saw (s : State) (interlock : Four Bool) (w : Saw) :
    (s.warmed interlock).saw w = s.warmSaw interlock w := warmSaws_get ..

theorem warmStart_eq (s : State) (inputs : Inputs) :
    s.warmStart inputs = (s.warmed inputs.interlock).warmChannels inputs.fieldSupply inputs.raw := rfl

theorem warmed_attn (s : State) (interlock : Four Bool) : AttnLaw (s.warmed interlock) := by
  simp [AttnLaw, State.warmed, Office.reset, Office.calls]

theorem Steady.warmed (s : State) (interlock : Four Bool) : Steady s (s.warmed interlock) where
  attn _ := warmed_attn ..
  tables h := by
    have slabs : (s.warmStock.slabs.map Slab.number) = s.stk.slabs.map Slab.number := by
      unfold State.warmStock
      split <;> simp [Function.comp_def]
    have rest : s.warmStock.materials = s.stk.materials ∧ s.warmStock.counter = s.stk.counter := by
      unfold State.warmStock
      split <;> exact ⟨rfl, rfl⟩
    exact { h with
      slabs := h.slabs.of_map_eq slabs
      slabsFit := (length_eq_of_map_eq slabs).trans_le h.slabsFit
      materials := rest.1 ▸ h.materials
      materialCodes := rest.1 ▸ h.materialCodes
      plans := h.plans.map giveBackAll_number
      plansFit := by simpa [State.warmed] using h.plansFit
      counter := rest.2 ▸ h.counter }
  ranges h := by
    refine ⟨h.jobs, h.blades, fun w => ?_, ?_⟩
    · rw [warmed_saw]
      exact warmSaw_range (h.saws w) interlock
    · unfold State.warmed State.warmStock
      dsimp only
      split
      · exact ⟨by simpa using h.audit.slabs, (marks_cleared _).le, Nat.zero_le _⟩
      · exact h.audit
  plans := by simp [State.warmed, Function.comp_def, giveBackAll_bare]

theorem Steady.warmChannels (s : State) (fieldSupply : Bool) (raw : Seven Int) : Steady s (s.warmChannels fieldSupply raw) := by
  unfold State.warmChannels
  exact .after (.eachChannel _ _ _) (.fieldSupply s _)

theorem Steady.warmStart (s : State) (inputs : Inputs) : Steady s (s.warmStart inputs) := by
  rw [warmStart_eq]
  exact .after (.warmChannels ..) (.warmed s inputs.interlock)

theorem Sound.start (s : State) (inputs : Inputs) : Sound s (s.start inputs) := by
  unfold State.start
  have backed : Steady s { s with rsv := { s.rsv with backup := inputs.backup } } := .office id rfl
  dsimp only
  split
  · exact .after (.coldStart ..) backed.sound
  · exact (backed.trans (.warmStart ..)).sound

theorem Steady.goSilent (s : State) (cause : LossCause) (unwritten : Bool) : Steady s (s.goSilent cause unwritten) where
  attn _ := by simp only [AttnLaw, State.goSilent_running, Bool.false_and]; rfl
  tables h := { h with }
  ranges h := { h with }
  plans := rfl

theorem Sound.startOrCut (s : State) (inputs : Inputs) : Sound s (s.startOrCut inputs) := by
  rcases State.startOrCut_cases s inputs with e | e <;> rw [e]
  · exact .start ..
  · exact .after (Steady.goSilent ..).sound (.start ..)

/-- Whatever the state before it, a start leaves ATTN with the notices. -/
theorem start_attn (s : State) (inputs : Inputs) : AttnLaw (s.startOrCut inputs) := by
  have started : AttnLaw (s.start inputs) := by
    unfold State.start
    dsimp only
    split
    · exact coldStart_attn ..
    · rw [warmStart_eq]
      exact (Steady.warmChannels ..).attn (warmed_attn ..)
  rcases State.startOrCut_cases s inputs with e | e <;> rw [e]
  · exact started
  · exact (Steady.goSilent ..).attn started

theorem powerReturn_sound (inputs : Inputs) (s : State) : Sound s (powerReturn inputs s) where
  attn _ := start_attn ..
  tables h := (Sound.startOrCut ..).tables { h with }
  ranges h := (Sound.startOrCut ..).ranges { h with }

theorem resetRelease_sound (inputs : Inputs) (s : State) : Sound s (resetRelease inputs s) := by
  unfold resetRelease
  dsimp only
  split
  · exact ⟨fun _ => start_attn .., fun h => (Sound.startOrCut ..).tables { h with },
      fun h => (Sound.startOrCut ..).ranges { h with }⟩
  case isFalse hp =>
    refine (Steady.office (fun h => ?_) rfl).sound
    simpa [AttnLaw, State.running, hp] using h

theorem backupFailure_steady (s : State) : Steady s (backupFailure s) := .office id rfl

/-! ## Every command -/

theorem act_sound (i : Instr) (s : State) : Sound s ((Instr.meaning i).act s) := by
  cases i
  case readMaterial | readSlab | findSlabs | readRack | readAudit | readPlan | readPassList | readSaw | readContext
    | readBlade | readChannel | readPlant | readJob | unknownRequest =>
    rw [act_of_reads rfl]
    exact .refl s
  case defineMaterial => exact (defineMaterial_steady ..).sound
  case dropMaterial => exact (dropMaterial_steady ..).sound
  case createSlab => exact (createSlab_steady ..).sound
  case amendSlab => exact (amendSlab_steady ..).sound
  case scrapSlab => exact (scrapSlab_steady ..).sound
  case retireSlab => exact (retireSlab_steady ..).sound
  case moveSlab => exact (moveSlab_steady ..).sound
  case verifySlab => exact (verifySlab_steady ..).sound
  case startAudit => exact (startAudit_steady ..).sound
  case endAudit => exact (endAudit_steady s).sound
  case abortAudit => exact (abortAudit_steady s).sound
  case createPlan => exact createPlan_sound ..
  case revisePlan => exact revisePlan_sound ..
  case checkPlan => exact checkPlan_sound ..
  case releasePlan => exact releasePlan_sound ..
  case cancelPlan => exact cancelPlan_sound ..
  case abandonPlan => exact abandonPlan_sound ..
  case retirePlan => exact retirePlan_sound ..
  case configureSaw => exact (configureSaw_steady ..).sound
  case resumeSaw => exact (resumeSaw_steady ..).sound
  case addBlade => exact (addBlade_steady ..).sound
  case amendBlade => exact (amendBlade_steady ..).sound
  case fitBlade => exact (fitBlade_steady ..).sound
  case removeBlade => exact (removeBlade_steady ..).sound
  case retireBlade => exact (retireBlade_steady ..).sound
  case setChannel => exact (setChannel_steady ..).sound
  case calBegin => exact (calBegin_steady ..).sound
  case calPoint => exact (calPoint_steady ..).sound
  case calEnd => exact (calEnd_steady ..).sound
  case calAbort => exact (calAbort_steady ..).sound
  case setPlant => exact (setPlant_steady ..).sound
  case openJob => exact (openJob_steady ..).sound
  case amendJob => exact (amendJob_steady ..).sound
  case closeJob => exact closeJob_sound ..
  case retireJob => exact (retireJob_steady ..).sound
  case readNotices => exact (readNotices_steady s).sound
  case setNotices => exact (setNotices_steady ..).sound
  case readState => exact (readState_steady ..).sound
  case wipeStore => exact wipeStore_sound s
  case busyRequest => exact (busyRequest_steady ..).sound
  case replySent => exact (replySent_steady s).sound
  case badFrame => exact (Steady.setReceiver ..).sound
  case byteGapTimeout => exact (Steady.setReceiver ..).sound
  case hello => exact (hello_steady ..).sound
  case loaded => exact loaded_sound ..
  case start => exact (start_steady ..).sound
  case done => exact done_sound ..
  case held => exact (held_steady ..).sound
  case fault => exact (fault_steady ..).sound
  case status => exact (status_steady ..).sound
  case sawMessageMalformed => exact (Steady.after (.send ..) (.sawFrame s _)).sound
  case linkSilence => exact (linkSilence_steady ..).sound
  case holdTimerExpiry => exact (holdTimerExpiry_steady ..).sound
  case interlockDrop => exact (interlockDrop_steady ..).sound
  case interlockReturn => exact (Steady.setInterlock ..).sound
  case channelSample => exact (channelSample_steady ..).sound
  case graceExpiry => exact (graceExpiry_steady ..).sound
  case fieldSupplyLoss => exact (fieldSupplyLoss_steady s).sound
  case fieldSupplyReturn => exact (fieldSupplyReturn_steady ..).sound
  case capacityEvaluation => exact (Steady.evaluate s).sound
  case meteringInterval => exact (meteringInterval_steady ..).sound
  case resetRelease => exact resetRelease_sound ..
  case powerReturn => exact powerReturn_sound ..
  case powerLoss => exact (Steady.goSilent ..).sound
  case backupFailure => exact (backupFailure_steady s).sound

/-! ## Every step -/

theorem age_saw (s : State) (w : Saw) : s.age.saw w = (s.saw w).age := Four.get_map ..

theorem sawRange_age {r : SawRec} (h : SawRange r) : SawRange r.age := by
  refine { h with heartbeat := satAdd_le .., holdTimer := fun n hn => ?_ }
  obtain ⟨m, hm, rfl⟩ := Option.map_eq_some_iff.mp hn
  exact (Nat.sub_le ..).trans (h.holdTimer m hm)

theorem Steady.age (s : State) : Steady s s.age :=
  .of_blocks rfl rfl rfl rfl rfl rfl fun w h => age_saw s w ▸ sawRange_age h

/-- A law that goes on wherever ATTN, the tables and the ranges go on is ambient. -/
theorem Ambient.of_steady {P : State → Prop} (h : ∀ {s t}, Steady s t → P s → P t) : Ambient P where
  queue s _ := h (s := s) (.of_blocks rfl rfl rfl rfl rfl rfl fun _ => id)
  slot s _ _ _ := h (s := s) (.office id rfl)
  heard s w := h (.sawFrame s w)
  sent s w f := h (.send s w f)
  aged s := h (.age s)

theorem attn_ambient : Ambient AttnLaw := .of_steady fun h => h.attn
theorem table_ambient : Ambient TableLaw := .of_steady fun h => h.tables
theorem range_ambient : Ambient RangeLaw := .of_steady fun h => h.ranges

/-- Settles O56: every shared operation that touches the notices settles ATTN, and every other leaves it. -/
theorem stepsKeepAttn : Obligations.StepsKeepAttn := by
  unfold Obligations.StepsKeepAttn
  exact fun s t h => attn_ambient.step (fun i s h _ => (act_sound i s).attn h) h

theorem step_keeps_tables {s t : State} (h : TableLaw s) (ht : step s = .next t) : TableLaw t :=
  table_ambient.step (fun i s h _ => (act_sound i s).tables h) h ht

theorem step_keeps_ranges {s t : State} (h : RangeLaw s) (ht : step s = .next t) : RangeLaw t :=
  range_ambient.step (fun i s h _ => (act_sound i s).ranges h) h ht

end Sys2Proof.Machine
end

section
/-! PROOFS. The queues of the saws and the plans agree after every step (R49, R92). The law sees a plan only while it is RELEASED
or CUTTING, with the saw it names: most commands leave that view as it is, and the five that move it are a release, a LOADED, a
completion, a cancellation and an abandonment. -/

namespace Sys2Proof.Machine

/-! ## The law through what it sees of a plan -/

/-- A plan as its queue sees it: its state and its saw while it is RELEASED or CUTTING, nothing otherwise. -/
def Plan.standing (p : Plan) : Option (PlanState × Option Saw) :=
  if p.state = .released ∨ p.state = .cutting then some (p.state, p.saw) else none

def State.standing? (s : State) (n : Nat) : Option (PlanState × Option Saw) := (s.plan? n).bind Plan.standing

theorem standing?_of_plan {s : State} {n : Nat} {p : Plan} (h : s.plan? n = some p) : s.standing? n = p.standing := by
  simp [State.standing?, h]

theorem standing?_eq_some {s : State} {n : Nat} {x : PlanState} {o : Option Saw} :
    s.standing? n = some (x, o) ↔
      ∃ p, s.plan? n = some p ∧ (p.state = .released ∨ p.state = .cutting) ∧ p.state = x ∧ p.saw = o := by
  simp [State.standing?, Option.bind_eq_some_iff, Plan.standing]

/-- The queues and the plans' standing agree. -/
structure Queued (queue : Saw → List Nat) (load : Saw → Option Nat)
    (standing : Nat → Option (PlanState × Option Saw)) : Prop where
  queued : ∀ w n, n ∈ queue w → ∃ x, standing n = some (x, some w)
  placed : ∀ n x o, standing n = some (x, o) → ∃ w, o = some w ∧ n ∈ queue w
  cutting : ∀ n w, standing n = some (.cutting, some w) → (queue w).head? = some n
  load : ∀ w n, load w = some n → (queue w).head? = some n
  once : ∀ w, (queue w).Nodup
  fits : ∀ w, (queue w).length ≤ Config.maxQueue

def State.Queued (s : State) : Prop :=
  Machine.Queued (fun w => (s.saw w).queue) (fun w => (s.saw w).pendingLoad) s.standing?

theorem queueLaw_iff {s : State} : QueueLaw s ↔ s.Queued := by
  constructor
  · intro h
    refine ⟨fun w n hn => ?_, fun n x o hx => ?_, fun n w hx => ?_, h.load, h.once, h.fits⟩
    · obtain ⟨p, hp, hw, hx⟩ := h.queued w n hn
      exact ⟨p.state, standing?_eq_some.mpr ⟨p, hp, hx, rfl, hw⟩⟩
    · obtain ⟨p, hp, hl, -, rfl⟩ := standing?_eq_some.mp hx
      exact h.placed n p hp hl
    · obtain ⟨p, hp, -, hc, hw⟩ := standing?_eq_some.mp hx
      exact h.cutting n p w hp hc hw
  · intro h
    refine ⟨fun w n hn => ?_, fun n p hp hx => ?_, fun n p w hp hc hw => ?_, h.load, h.once, h.fits⟩
    · obtain ⟨x, hx⟩ := h.queued w n hn
      obtain ⟨p, hp, hl, -, hw⟩ := standing?_eq_some.mp hx
      exact ⟨p, hp, hw, hl⟩
    · exact h.placed n p.state p.saw (standing?_eq_some.mpr ⟨p, hp, hx, rfl, rfl⟩)
    · exact h.cutting n w (standing?_eq_some.mpr ⟨p, hp, .inr hc, hc, hw⟩)

/-! ## What leaves the queues as they are -/

/-- The queues and the standing of every plan go on, and no load becomes pending. -/
structure SameQueues (s t : State) : Prop where
  queue : ∀ w, (t.saw w).queue = (s.saw w).queue
  load : ∀ w n, (t.saw w).pendingLoad = some n → (s.saw w).pendingLoad = some n
  standing : ∀ n, t.standing? n = s.standing? n

theorem SameQueues.refl (s : State) : SameQueues s s := ⟨fun _ => rfl, fun _ _ => id, fun _ => rfl⟩
theorem SameQueues.after {s t u : State} (k : SameQueues t u) (h : SameQueues s t) : SameQueues s u :=
  ⟨fun w => (k.queue w).trans (h.queue w), fun w n e => h.load w n (k.load w n e), fun n => (k.standing n).trans (h.standing n)⟩

/-- The law where queues and standing are as before and every pending load names the head. -/
theorem QueueLaw.congr {s t : State} (k : QueueLaw s) (hq : ∀ w, (t.saw w).queue = (s.saw w).queue)
    (hs : ∀ n, t.standing? n = s.standing? n)
    (hl : ∀ w n, (t.saw w).pendingLoad = some n → (s.saw w).queue.head? = some n) : QueueLaw t := by
  rw [queueLaw_iff] at k ⊢
  refine ⟨?_, ?_, ?_, fun w n e => ?_, ?_, ?_⟩
  · simpa only [hq, hs] using k.queued
  · simpa only [hq, hs] using k.placed
  · simpa only [hq, hs] using k.cutting
  · simpa only [hq] using hl w n e
  · simpa only [hq] using k.once
  · simpa only [hq] using k.fits

theorem SameQueues.law {s t : State} (h : SameQueues s t) (k : QueueLaw s) : QueueLaw t :=
  k.congr h.queue h.standing fun w n e => k.load w n (h.load w n e)

theorem standing_of_kept {p q : Plan} (h : q.kept = p.kept) : q.standing = p.standing := by
  simp only [Plan.standing, Plan.kept_state h, Plan.kept_saw h]

theorem SameQueues.of_kept {s t : State} (h : Kept s t) : SameQueues s t := by
  refine ⟨h.queue, fun w n e => (h.pendingLoad w).symm.trans e, fun n => ?_⟩
  cases hp : s.plan? n with
  | some p =>
    obtain ⟨q, hq, e⟩ := h.plan' hp
    rw [standing?_of_plan hp, standing?_of_plan hq, standing_of_kept e]
  | none =>
    cases hq : t.plan? n with
    | some q =>
      obtain ⟨p, hp', -⟩ := h.plan hq
      cases hp.symm.trans hp'
    | none => simp [State.standing?, hp, hq]

theorem SameQueues.of_blocks {s t : State} (hw : t.sdp.saws = s.sdp.saws) (hp : t.pln = s.pln) : SameQueues s t :=
  .of_kept (.of_eq hw hp)

/-- A saw record changed outside its queue, with its pending load kept or cleared. -/
theorem SameQueues.updateSaw (s : State) (w : Saw) {f : SawRec → SawRec} (hq : ∀ r, (f r).queue = r.queue)
    (hl : ∀ r n, (f r).pendingLoad = some n → r.pendingLoad = some n) : SameQueues s (s.updateSaw w f) := by
  refine ⟨fun v => ?_, fun v n => ?_, fun _ => rfl⟩ <;> rw [State.saw_updateSaw] <;> split
  · subst v; exact hq _
  · rfl
  · subst v; exact hl _ n
  · exact id

theorem standing?_updatePlan (s : State) (n m : Nat) {f : Plan → Plan} (hf : ∀ p, (f p).number = p.number) :
    (s.updatePlan n f).standing? m = if m = n then (s.plan? n).bind fun p => (f p).standing else s.standing? m := by
  simp only [State.standing?, updatePlan_plan? s n f m hf]
  split
  · subst m
    cases s.plan? n <;> rfl
  · rfl

/-- A plan changed without its standing. -/
theorem SameQueues.updatePlan (s : State) (n : Nat) {f : Plan → Plan} (hf : ∀ p, (f p).number = p.number)
    (hs : ∀ p, s.plan? n = some p → (f p).standing = p.standing) : SameQueues s (s.updatePlan n f) := by
  refine ⟨fun _ => rfl, fun _ _ => id, fun m => ?_⟩
  rw [standing?_updatePlan s n m hf]
  split
  · subst m
    cases hp : s.plan? n with
    | none => simp [State.standing?, hp]
    | some p => simp [State.standing?, hp, hs p hp]
  · rfl

theorem standing_eq_none {p : Plan} (h : p.state ≠ .released) (k : p.state ≠ .cutting) : p.standing = none := by
  simp [Plan.standing, h, k]

theorem SameQueues.setSawState (s : State) (w : Saw) (x : SawState) : SameQueues s (s.setSawState w x) :=
  .of_kept (.setSawState ..)
theorem SameQueues.raise (s : State) (n : Notice) : SameQueues s (s.raise n) := .of_kept (.raise ..)
theorem SameQueues.send (s : State) (w : Saw) (f : Frame) : SameQueues s (s.send w f) := .of_kept (.send ..)

/-! ## Loading the head, and a plan that leaves its queue -/

theorem loadHead_law {s : State} (h : QueueLaw s) (w : Saw) : QueueLaw (s.loadHead w) := by
  unfold State.loadHead
  split
  case isFalse => exact h
  split
  case h_1 => exact h
  case h_2 p hp =>
    split
    case isFalse => exact h
    split
    case h_1 => exact h
    case h_2 =>
      obtain ⟨n, rest, hq, hn⟩ : ∃ n rest, (s.saw w).queue = n :: rest ∧ s.plan? n = some p := by
        unfold State.headPlan? at hp
        split at hp
        case h_1 n rest hq => exact ⟨n, rest, hq, hp⟩
        case h_2 => cases hp
      have number : p.number = n := (findBy_some hn).2
      refine h.congr (fun v => ?_) (fun _ => rfl) fun v m e => ?_
      · rw [State.saw_updateSaw]
        split
        · subst v; rfl
        · rfl
      · rw [State.saw_updateSaw] at e
        split at e
        · subst v
          cases e
          simp [hq, number]
        · exact h.load v m e

theorem goOn_law {s : State} (h : QueueLaw s) (w : Saw) : QueueLaw (s.goOn w) :=
  loadHead_law ((SameQueues.setSawState s w .idle).law h) w

theorem goOnByLink_law {s : State} (h : QueueLaw s) (w : Saw) : QueueLaw (s.goOnByLink w) := by
  unfold State.goOnByLink
  split
  · exact goOn_law h w
  · exact (SameQueues.setSawState ..).law h

/-- A plan that a saw has in its queue stands in no other. -/
theorem Queued.elsewhere {queue : Saw → List Nat} {load : Saw → Option Nat} {standing : Nat → Option (PlanState × Option Saw)}
    (h : Queued queue load standing) {n : Nat} {x : PlanState} {w v : Saw} (hn : standing n = some (x, some w))
    (hv : n ∈ queue v) : v = w := by
  obtain ⟨y, hy⟩ := h.queued v n hv
  rw [hn] at hy
  cases hy
  rfl

/-- A plan leaves the queue of the saw it names and stands no more; a load pending for it is pending no more. -/
theorem QueueLaw.leave {s t : State} (h : QueueLaw s) {n : Nat} {w : Saw} {x : PlanState}
    (hn : s.standing? n = some (x, some w)) (hw : (t.saw w).queue = (s.saw w).queue.filter fun m => m != n)
    (hv : ∀ v, v ≠ w → (t.saw v).queue = (s.saw v).queue) (ht : t.standing? n = none)
    (hm : ∀ m, m ≠ n → t.standing? m = s.standing? m)
    (hl : ∀ v m, (t.saw v).pendingLoad = some m → (s.saw v).pendingLoad = some m ∧ (v = w → m ≠ n)) : QueueLaw t := by
  rw [queueLaw_iff] at h ⊢
  have queue (v : Saw) : (t.saw v).queue = (s.saw v).queue.filter fun m => m != n := by
    by_cases e : v = w
    · exact e ▸ hw
    · refine (hv v e).trans (List.filter_eq_self.mpr fun m hm => ?_).symm
      refine bne_iff_ne.mpr fun e' => e (h.elsewhere hn ?_)
      exact e' ▸ hm
  have head {v : Saw} {m : Nat} (hh : (s.saw v).queue.head? = some m) (e : m ≠ n) : (t.saw v).queue.head? = some m := by
    obtain ⟨rest, hr⟩ := List.head?_eq_some_iff.mp hh
    rw [queue, hr, List.filter_cons_of_pos (by simpa using e)]
    rfl
  have stays {m : Nat} {y : PlanState × Option Saw} (e : t.standing? m = some y) : m ≠ n ∧ s.standing? m = some y := by
    have ne : m ≠ n := by
      rintro rfl
      cases ht.symm.trans e
    exact ⟨ne, (hm m ne).symm.trans e⟩
  refine ⟨fun v m e => ?_, fun m y o e => ?_, fun m v e => ?_, fun v m e => ?_, fun v => ?_, fun v => ?_⟩
  · simp only [queue, List.mem_filter, bne_iff_ne] at e
    rw [hm m e.2]
    exact h.queued v m e.1
  · obtain ⟨ne, e⟩ := stays e
    obtain ⟨v, hv, hmem⟩ := h.placed m y o e
    exact ⟨v, hv, by simpa [queue] using ⟨hmem, ne⟩⟩
  · obtain ⟨ne, e⟩ := stays e
    exact head (h.cutting m v e) ne
  · obtain ⟨e, ne⟩ := hl v m e
    have hh := h.load v m e
    refine head hh ?_
    by_cases ev : v = w
    · exact ne ev
    · rintro rfl
      exact ev (h.elsewhere hn (List.mem_of_head? hh))
  · simpa only [queue] using (h.once v).filter _
  · simpa only [queue] using (List.length_filter_le ..).trans (h.fits v)

theorem leaveQueue_saw (s : State) (w : Saw) (n : Nat) (v : Saw) : (s.leaveQueue w n).saw v =
    if v = w then { s.saw w with queue := (s.saw w).queue.filter fun m => m != n } else s.saw v := by
  unfold State.leaveQueue
  exact State.saw_updateSaw s w v fun r => { r with queue := r.queue.filter fun m => m != n }

theorem leaveQueue_pendingLoad (s : State) (w : Saw) (n : Nat) (v : Saw) :
    ((s.leaveQueue w n).saw v).pendingLoad = (s.saw v).pendingLoad := by
  rw [leaveQueue_saw]
  split
  · subst v; rfl
  · rfl

theorem leaveQueue_standing? (s : State) (w : Saw) (n m : Nat) (h : s.standing? n = none) :
    (s.leaveQueue w n).standing? m = s.standing? m := by
  unfold State.leaveQueue
  rw [standing?_updatePlan _ n m (f := fun p => { p with saw := none }) fun _ => rfl]
  split
  · subst m
    change ((s.plan? n).bind _) = _
    rw [h]
    cases hp : s.plan? n with
    | none => rfl
    | some p =>
      rw [standing?_of_plan hp] at h
      simpa [Plan.standing] using h
  · rfl

end Sys2Proof.Machine
end

section
/-! PROOFS. What each command does to the queues and to the standing of the plans (R49, R92), and so what every step keeps. -/

namespace Sys2Proof.Machine

/-! ## Requests that leave the queues -/

theorem standing_of_bare (p : Plan) : p.bare.standing = p.standing := rfl

theorem plan?_bare {s t : State} (h : t.pln.plans.map Plan.bare = s.pln.plans.map Plan.bare) (n : Nat) :
    (t.plan? n).map Plan.bare = (s.plan? n).map Plan.bare := by
  have find (xs : List Plan) : (findBy Plan.number n xs).map Plan.bare = findBy Plan.number n (xs.map Plan.bare) :=
    (findBy_map (f := Plan.bare) (fun _ => rfl) n xs).symm
  simp only [State.plan?, find, h]

theorem Steady.standing? {s t : State} (h : Steady s t) (n : Nat) : t.standing? n = s.standing? n := by
  have key (u : State) : u.standing? n = ((u.plan? n).map Plan.bare).bind Plan.standing := by
    simp [State.standing?, Option.bind_map, Function.comp_def, standing_of_bare]
  rw [key, key, plan?_bare h.plans]

theorem SameQueues.of_steady {s t : State} (h : Steady s t) (hs : t.sdp = s.sdp) : SameQueues s t :=
  ⟨fun w => by rw [State.saw, hs]; rfl, fun w n e => by rwa [State.saw, hs] at e, h.standing?⟩

theorem SameQueues.sawFrame (s : State) (w : Saw) : SameQueues s (s.sawFrame w) :=
  .updateSaw s w (fun _ => rfl) fun _ _ => id

theorem QueueLaw.of_blocks {s t : State} (h : QueueLaw s) (hw : t.sdp.saws = s.sdp.saws) (hp : t.pln = s.pln) : QueueLaw t :=
  (SameQueues.of_blocks hw hp).law h

theorem SameQueues.undoCheck (s : State) (p : Plan) : SameQueues s (s.undoCheck p) := .of_steady (.undoCheck s p) rfl

theorem createPlan_queues (number job slab kerf : Nat) (strips : List Strip) (s : State) :
    SameQueues s (createPlan number job slab kerf strips s).2 := by
  unfold createPlan
  split
  · exact .refl s
  split
  case h_2 => exact .refl s
  iterate 3 (split; exact .refl s)
  split
  · exact .refl s
  case isFalse hx =>
    have free : findBy Plan.number number s.pln.plans = none := by simpa [State.plan?] using hx
    refine ⟨fun _ => rfl, fun _ _ => id, fun n => ?_⟩
    have find : findBy Plan.number n (insertBy Plan.number (newPlan number job slab kerf strips) s.pln.plans) =
        if n = number then some (newPlan number job slab kerf strips) else s.plan? n := by
      split
      · subst n
        exact findBy_insertBy_self (r := newPlan number job slab kerf strips) free
      · exact findBy_insertBy_ne (by assumption)
    change (findBy Plan.number n (insertBy Plan.number _ s.pln.plans)).bind Plan.standing = s.standing? n
    rw [find]
    split
    · subst n
      simp [State.standing?, State.plan?, free, newPlan, Plan.standing]
    · rfl

theorem revisePlan_queues (number kerf : Nat) (strips : List Strip) (s : State) :
    SameQueues s (revisePlan number kerf strips s).2 := by
  unfold revisePlan
  iterate 2 (split; exact .refl s)
  rename_i p hp
  have revised (hx : p.state = .draft ∨ p.state = .checked) (t : State) (ht : t.pln = s.pln) :
      SameQueues t (t.updatePlan number (Plan.revise kerf strips)) := by
    refine .updatePlan t number (fun _ => rfl) fun q hq => ?_
    cases (plan?_congr ht number).symm.trans hq |>.symm.trans hp
    rcases hx with hx | hx <;> simp [Plan.standing, Plan.revise, hx]
  split
  · split
    · exact .refl s
    case h_1 hx _ => exact revised (.inl hx) s rfl
  · split
    · exact .refl s
    case h_2 hx _ => exact .after (revised (.inr hx) _ rfl) (.undoCheck s p)
  · exact .refl s

theorem checkPlan_queues (number : Nat) (s : State) : SameQueues s (checkPlan number s).2 := by
  unfold checkPlan
  split
  · exact .refl s
  case h_2 p hp =>
    split
    · exact .refl s
    case isFalse hx =>
      iterate 5 (split; exact .refl s)
      rename_i d _
      have number := (findBy_some hp).2
      have checked : SameQueues s (s.updatePlan p.number fun p => { p with derived := some d, state := .checked }) := by
        refine .updatePlan s _ (fun _ => rfl) fun q hq => ?_
        rw [number, hp] at hq
        cases hq
        simp [Plan.standing, not_not.mp hx]
      refine .after ?_ checked
      exact .of_steady (.after (.updateJobs _ _ (chargeOk_addPlanned _)) (.reserve ..)) rfl

theorem retirePlan_queues (number : Nat) (s : State) : SameQueues s (retirePlan number s).2 := by
  unfold retirePlan
  split
  · exact .refl s
  case h_2 p hp =>
    split
    case isFalse => exact .refl s
    case isTrue he =>
      refine ⟨fun _ => rfl, fun _ _ => id, fun n => ?_⟩
      change (findBy Plan.number n (removeBy Plan.number number s.pln.plans)).bind Plan.standing = s.standing? n
      rw [findBy_removeBy]
      split
      · subst n
        rw [standing?_of_plan hp]
        refine (standing_eq_none ?_ ?_).symm <;> rintro hx <;> simp [PlanState.ended, hx] at he
      · rfl

theorem closeJob_queues (number : Nat) (s : State) : SameQueues s (closeJob number s).2 := by
  unfold closeJob
  iterate 3 (split; exact .refl s)
  rename_i j _ _ _
  refine ⟨fun _ => rfl, fun _ _ => id, fun n => ?_⟩
  change (findBy Plan.number n (s.pln.plans.map (Plan.cancelDraft j.plans))).bind Plan.standing = s.standing? n
  have number (p : Plan) : (p.cancelDraft j.plans).number = p.number := by unfold Plan.cancelDraft; split <;> rfl
  have standing (p : Plan) : (p.cancelDraft j.plans).standing = p.standing := by
    unfold Plan.cancelDraft
    split
    case isTrue h =>
      have : p.state = .draft := by simpa using (Bool.and_eq_true_iff.mp h).2
      simp [Plan.standing, this]
    · rfl
  rw [findBy_map number, State.standing?]
  simp [Option.bind_map, standing, State.plan?]

/-! ## Links, windows and contexts -/

theorem SameQueues.unload (s : State) (w : Saw) (n : Nat) : SameQueues s (s.unload w n) := by
  unfold State.unload
  split
  · refine .after (.updateSaw _ w (fun _ => rfl) fun r m h => ?_) (.send ..)
    dsimp only at h
    split at h
    · cases h
    · exact h
  · exact .refl s

theorem SameQueues.clearLoad (s : State) (w : Saw) : SameQueues s (s.updateSaw w fun r => { r with pendingLoad := none }) :=
  .updateSaw s w (fun _ => rfl) fun _ _ h => by cases h

theorem SameQueues.goOffline (s : State) (w : Saw) : SameQueues s (s.goOffline w) := by
  unfold State.goOffline
  exact .after (.updateSaw _ w (fun _ => rfl) fun _ _ h => by cases h) (.of_kept (.dropWindow ..))

theorem SameQueues.linkContext (s : State) (w : Saw) : SameQueues s (s.linkContext w) :=
  .after (.setSawState ..) (.after (.of_kept (.dropWindow ..)) (.of_kept (.writeContext ..)))

theorem Kept.stopTimer (s : State) (w : Saw) : Kept s (s.updateSaw w fun r => { r with holdTimer := none }) :=
  .updateSaw s w fun _ => rfl

theorem Kept.stopCut (s : State) (w : Saw) : Kept s (s.stopCut w) :=
  ((Kept.stopTimer s w).trans (.closeSegment ..)).trans (.leaveWater Kept.runPass ..)

theorem SameQueues.setLink (s : State) (w : Saw) (l : LinkState) : SameQueues s (s.updateSaw w fun r => { r with link := l }) :=
  .updateSaw s w (fun _ => rfl) fun _ _ => id

theorem SameQueues.loseLink (s : State) (w : Saw) : SameQueues s (s.loseLink w) := by
  unfold State.loseLink
  have down : SameQueues s ((s.updateSaw w fun r => { r with link := .down }).raise .sawLink) := .after (.raise ..) (.setLink ..)
  dsimp only
  split
  · exact down
  iterate 3 exact .after (.goOffline ..) down
  · exact .after (.goOffline ..) (.after (.of_kept (.removeFromLine ..)) down)
  · exact .after (.clearLoad ..) (.after (.of_kept (.dropWindow ..)) down)
  iterate 2 exact .after (.linkContext ..) (.after (.of_kept (.stopCut ..)) down)
  · exact .after (.linkContext ..) (.after (.of_kept (.removeFromLine ..)) down)

theorem wake_law {s : State} (h : QueueLaw s) (w : Saw) : QueueLaw (s.wake w) := by
  unfold State.wake
  have idle := (SameQueues.setSawState s w .idle).law h
  dsimp only
  split
  · refine SameQueues.law ?_ idle
    exact .after (.setSawState ..) (.updateSaw _ w (fun _ => rfl) fun _ _ => id)
  · exact loadHead_law idle w

theorem linkUp_law {s : State} (h : QueueLaw s) (w : Saw) : QueueLaw (s.linkUp w) := by
  unfold State.linkUp
  have up : QueueLaw ((s.updateSaw w fun r => { r with link := .up }).raise .sawLink) :=
    (SameQueues.after (.raise ..) (.setLink ..)).law h
  dsimp only
  split
  · exact wake_law up w
  · exact up

theorem hello_law {s : State} (h : QueueLaw s) (w : Saw) (n : Nat) : QueueLaw (hello w n s) := by
  unfold hello
  have greeted : SameQueues s (((s.sawFrame w).send w (answerFrame Kind.hello .ok)).updateSaw w fun r =>
      { r with maxFeed := clamp 100 6000 n }) :=
    .after (.updateSaw _ w (fun _ => rfl) fun _ _ => id) (.after (.send ..) (.updateSaw s w (fun _ => rfl) fun _ _ => id))
  refine linkUp_law ?_ w
  split
  · exact (SameQueues.after (.loseLink ..) greeted).law h
  · exact greeted.law h

theorem linkSilence_queues (w : Saw) (s : State) : SameQueues s (linkSilence w s) := by
  unfold linkSilence
  split
  · exact .after (.loseLink ..) (.updateSaw s w (fun _ => rfl) fun _ _ => id)
  · exact .refl s

theorem holdTimerExpiry_kept (w : Saw) (s : State) : Kept s (holdTimerExpiry w s) := by
  unfold holdTimerExpiry
  split
  · exact (((((Kept.stopTimer s w).trans (.withWau ..)).trans (.closeSegment ..)).trans (.writeContext ..)).trans
      (.setSawState ..)).trans (.raise ..)
  · exact .refl s

theorem Kept.faultOutside (s : State) (w : Saw) (c : Cause) : Kept s (s.faultOutside w c) :=
  ((Kept.writeContext s w ..).trans (.setSawState ..)).trans (.raise ..)

theorem Kept.refault (s : State) (w : Saw) (f : Context → Context) :
    Kept s (s.updateSaw w fun r => { r with context := r.context.map f }) := .updateSaw s w fun _ => rfl

theorem fault_kept (w : Saw) (tag : Option Nat) (position : Nat) (cause : Cause) (s : State) :
    Kept s (fault w tag position cause s) := by
  unfold fault
  split
  iterate 2 exact .faultInCut Kept.runPass ..
  iterate 3 exact .faultOutside ..
  · exact (Kept.removeFromLine s w).trans (.faultOutside ..)
  · exact (((Kept.removeFromLine s w).trans (.refault ..)).trans (.setSawState ..)).trans (.raise ..)
  · exact (Kept.refault s w _).trans (.raise ..)
  · exact .refl s

theorem SameQueues.setInterlock (s : State) (w : Saw) (b : Bool) :
    SameQueues s (s.updateSaw w fun r => { r with interlock := b }) := .updateSaw s w (fun _ => rfl) fun _ _ => id

theorem interlockDrop_queues (w : Saw) (s : State) : SameQueues s (interlockDrop w s) := by
  unfold interlockDrop
  split
  · dsimp only
    split
    · exact .after (.of_kept (.faultInCut Kept.runPass ..)) (.setInterlock ..)
    · exact .setInterlock ..
  · exact .refl s

/-! ## START, HELD, STATUS and the resumption -/

theorem start_kept (w : Saw) (tag : Nat) (s : State) : Kept s (start w tag s) := by
  unfold start
  split
  · exact ((Kept.admitSaw s w).trans (.grantGo ..)).trans (.settleInterlock Kept.runPass ..)
  · exact ((Kept.withWau s _).trans (.send ..)).trans (.setSawState ..)

theorem held_kept (w : Saw) (position : Nat) (s : State) : Kept s (held w position s) :=
  (((((((Kept.stopTimer s w).trans (.reportReached ..)).trans (.closeSegment ..)).trans (.writeContext ..)).trans
    (.setSawState ..)).trans (.raise ..)).trans (.withWau ..)).trans (.runPass _)

theorem status_kept (w : Saw) (position : Nat) (s : State) : Kept s (status w position s) := by
  unfold status
  split
  · exact .reportReached ..
  · exact .refl s

theorem Kept.clearContext (s : State) (w : Saw) : Kept s (s.updateSaw w fun r => { r with context := none }) :=
  .updateSaw s w fun _ => rfl

theorem Kept.seekResume (s : State) (w : Saw) : Kept s (s.seekResume w) := by
  unfold State.seekResume
  split
  · exact ((Kept.admitSaw s w).trans (.resumeCut ..)).trans (.settleInterlock Kept.runPass ..)
  · exact (Kept.withWau s _).trans (.setSawState ..)

theorem resumeSaw_law {s : State} (h : QueueLaw s) (saw : Nat) : QueueLaw (resumeSaw saw s).2 := by
  unfold resumeSaw
  split
  · exact h
  · rename_i w _
    dsimp only
    iterate 4 (split; exact h)
    have cleared := (SameQueues.of_kept (Kept.clearContext s w)).law h
    unfold State.resumeSaw
    dsimp only [performed]
    split
    · exact (SameQueues.of_kept (.seekResume ..)).law cleared
    · unfold State.resumeNormal
      split
      · exact (SameQueues.setSawState ..).law cleared
      · exact goOn_law cleared w

/-! ## Release and LOADED -/

theorem headPlan?_eq_some {s : State} {w : Saw} {p : Plan} :
    s.headPlan? w = some p ↔ ∃ n rest, (s.saw w).queue = n :: rest ∧ s.plan? n = some p := by
  unfold State.headPlan?
  cases (s.saw w).queue <;> simp

/-- A CHECKED plan joins the tail of a queue with room, RELEASED and naming the saw. -/
theorem QueueLaw.join {s : State} (h : QueueLaw s) {number : Nat} {w : Saw} {p : Plan} (hp : s.plan? number = some p)
    (hc : p.state = .checked) (hq : (s.saw w).queue.length < Config.maxQueue) : QueueLaw (s.planReleased number w) := by
  have apart : s.standing? number = none := by simp [standing?_of_plan hp, Plan.standing, hc]
  have standing (m : Nat) : (s.planReleased number w).standing? m =
      if m = number then some (.released, some w) else s.standing? m := by
    refine (standing?_updatePlan s number m (f := fun p => { p with state := .released, saw := some w }) fun _ => rfl).trans ?_
    simp [hp, Plan.standing]
  have saw (v : Saw) : (s.planReleased number w).saw v =
      if v = w then { s.saw w with queue := (s.saw w).queue ++ [number] } else s.saw v :=
    State.saw_updateSaw _ w v fun r => { r with queue := r.queue ++ [number] }
  rw [queueLaw_iff] at h ⊢
  have queue (v : Saw) : ((s.planReleased number w).saw v).queue =
      if v = w then (s.saw w).queue ++ [number] else (s.saw v).queue := by
    rw [saw]
    split <;> rfl
  have load (v : Saw) : ((s.planReleased number w).saw v).pendingLoad = (s.saw v).pendingLoad := by
    rw [saw]
    split
    · subst v; rfl
    · rfl
  have absent (v : Saw) : number ∉ (s.saw v).queue := fun hv => by
    obtain ⟨x, hx⟩ := h.queued v number hv
    cases apart.symm.trans hx
  have head {v : Saw} {m : Nat} (e : (s.saw v).queue.head? = some m) :
      ((s.planReleased number w).saw v).queue.head? = some m := by
    rw [queue]
    split
    · subst v
      simp [e]
    · exact e
  refine ⟨fun v m e => ?_, fun m x o e => ?_, fun m v e => ?_, fun v m e => ?_, fun v => ?_, fun v => ?_⟩
  · rw [standing]
    simp only [queue] at e
    split
    · subst m
      split at e
      · subst v
        exact ⟨_, rfl⟩
      · exact absurd e (absent v)
    case isFalse ne =>
      refine h.queued v m ?_
      split at e
      · subst v
        simpa [ne] using e
      · exact e
  · simp only [queue]
    rw [standing] at e
    split at e
    · subst m
      cases e
      exact ⟨w, rfl, by simp⟩
    · obtain ⟨v, hv, hm⟩ := h.placed m x o e
      refine ⟨v, hv, ?_⟩
      split
      · subst v
        exact List.mem_append_left _ hm
      · exact hm
  · rw [standing] at e
    split at e
    · cases e
    · exact head (h.cutting m v e)
  · exact head (h.load v m ((load v).symm.trans e))
  · simp only [queue]
    split
    · exact List.nodup_append.mpr ⟨h.once w, List.nodup_singleton _, by
        rintro a ha b hb rfl
        rw [List.mem_singleton] at hb
        exact absent w (hb ▸ ha)⟩
    · exact h.once v
  · simp only [queue]
    split
    · simpa using hq
    · exact h.fits v

theorem releasePlan_law {s : State} (h : QueueLaw s) (number saw : Nat) : QueueLaw (releasePlan number saw s).2 := by
  unfold releasePlan
  split
  · exact h
  split
  · exact h
  rename_i w _ _ p hp
  split
  · exact h
  case isFalse hc =>
    split
    · exact h
    case isFalse hq =>
      iterate 4 (split; exact h)
      exact loadHead_law (h.join hp (not_not.mp hc) (Nat.not_le.mp hq)) w

/-- The head of a queue takes the state CUTTING. -/
theorem QueueLaw.cut {s : State} (h : QueueLaw s) {n : Nat} {w : Saw} (hn : (s.saw w).queue.head? = some n) :
    QueueLaw (s.updatePlan n fun p => { p with state := .cutting }) := by
  rw [queueLaw_iff] at h ⊢
  obtain ⟨x, hx⟩ := h.queued w n (List.mem_of_head? hn)
  obtain ⟨p, hp, -, -, hw⟩ := standing?_eq_some.mp hx
  have standing (m : Nat) : (s.updatePlan n fun p => { p with state := .cutting }).standing? m =
      if m = n then some (.cutting, some w) else s.standing? m := by
    refine (standing?_updatePlan s n m (f := fun p => { p with state := .cutting }) fun _ => rfl).trans ?_
    simp [hp, Plan.standing, hw]
  refine ⟨fun v m e => ?_, fun m y o e => ?_, fun m v e => ?_, h.load, h.once, h.fits⟩
  · rw [standing]
    split
    · subst m
      exact ⟨.cutting, by rw [h.elsewhere hx e]⟩
    · exact h.queued v m e
  · rw [standing] at e
    split at e
    · subst m
      cases e
      exact ⟨w, rfl, List.mem_of_head? hn⟩
    · exact h.placed m y o e
  · rw [standing] at e
    split at e
    · subst m
      cases e
      exact hn
    · exact h.cutting m v e

theorem loaded_law {s : State} (h : QueueLaw s) {w : Saw} {plan : Nat} (hc : checkLoaded w plan s = none) :
    QueueLaw (loaded w plan s) := by
  have pending : (s.saw w).pendingLoad = some plan := by
    unfold checkLoaded at hc
    split at hc
    · cases hc
    case isFalse hp => exact not_not.mp hp
  have head := h.load w plan pending
  have cleared := (SameQueues.clearLoad s w).law h
  have reported : QueueLaw ((s.updateSaw w fun r => { r with pendingLoad := none }).reportLoad plan) := by
    unfold State.reportLoad
    split
    · split
      · refine (SameQueues.of_steady (.putOnSaw ..) (by simp)).law (cleared.cut (w := w) ?_)
        rwa [State.saw_updateSaw_same]
      · exact cleared
    · exact cleared
  exact (SameQueues.after (.setSawState ..) (.after (.of_kept (.refill ..)) (.of_kept (.refill ..)))).law reported

/-! ## A plan that ends -/

theorem standing?_ended (s : State) (n m : Nat) {f : Plan → Plan} (hf : ∀ p, (f p).number = p.number)
    (hx : ∀ p, (f p).standing = none) :
    (s.updatePlan n f).standing? m = if m = n then none else s.standing? m := by
  rw [standing?_updatePlan s n m hf]
  simp [hx]

/-- A plan in the queue of the saw it names ends and leaves the queue. -/
theorem QueueLaw.depart {s t u : State} (h : QueueLaw s) {n : Nat} {w : Saw} {x : PlanState}
    (hn : s.standing? n = some (x, some w)) (hq : ∀ v, (t.saw v).queue = (s.saw v).queue)
    (ht : ∀ m, t.standing? m = if m = n then none else s.standing? m)
    (hu : ∀ v, (u.saw v).queue = ((t.leaveQueue w n).saw v).queue) (hus : ∀ m, u.standing? m = (t.leaveQueue w n).standing? m)
    (hl : ∀ v m, (u.saw v).pendingLoad = some m → (s.saw v).pendingLoad = some m ∧ (v = w → m ≠ n)) : QueueLaw u := by
  have gone : t.standing? n = none := by simp [ht]
  refine h.leave hn ?_ (fun v hv => ?_) ?_ (fun m hm => ?_) hl
  · rw [hu, leaveQueue_saw, if_pos rfl]
    simp only [hq]
  · rw [hu, leaveQueue_saw, if_neg hv, hq]
  · rw [hus, leaveQueue_standing? t w n n gone, gone]
  · rw [hus, leaveQueue_standing? t w n m gone, ht, if_neg hm]

/-- A live plan names a saw. -/
theorem QueueLaw.saw_of_live {s : State} (h : QueueLaw s) {n : Nat} {p : Plan} (hp : s.plan? n = some p)
    (hx : p.state = .released ∨ p.state = .cutting) : ∃ w, p.saw = some w ∧ s.standing? n = some (p.state, some w) := by
  obtain ⟨w, hw, -⟩ := h.placed n p hp hx
  exact ⟨w, hw, standing?_eq_some.mpr ⟨p, hp, hx, rfl, hw⟩⟩

theorem unload_pendingLoad_up {s : State} {w : Saw} {n m : Nat} (hl : (s.saw w).link = .up)
    (h : ((s.unload w n).saw w).pendingLoad = some m) : (s.saw w).pendingLoad = some m ∧ m ≠ n := by
  simp only [State.unload, hl, State.saw_updateSaw_same, State.saw_send] at h
  by_cases e : (s.saw w).pendingLoad = some n
  · simp [e] at h
  · simp only [e, if_false] at h
    refine ⟨h, ?_⟩
    rintro rfl
    exact e h

theorem complete_law {s : State} (h : QueueLaw s) {w : Saw} {p : Plan} {x : PlanState}
    (hn : s.standing? p.number = some (x, some w)) (hl : (s.saw w).link = .up) : QueueLaw (s.complete w p) := by
  unfold State.complete
  refine goOn_law ?_ w
  have settled (t : State) (d : Derived) : SameQueues t (t.settleRemnant p d) := by
    have charged (t : State) (n : Nat) : SameQueues t (t.charge p.job (Job.chargeStone n)) :=
      .of_steady (.charge t _ (chargeOk_stone n)) (by simp)
    have created (part : RemnantPart) : SameQueues t (t.createRemnant p.slab part).2 :=
      .of_steady (.createRemnant ..) (by simp)
    unfold State.settleRemnant
    split
    · exact .after (.raise ..) (charged ..)
    · dsimp only
      split
      · exact .after (.raise ..) (.after (.raise ..) (.after (charged ..) (.after
          (.updatePlan _ _ (fun _ => rfl) fun _ _ => rfl) (created _))))
      · exact .after (.raise ..) (.after (.raise ..) (.after (charged ..) (created _)))
  have ended : SameQueues ((s.updatePlan p.number fun p => { p with state := .done }).consume p.slab)
      (p.derived.elim (((s.updatePlan p.number fun p => { p with state := .done }).consume p.slab).raise .planDone)
        fun d => ((s.updatePlan p.number fun p => { p with state := .done }).consume p.slab).settleRemnant p d) := by
    cases p.derived
    · exact .raise ..
    · exact settled ..
  have sdp : (p.derived.elim (((s.updatePlan p.number fun p => { p with state := .done }).consume p.slab).raise .planDone)
      fun d => ((s.updatePlan p.number fun p => { p with state := .done }).consume p.slab).settleRemnant p d).sdp = s.sdp := by
    cases p.derived <;> simp
  generalize p.derived.elim _ _ = t at ended sdp ⊢
  have queue (v : Saw) : (t.saw v).queue = (s.saw v).queue := ended.queue v
  have standing (m : Nat) : t.standing? m = if m = p.number then none else s.standing? m :=
    (ended.standing m).trans (standing?_ended s p.number m (f := fun p => { p with state := .done }) (fun _ => rfl)
      fun _ => rfl)
  have unloaded := SameQueues.unload (t.leaveQueue w p.number) w p.number
  refine h.depart hn queue standing unloaded.queue unloaded.standing fun v m e => ?_
  have before (e : ((t.leaveQueue w p.number).saw v).pendingLoad = some m) : (s.saw v).pendingLoad = some m :=
    ended.load v m ((leaveQueue_pendingLoad ..).symm.trans e)
  by_cases ev : v = w
  · subst v
    have link : ((t.leaveQueue w p.number).saw w).link = .up := by
      rw [leaveQueue_saw, if_pos rfl]
      rwa [State.saw, sdp]
    obtain ⟨e, ne⟩ := unload_pendingLoad_up link e
    exact ⟨before e, fun _ => ne⟩
  · exact ⟨before (unloaded.load v m e), fun e => absurd e ev⟩

theorem cancelPlan_law {s : State} (h : QueueLaw s) (number : Nat) : QueueLaw (cancelPlan number s).2 := by
  unfold cancelPlan
  split
  · exact h
  case h_2 p hp =>
    have cancelled (t : State) (ht : t.pln = s.pln) (m : Nat) :
        (t.updatePlan number fun p => { p with state := .cancelled }).standing? m =
          if m = number then none else s.standing? m := by
      rw [standing?_ended t number m (f := fun p => { p with state := .cancelled }) (fun _ => rfl) fun _ => rfl]
      simp only [State.standing?, plan?_congr ht]
    have idle (hx : p.standing = none) (t : State) (ht : t.pln = s.pln) (hs : t.sdp = s.sdp) :
        SameQueues s (t.updatePlan number fun p => { p with state := .cancelled }) := by
      refine ⟨fun w => ?_, fun w n e => ?_, fun m => ?_⟩
      · simp only [State.saw, State.updatePlan_sdp, hs]
      · simpa only [State.saw, State.updatePlan_sdp, hs] using e
      · rw [cancelled t ht]
        split
        · subst m
          rw [standing?_of_plan hp, hx]
        · rfl
    dsimp only
    split
    case h_1 hx => exact (idle (by simp [Plan.standing, hx]) s rfl rfl).law h
    case h_2 hx => exact (idle (by simp [Plan.standing, hx]) (s.undoCheck p) rfl rfl).law h
    case h_3 hx =>
      obtain ⟨w, hw, hn⟩ := h.saw_of_live hp (.inl hx)
      rw [hw]
      dsimp only [performed, Option.elim]
      generalize ht : (s.undoCheck p).updatePlan number (fun p => { p with state := .cancelled }) = t
      have queue (v : Saw) : (t.saw v) = s.saw v := by rw [← ht]; rfl
      have standing := ht ▸ cancelled (s.undoCheck p) rfl
      have load (v : Saw) : ((t.leaveQueue w number).saw v).pendingLoad = (s.saw v).pendingLoad :=
        (leaveQueue_pendingLoad ..).trans (by rw [queue])
      unfold State.cancelLoad
      split
      case isFalse hl =>
        refine h.depart hn (fun v => by rw [queue]) standing (fun _ => rfl) (fun _ => rfl) fun v m e => ?_
        refine ⟨(load v).symm.trans e, ?_⟩
        rintro rfl rfl
        exact hl e
      case isTrue =>
        have cleared : SameQueues (t.leaveQueue w number) (((t.leaveQueue w number).unload w number).updateSaw w fun r =>
            { r with pendingLoad := none }) := .after (.clearLoad ..) (.unload ..)
        have left : QueueLaw (((t.leaveQueue w number).unload w number).updateSaw w fun r => { r with pendingLoad := none }) := by
          refine h.depart hn (fun v => by rw [queue]) standing cleared.queue cleared.standing fun v m e => ?_
          refine ⟨(load v).symm.trans (cleared.load v m e), ?_⟩
          rintro rfl
          rw [State.saw_updateSaw_same] at e
          cases e
        dsimp only
        split
        · exact goOn_law left w
        · exact left
    · exact h

theorem SameQueues.writeOff (s : State) (p : Plan) : SameQueues s (s.writeOff p) :=
  .of_steady (.writeOff s p) (by simp)

theorem abandonPlan_law {s : State} (h : QueueLaw s) (number : Nat) : QueueLaw (abandonPlan number s).2 := by
  unfold abandonPlan
  split
  · exact h
  case h_2 p hp =>
    split
    · exact h
    case isFalse hx =>
      have cutting : p.state = .cutting := not_not.mp fun e => hx (.inl e)
      obtain ⟨w, hw, hn⟩ := h.saw_of_live hp (.inr cutting)
      rw [hw]
      dsimp only [performed, Option.elim]
      refine goOnByLink_law ?_ w
      have cleared : SameQueues s ((s.writeOff p).clearSaw w number) := by
        refine .after (.unload ..) (.after (.updateSaw _ w (fun _ => rfl) fun _ _ e => by cases e) (.after ?_ (.writeOff s p)))
        exact .of_kept (.removeFromLine ..)
      have noLoad : (((s.writeOff p).clearSaw w number).saw w).pendingLoad = none := by
        have := (SameQueues.unload (((s.writeOff p).removeFromLine w).updateSaw w fun r =>
          { r with context := none, outstanding := [], pendingLoad := none, passTime := 0 }) w number).load w
        refine Option.eq_none_iff_forall_ne_some.mpr fun m e => ?_
        have := this m e
        rw [State.saw_updateSaw_same] at this
        cases this
      refine h.depart (t := ((s.writeOff p).clearSaw w number).updatePlan number fun p => { p with state := .abandoned })
        hn cleared.queue (fun m => ?_) (fun _ => rfl) (fun _ => rfl) fun v m e => ?_
      · exact (standing?_ended _ number m (f := fun p => { p with state := .abandoned }) (fun _ => rfl) fun _ => rfl).trans
          (by rw [cleared.standing])
      · rw [leaveQueue_pendingLoad] at e
        refine ⟨cleared.load v m e, ?_⟩
        rintro rfl
        cases noLoad.symm.trans e

theorem Kept.dropOutstanding (s : State) (w : Saw) (f : List Outstanding → List Outstanding) (n : Nat) :
    Kept s (s.updateSaw w fun r => { r with outstanding := f r.outstanding, passTime := n }) := .updateSaw s w fun _ => rfl

theorem done_law {s : State} (h : QueueLaw s) {w : Saw} (hl : (s.saw w).link = .up) : QueueLaw (done w s) := by
  unfold done
  split
  · exact h
  case h_2 p q ha =>
    have kept := Kept.finishPass s w p q
    have finished := (SameQueues.of_kept kept).law h
    obtain ⟨hhead, -⟩ := activePass?_some ha
    obtain ⟨n, rest, hq, hp⟩ := headPlan?_eq_some.mp hhead
    have number : p.number = n := (findBy_some hp).2
    dsimp only
    split
    · exact (SameQueues.setSawState ..).law finished
    case h_2 p' hp' =>
      have number' : p'.number = p.number := (findBy_some hp').2
      split
      · obtain ⟨r, hr, hw, hx⟩ := h.queued w n (hq ▸ List.mem_cons_self)
        have standing : (s.finishPass w p q).standing? p'.number = some (r.state, some w) := by
          rw [number', number, (SameQueues.of_kept kept).standing]
          exact standing?_eq_some.mpr ⟨r, hr, hx, rfl, hw⟩
        exact complete_law finished standing ((kept.link w).trans hl)
      · exact (SameQueues.after (.setSawState ..) (.of_kept (.stagePass ..))).law finished

/-! ## Blades, channels and meters -/

theorem fitBlade_queues (number saw : Nat) (s : State) : SameQueues s (fitBlade number saw s).2 := by
  unfold fitBlade
  iterate 6 (split; exact .refl s)
  dsimp only [performed]
  refine .after (.updateSaw _ _ (fun _ => rfl) fun _ _ => id) ?_
  cases (s.saw _).blade <;> exact .of_blocks rfl rfl

theorem removeBlade_queues (saw : Nat) (s : State) : SameQueues s (removeBlade saw s).2 := by
  unfold removeBlade
  iterate 3 (split; exact .refl s)
  dsimp only [performed]
  exact .after (.updateSaw _ _ (fun _ => rfl) fun _ _ => id) (.of_blocks rfl rfl)

theorem channelSample_sdp (c : Chan) (raw : Int) (s : State) : (channelSample c raw s).sdp = s.sdp := by
  unfold channelSample
  dsimp only
  (repeat' split) <;> simp

theorem graceExpiry_sdp (c : Chan) (s : State) : (graceExpiry c s).sdp = s.sdp := by
  unfold graceExpiry
  split <;> rfl

theorem fieldSupplyLoss_sdp (s : State) : (fieldSupplyLoss s).sdp = s.sdp := by
  unfold fieldSupplyLoss
  split <;> simp

theorem fieldSupplyReturn_sdp (raw : Seven Int) (s : State) : (fieldSupplyReturn raw s).sdp = s.sdp := by
  unfold fieldSupplyReturn
  split <;> simp

theorem meteringInterval_queues (w : Saw) (s : State) : SameQueues s (meteringInterval w s) := by
  unfold meteringInterval
  dsimp only
  split
  · have ticked : SameQueues s (s.updateSaw w fun r => { r with meters := r.meters.tick (s.intervalFlow w) }) :=
      .updateSaw s w (fun _ => rfl) fun _ _ => id
    split
    · exact .after (.of_blocks (by simp) (by simp)) ticked
    · exact ticked
  · exact .refl s

/-! ## Starts -/

theorem coldStart_queues (s : State) (interlock : Four Bool) (fieldSupply : Bool) :
    QueueLaw (s.coldStart interlock fieldSupply) := by
  refine ⟨fun w n hn => ?_, fun n p hp => (by cases hp), fun n p w hp => (by cases hp), fun w n hn => ?_, fun w => ?_, fun w => ?_⟩
    <;> rw [coldStart_saw] at *
  · cases hn
  · cases hn
  · exact List.nodup_nil
  · exact Nat.zero_le _

theorem warmStart_queues (s : State) (inputs : Inputs) : SameQueues s (s.warmStart inputs) := by
  have saw (w : Saw) : (s.warmStart inputs).saw w = s.warmSaw inputs.interlock w := by
    rw [warmStart_eq]
    unfold State.warmChannels
    rw [State.saw, State.eachChannel_sdp]
    exact warmed_saw ..
  refine ⟨fun w => ?_, fun w n e => ?_, (Steady.warmStart s inputs).standing?⟩
  · rw [saw]; rfl
  · rw [saw] at e; cases e

theorem startOrCut_queues {s : State} (h : QueueLaw s) (inputs : Inputs) : QueueLaw (s.startOrCut inputs) := by
  have started : QueueLaw (s.start inputs) := by
    unfold State.start
    dsimp only
    split
    · exact coldStart_queues ..
    · exact (warmStart_queues ..).law (h.of_blocks rfl rfl)
  rcases State.startOrCut_cases s inputs with e | e <;> rw [e]
  · exact started
  · exact started.of_blocks rfl rfl

/-! ## Every command and every step -/

theorem act_queues (i : Instr) (s : State) (h : QueueLaw s) (ht : (Instr.meaning i).Taken s) :
    QueueLaw ((Instr.meaning i).act s) := by
  cases i
  case readMaterial | readSlab | findSlabs | readRack | readAudit | readPlan | readPassList | readSaw | readContext
    | readBlade | readChannel | readPlant | readJob | unknownRequest =>
    rwa [act_of_reads rfl]
  case defineMaterial => exact (SameQueues.of_steady (defineMaterial_steady ..) (defineMaterial_keeps_sdp ..)).law h
  case dropMaterial => exact (SameQueues.of_steady (dropMaterial_steady ..) (dropMaterial_keeps_sdp ..)).law h
  case createSlab => exact (SameQueues.of_steady (createSlab_steady ..) (createSlab_keeps_sdp ..)).law h
  case amendSlab => exact (SameQueues.of_steady (amendSlab_steady ..) (amendSlab_keeps_sdp ..)).law h
  case scrapSlab => exact (SameQueues.of_steady (scrapSlab_steady ..) (scrapSlab_keeps_sdp ..)).law h
  case retireSlab => exact (SameQueues.of_steady (retireSlab_steady ..) (retireSlab_keeps_sdp ..)).law h
  case moveSlab => exact (SameQueues.of_steady (moveSlab_steady ..) (moveSlab_keeps_sdp ..)).law h
  case verifySlab => exact (SameQueues.of_steady (verifySlab_steady ..) (verifySlab_keeps_sdp ..)).law h
  case startAudit => exact (SameQueues.of_steady (startAudit_steady ..) (startAudit_keeps_sdp ..)).law h
  case endAudit => exact (SameQueues.of_steady (endAudit_steady s) (endAudit_keeps_sdp ..)).law h
  case abortAudit => exact (SameQueues.of_steady (abortAudit_steady s) (abortAudit_keeps_sdp ..)).law h
  case createPlan => exact (createPlan_queues ..).law h
  case revisePlan => exact (revisePlan_queues ..).law h
  case checkPlan => exact (checkPlan_queues ..).law h
  case releasePlan => exact releasePlan_law h ..
  case cancelPlan => exact cancelPlan_law h _
  case abandonPlan => exact abandonPlan_law h _
  case retirePlan => exact (retirePlan_queues ..).law h
  case configureSaw saw demand rate =>
    refine SameQueues.law ?_ h
    simp only [Instr.meaning, Meaning.act, configureSaw]
    split
    · exact .refl s
    · dsimp only [performed]
      exact .updateSaw s _ (fun _ => rfl) fun _ _ => id
  case resumeSaw => exact resumeSaw_law h _
  case addBlade => exact (SameQueues.of_steady (addBlade_steady ..) (addBlade_keeps_sdp ..)).law h
  case amendBlade => exact (SameQueues.of_steady (amendBlade_steady ..) (amendBlade_keeps_sdp ..)).law h
  case fitBlade => exact (fitBlade_queues ..).law h
  case removeBlade => exact (removeBlade_queues ..).law h
  case retireBlade => exact (SameQueues.of_steady (retireBlade_steady ..) (retireBlade_keeps_sdp ..)).law h
  case setChannel => exact (SameQueues.of_steady (setChannel_steady ..) (setChannel_keeps_sdp ..)).law h
  case calBegin => exact (SameQueues.of_steady (calBegin_steady ..) (calBegin_keeps_sdp ..)).law h
  case calPoint => exact (SameQueues.of_steady (calPoint_steady ..) (calPoint_keeps_sdp ..)).law h
  case calEnd => exact (SameQueues.of_steady (calEnd_steady ..) (calEnd_keeps_sdp ..)).law h
  case calAbort => exact (SameQueues.of_steady (calAbort_steady ..) (calAbort_keeps_sdp ..)).law h
  case setPlant => exact (SameQueues.of_kept ((Kept.withWau ..).trans (.evaluate _))).law h
  case openJob => exact (SameQueues.of_steady (openJob_steady ..) (openJob_keeps_sdp ..)).law h
  case amendJob => exact (SameQueues.of_steady (amendJob_steady ..) (amendJob_keeps_sdp ..)).law h
  case closeJob => exact (closeJob_queues ..).law h
  case retireJob => exact (SameQueues.of_steady (retireJob_steady ..) (retireJob_keeps_sdp ..)).law h
  case readNotices => exact h.of_blocks rfl rfl
  case setNotices => exact (SameQueues.of_steady (setNotices_steady ..) (setNotices_keeps_sdp ..)).law h
  case readState => exact h.of_blocks rfl rfl
  case wipeStore =>
    simp only [Instr.meaning, Meaning.act, wipeStore]
    split
    · exact h
    · exact coldStart_queues ..
  case busyRequest =>
    simp only [Instr.meaning, Meaning.act, busyRequest]
    split
    · exact h.of_blocks (by simp) (by simp)
    · exact h
  case replySent =>
    simp only [Instr.meaning, Meaning.act, replySent]
    split
    · exact h.of_blocks rfl rfl
    · exact h
  case badFrame => exact h.of_blocks (State.setReceiver_saws ..) (State.setReceiver_pln ..)
  case byteGapTimeout => exact h.of_blocks (State.setReceiver_saws ..) (State.setReceiver_pln ..)
  case hello => exact hello_law h ..
  case loaded => exact loaded_law h ht.2
  case start => exact (SameQueues.of_kept (start_kept ..)).law h
  case done => exact done_law h ht.1.2
  case held => exact (SameQueues.of_kept (held_kept ..)).law h
  case fault => exact (SameQueues.of_kept (fault_kept ..)).law h
  case status => exact (SameQueues.of_kept (status_kept ..)).law h
  case sawMessageMalformed w _ => exact (SameQueues.after (.send ..) (.sawFrame s w)).law h
  case linkSilence => exact (linkSilence_queues ..).law h
  case holdTimerExpiry => exact (SameQueues.of_kept (holdTimerExpiry_kept ..)).law h
  case interlockDrop => exact (interlockDrop_queues ..).law h
  case interlockReturn => exact (SameQueues.setInterlock ..).law h
  case channelSample => exact (SameQueues.of_steady (channelSample_steady ..) (channelSample_sdp ..)).law h
  case graceExpiry => exact (SameQueues.of_steady (graceExpiry_steady ..) (graceExpiry_sdp ..)).law h
  case fieldSupplyLoss => exact (SameQueues.of_steady (fieldSupplyLoss_steady s) (fieldSupplyLoss_sdp s)).law h
  case fieldSupplyReturn => exact (SameQueues.of_steady (fieldSupplyReturn_steady ..) (fieldSupplyReturn_sdp ..)).law h
  case capacityEvaluation => exact (SameQueues.of_kept (.evaluate s)).law h
  case meteringInterval => exact (meteringInterval_queues ..).law h
  case resetRelease =>
    simp only [Instr.meaning, Meaning.act, resetRelease]
    split
    · refine startOrCut_queues ?_ _
      exact h.of_blocks rfl rfl
    · exact h.of_blocks rfl rfl
  case powerReturn =>
    refine startOrCut_queues (s := { s with rsv := { s.rsv with mainPower := true } }) ?_ _
    exact h.of_blocks rfl rfl
  case powerLoss => exact h.of_blocks rfl rfl
  case backupFailure => exact h.of_blocks rfl rfl

theorem SameQueues.age (s : State) : SameQueues s s.age :=
  ⟨fun w => by rw [age_saw]; rfl, fun w n e => by rwa [age_saw] at e, fun _ => rfl⟩

theorem queue_ambient : Ambient QueueLaw where
  queue _ _ h := h.of_blocks rfl rfl
  slot _ _ _ _ h := h.of_blocks rfl rfl
  heard s w := (SameQueues.sawFrame s w).law
  sent s w f := (SameQueues.send s w f).law
  aged s := (SameQueues.age s).law

/-- Settles O58: the cuts keep what the law sees (`Kept`), and each command that moves a plan in or out of a queue keeps the
law by its own lemma. -/
theorem stepsKeepTheQueues : Obligations.StepsKeepTheQueues := by
  unfold Obligations.StepsKeepTheQueues
  exact fun s t h => queue_ambient.step act_queues h

end Sys2Proof.Machine
end

section
/-! PROOFS. The pieces finished of a plan stand in their range after every step (R44, R45, R63): only a new layout and a DONE
move them. -/

namespace Sys2Proof.Machine

/-! ## What leaves the pieces as they are -/

/-- One plan record holds the pieces of another, and stands in DRAFT or CHECKED only where the other does. -/
structure SamePieces (p q : Plan) : Prop where
  strips : p.strips = q.strips
  finished : p.finished = q.finished
  pieces : p.piecesFinished = q.piecesFinished
  early : p.state = .draft ∨ p.state = .checked → q.state = .draft ∨ q.state = .checked

/-- Every plan on record holds the pieces it held before. -/
structure PiecesKept (s t : State) : Prop where
  plan : ∀ n p, t.plan? n = some p → ∃ q, s.plan? n = some q ∧ SamePieces p q

theorem SamePieces.refl (p : Plan) : SamePieces p p := ⟨rfl, rfl, rfl, id⟩
theorem SamePieces.trans {p q r : Plan} (h : SamePieces p q) (k : SamePieces q r) : SamePieces p r :=
  ⟨h.strips.trans k.strips, h.finished.trans k.finished, h.pieces.trans k.pieces, k.early ∘ h.early⟩

theorem PiecesKept.refl (s : State) : PiecesKept s s := ⟨fun _ p h => ⟨p, h, .refl p⟩⟩
theorem PiecesKept.after {s t u : State} (k : PiecesKept t u) (h : PiecesKept s t) : PiecesKept s u := by
  refine ⟨fun n p hp => ?_⟩
  obtain ⟨q, hq, e⟩ := k.plan n p hp
  obtain ⟨r, hr, e'⟩ := h.plan n q hq
  exact ⟨r, hr, e.trans e'⟩

theorem PiecesKept.law {s t : State} (h : PiecesKept s t) (k : PieceLaw s) : PieceLaw t := by
  refine ⟨fun n p hp => ?_, fun n p hp hx => ?_⟩ <;> obtain ⟨q, hq, e⟩ := h.plan n p hp
  · have := k.fit n q hq
    simpa only [Plan.unfinished, e.strips, e.finished, e.pieces] using this
  · exact e.pieces.trans (k.none n q hq (e.early hx))

theorem PiecesKept.of_steady {s t : State} (h : Steady s t) : PiecesKept s t := by
  refine ⟨fun n p hp => ?_⟩
  have e := plan?_bare h.plans n
  rw [hp] at e
  obtain ⟨q, hq, hb⟩ := Option.map_eq_some_iff.mp e.symm
  exact ⟨q, hq, (congrArg Plan.strips hb).symm, (congrArg Plan.finished hb).symm, (congrArg Plan.piecesFinished hb).symm,
    by rw [show p.state = q.state from (congrArg Plan.state hb).symm]; exact id⟩

theorem PiecesKept.of_pln {s t : State} (h : t.pln = s.pln) : PiecesKept s t :=
  ⟨fun n p hp => ⟨p, (plan?_congr h n).symm.trans hp, .refl p⟩⟩

theorem PiecesKept.updatePlan (s : State) (n : Nat) {f : Plan → Plan} (hf : ∀ p, (f p).number = p.number)
    (hs : ∀ p, s.plan? n = some p → SamePieces (f p) p) : PiecesKept s (s.updatePlan n f) := by
  refine ⟨fun m p hp => ?_⟩
  rw [updatePlan_plan? s n f m hf] at hp
  split at hp
  · subst m
    obtain ⟨q, hq, rfl⟩ := Option.map_eq_some_iff.mp hp
    exact ⟨q, hq, hs q hq⟩
  · exact ⟨p, hp, .refl p⟩

/-- A plan takes a state that is neither DRAFT nor CHECKED. -/
theorem PiecesKept.setState (s : State) (n : Nat) {x : PlanState} (h : x ≠ .draft) (k : x ≠ .checked) :
    PiecesKept s (s.updatePlan n fun p => { p with state := x }) :=
  .updatePlan s n (fun _ => rfl) fun _ _ => ⟨rfl, rfl, rfl, fun e => (e.elim h k).elim⟩

theorem PiecesKept.leaveQueue (s : State) (w : Saw) (n : Nat) : PiecesKept s (s.leaveQueue w n) :=
  .after (.updatePlan _ n (fun _ => rfl) fun _ _ => ⟨rfl, rfl, rfl, id⟩) (.of_steady (.updateSaw s w fun h => { h with }))

/-! ## A new layout -/

theorem unfinished_fresh (strips : List Strip) :
    ((strips.zip (strips.map fun _ => false)).map fun x => if x.2 then 0 else x.1.pieces.length).sum = pieceCount strips := by
  induction strips with
  | nil => rfl
  | cons t ts ih => simpa [pieceCount] using ih

theorem layoutForm_pieces {kerf : Nat} {strips : List Strip} (h : layoutForm kerf strips = true) : pieceCount strips ≤ 24 := by
  simp only [layoutForm, Bool.and_eq_true, decide_eq_true_eq] at h
  exact h.2

theorem createPlan_pieces {s : State} (h : PieceLaw s) (number job slab kerf : Nat) (strips : List Strip) :
    PieceLaw (createPlan number job slab kerf strips s).2 := by
  unfold createPlan
  split
  · exact h
  case isFalse hc =>
    split
    case h_2 => exact h
    iterate 3 (split; exact h)
    split
    · exact h
    case isFalse hx =>
      have free : findBy Plan.number number s.pln.plans = none := by simpa [State.plan?] using hx
      have form : layoutForm kerf strips = true := by
        simp only [not_or, Bool.not_eq_true', Bool.not_eq_false] at hc
        exact hc.2.2.2
      have pieces := layoutForm_pieces form
      dsimp only [performed]
      have find (n : Nat) (p : Plan)
          (hp : findBy Plan.number n (insertBy Plan.number (newPlan number job slab kerf strips) s.pln.plans) = some p) :
          p = newPlan number job slab kerf strips ∨ s.plan? n = some p := by
        by_cases e : n = number
        · subst n
          exact .inl (Option.some.inj (hp.symm.trans
            (findBy_insertBy_self (r := newPlan number job slab kerf strips) free)))
        · rw [findBy_insertBy_ne (r := newPlan number job slab kerf strips) e] at hp
          exact .inr hp
      refine ⟨fun n p hp => ?_, fun n p hp hx => ?_⟩ <;> obtain rfl | hp := find n p hp
      · exact (Nat.zero_add _).trans_le ((unfinished_fresh strips).trans_le pieces)
      · exact h.fit n p hp
      · rfl
      · exact h.none n p hp hx

theorem revisePlan_pieces {s : State} (h : PieceLaw s) (number kerf : Nat) (strips : List Strip) :
    PieceLaw (revisePlan number kerf strips s).2 := by
  unfold revisePlan
  iterate 2 (split; exact h)
  rename_i p hp
  have revised (hx : p.state = .draft ∨ p.state = .checked) (hf : layoutForm kerf strips = true) (t : State)
      (ht : t.pln = s.pln) : PieceLaw (t.updatePlan number (Plan.revise kerf strips)) := by
    have none := h.none number p hp hx
    have pieces := layoutForm_pieces hf
    have find (n : Nat) (r : Plan) (hr : (t.updatePlan number (Plan.revise kerf strips)).plan? n = some r) :
        r = p.revise kerf strips ∨ s.plan? n = some r := by
      rw [updatePlan_plan? t number (Plan.revise kerf strips) n fun _ => rfl, plan?_congr ht] at hr
      split at hr
      · subst n
        rw [hp] at hr
        cases hr
        exact .inl rfl
      · exact .inr hr
    refine ⟨fun n r hr => ?_, fun n r hr hx => ?_⟩ <;> obtain rfl | hr := find n r hr
    · change p.piecesFinished + _ ≤ 24
      rw [none]
      exact (Nat.zero_add _).trans_le ((unfinished_fresh strips).trans_le pieces)
    · exact h.fit n r hr
    · exact none
    · exact h.none n r hr hx
  split
  · split
    · exact h
    case h_1 hx hf => exact revised (.inl hx) (by simpa using hf) s rfl
  · split
    · exact h
    case h_2 hx hf => exact revised (.inr hx) (by simpa using hf) (s.undoCheck p) rfl
  · exact h

/-! ## The other plan requests -/

theorem checkPlan_pieces (number : Nat) (s : State) : PiecesKept s (checkPlan number s).2 := by
  unfold checkPlan
  split
  · exact .refl s
  case h_2 p hp =>
    split
    · exact .refl s
    case isFalse hx =>
      iterate 5 (split; exact .refl s)
      refine .after (.of_steady (.after (.updateJobs _ _ (chargeOk_addPlanned _)) (.reserve ..)))
        (.updatePlan s _ (fun _ => rfl) fun q hq => ⟨rfl, rfl, rfl, fun _ => .inl ?_⟩)
      rw [(findBy_some hp).2, hp] at hq
      cases hq
      exact not_not.mp hx

theorem releasePlan_pieces (number saw : Nat) (s : State) : PiecesKept s (releasePlan number saw s).2 := by
  unfold releasePlan
  iterate 8 (split; exact .refl s)
  refine .after (.of_steady (.loadHead ..)) (.after (.of_steady (.updateSaw _ _ fun h => { h with })) ?_)
  exact .updatePlan s _ (fun _ => rfl) fun _ _ => ⟨rfl, rfl, rfl, fun e => by simp at e⟩

theorem cancelPlan_pieces (number : Nat) (s : State) : PiecesKept s (cancelPlan number s).2 := by
  unfold cancelPlan
  split
  · exact .refl s
  case h_2 p hp =>
    have undone : PiecesKept s ((s.undoCheck p).updatePlan number fun p => { p with state := .cancelled }) :=
      .after (.setState _ _ (by decide) (by decide)) (.of_steady (.undoCheck ..))
    dsimp only
    split
    · exact .setState s _ (by decide) (by decide)
    · exact undone
    · cases p.saw
      · exact undone
      · exact .after (.of_steady (.cancelLoad ..)) (.after (.leaveQueue ..) undone)
    · exact .refl s

theorem abandonPlan_pieces (number : Nat) (s : State) : PiecesKept s (abandonPlan number s).2 := by
  unfold abandonPlan
  iterate 2 (split; exact .refl s)
  rename_i p _ _
  cases p.saw
  · exact .after (.setState _ _ (by decide) (by decide)) (.of_steady (.writeOff ..))
  · exact .after (.of_steady (.goOnByLink ..)) (.after (.leaveQueue ..) (.after (.setState _ _ (by decide) (by decide))
      (.of_steady (.after (.clearSaw ..) (.writeOff s p)))))

theorem retirePlan_pieces (number : Nat) (s : State) : PiecesKept s (retirePlan number s).2 := by
  unfold retirePlan
  split
  · exact .refl s
  · split
    · refine ⟨fun n p hp => ?_⟩
      change findBy Plan.number n (removeBy Plan.number number s.pln.plans) = some p at hp
      rw [findBy_removeBy] at hp
      split at hp
      · cases hp
      · exact ⟨p, hp, .refl p⟩
    · exact .refl s

theorem closeJob_pieces (number : Nat) (s : State) : PiecesKept s (closeJob number s).2 := by
  unfold closeJob
  iterate 3 (split; exact .refl s)
  rename_i j _ _ _
  refine ⟨fun n p hp => ?_⟩
  have number (p : Plan) : (p.cancelDraft j.plans).number = p.number := by unfold Plan.cancelDraft; split <;> rfl
  change findBy Plan.number n (s.pln.plans.map (Plan.cancelDraft j.plans)) = some p at hp
  rw [findBy_map number] at hp
  obtain ⟨q, hq, rfl⟩ := Option.map_eq_some_iff.mp hp
  refine ⟨q, hq, ?_⟩
  unfold Plan.cancelDraft
  split
  · exact ⟨rfl, rfl, rfl, fun e => by simp at e⟩
  · exact .refl q

/-! ## LOADED and DONE -/

theorem loaded_pieces (w : Saw) (plan : Nat) (s : State) : PiecesKept s (loaded w plan s) := by
  refine .after (.of_steady (.after (.setSawState ..) (.after (.refill ..) (.refill ..))))
    (.after ?_ (.of_steady (.clearLoad s w)))
  unfold State.reportLoad
  split
  · split
    · exact .after (.of_steady (.putOnSaw ..)) (.setState _ _ (by decide) (by decide))
    · exact .refl _
  · exact .refl _

/-- What the strips of a DONE finish is taken from what was left (R63). -/
theorem settleStrips_conserves (passes : List Pass) : ∀ (n : Nat) (strips : List Strip) (finished : List Bool),
    (settleStrips passes n strips finished).2
      + ((strips.zip (settleStrips passes n strips finished).1).map fun x => if x.2 then 0 else x.1.pieces.length).sum
      = ((strips.zip finished).map fun x => if x.2 then 0 else x.1.pieces.length).sum
  | n, t :: ts, f :: fs => by
    have ih := settleStrips_conserves passes (n + 1) ts fs
    simp only [settleStrips, List.zip_cons_cons, List.map_cons, List.sum_cons]
    cases f <;> cases stripCut passes n <;> simp <;> omega
  | _, [], _ => by simp [settleStrips]
  | _, _ :: _, [] => by simp [settleStrips]

theorem finishStrips_pieces {s : State} (h : PieceLaw s) {n : Nat}
    (hx : ∀ p, s.plan? n = some p → p.state ≠ .draft ∧ p.state ≠ .checked) : PieceLaw (s.finishStrips n) := by
  unfold State.finishStrips
  split
  · exact h
  case h_2 p hp =>
    have find {m k : Nat} {r : Plan} {g : Plan → Plan} {a : Job → Job}
        (hr : ((s.updatePlan n g).updateJob k a).plan? m = some r) (hg : ∀ p, (g p).number = p.number) :
        r = g p ∨ s.plan? m = some r := by
      change (s.updatePlan n g).plan? m = some r at hr
      rw [updatePlan_plan? s n g m hg] at hr
      split at hr
      · subst m
        rw [hp] at hr
        cases hr
        exact .inl rfl
      · exact .inr hr
    dsimp only
    refine ⟨fun m r hr => ?_, fun m r hr hs => ?_⟩ <;> obtain rfl | hr := find hr fun _ => rfl
    · have := h.fit n p hp
      have := settleStrips_conserves p.passes 1 p.strips p.finished
      simp only [Plan.unfinished] at *
      omega
    · exact h.fit m r hr
    · exact (hs.elim (hx p hp).1 (hx p hp).2).elim
    · exact h.none m r hr hs

theorem complete_pieces (s : State) (w : Saw) (p : Plan) : PiecesKept s (s.complete w p) := by
  unfold State.complete
  refine .after (.of_steady (.goOn ..)) (.after (.of_steady (.unload ..)) (.after (.leaveQueue ..) ?_))
  have consumed : PiecesKept s ((s.updatePlan p.number fun p => { p with state := .done }).consume p.slab) :=
    .after (.of_steady (.consume ..)) (.setState s _ (by decide) (by decide))
  cases p.derived with
  | none => exact .after (.of_steady (.raise ..)) consumed
  | some d =>
    refine .after ?_ consumed
    dsimp only [Option.elim]
    unfold State.settleRemnant
    split
    · exact .of_steady (.after (.raise ..) (.charge _ _ (chargeOk_stone _)))
    · dsimp only
      split
      · exact .after (.of_steady (.after (.raise ..) (.after (.raise ..) (.charge _ _ (chargeOk_stone _)))))
          (.after (.updatePlan _ _ (fun _ => rfl) fun _ _ => ⟨rfl, rfl, rfl, id⟩) (.of_steady (.createRemnant ..)))
      · exact .of_steady (.after (.raise ..) (.after (.raise ..) (.after (.charge _ _ (chargeOk_stone _)) (.createRemnant ..))))

theorem done_pieces {s : State} (hq : QueueLaw s) (h : PieceLaw s) (w : Saw) : PieceLaw (done w s) := by
  unfold done
  split
  · exact h
  case h_2 p q ha =>
    obtain ⟨hhead, -⟩ := activePass?_some ha
    obtain ⟨n, rest, hn, hp⟩ := headPlan?_eq_some.mp hhead
    have number : p.number = n := (findBy_some hp).2
    have finished : PieceLaw (s.finishPass w p q) := by
      unfold State.finishPass
      refine (PiecesKept.of_steady (.leaveWater Steady.runPass ..)).law ?_
      have closed : Steady s ((((s.updateSaw w fun r => { r with holdTimer := none }).closeSegment w q.length).updateSaw w
          fun r => { r with outstanding := r.outstanding.filter fun o => o.index != q.index, passTime := 0 }).updatePass
          p.number q.index fun q => { q with state := .done, reached := q.length }) :=
        .after (.updatePass ..) (.after (.updateSaw _ w fun h => { h with passTime := Nat.zero_le _ })
          (.after (.closeSegment ..) (.stopTimer s w)))
      refine finishStrips_pieces ((PiecesKept.of_steady closed).law h) fun p' hp' => ?_
      have standing := closed.standing? p.number
      obtain ⟨r, hr, -, hx⟩ := hq.queued w n (hn ▸ List.mem_cons_self)
      rw [standing?_of_plan hp', number, standing?_of_plan hr] at standing
      constructor <;> rintro e <;> simp [Plan.standing, e, hx] at standing
    dsimp only
    split
    · exact (PiecesKept.of_steady (.setSawState ..)).law finished
    · split
      · exact (complete_pieces ..).law finished
      · exact (PiecesKept.of_steady (.after (.setSawState ..) (.stagePass ..))).law finished

/-! ## Starts, and every step -/

theorem coldStart_pieces (s : State) (interlock : Four Bool) (fieldSupply : Bool) :
    PieceLaw (s.coldStart interlock fieldSupply) := ⟨fun _ _ h => (by cases h), fun _ _ h => (by cases h)⟩

theorem startOrCut_pieces {s : State} (h : PieceLaw s) (inputs : Inputs) : PieceLaw (s.startOrCut inputs) := by
  have started : PieceLaw (s.start inputs) := by
    unfold State.start
    dsimp only
    split
    · exact coldStart_pieces ..
    · exact (PiecesKept.of_steady (.warmStart ..)).law ⟨h.fit, h.none⟩
  rcases State.startOrCut_cases s inputs with e | e <;> rw [e]
  · exact started
  · exact ⟨started.fit, started.none⟩

theorem act_pieces (i : Instr) (s : State) (hq : QueueLaw s) (h : PieceLaw s) : PieceLaw ((Instr.meaning i).act s) := by
  cases i
  case readMaterial | readSlab | findSlabs | readRack | readAudit | readPlan | readPassList | readSaw | readContext
    | readBlade | readChannel | readPlant | readJob | unknownRequest =>
    rwa [act_of_reads rfl]
  case createPlan => exact createPlan_pieces h ..
  case revisePlan => exact revisePlan_pieces h ..
  case checkPlan => exact (checkPlan_pieces ..).law h
  case releasePlan => exact (releasePlan_pieces ..).law h
  case cancelPlan => exact (cancelPlan_pieces ..).law h
  case abandonPlan => exact (abandonPlan_pieces ..).law h
  case retirePlan => exact (retirePlan_pieces ..).law h
  case closeJob => exact (closeJob_pieces ..).law h
  case loaded => exact (loaded_pieces ..).law h
  case done => exact done_pieces hq h _
  case wipeStore =>
    simp only [Instr.meaning, Meaning.act, wipeStore]
    split
    · exact h
    · exact coldStart_pieces ..
  case resetRelease =>
    simp only [Instr.meaning, Meaning.act, resetRelease]
    split
    · refine startOrCut_pieces ?_ _
      exact ⟨h.fit, h.none⟩
    · exact ⟨h.fit, h.none⟩
  case powerReturn =>
    refine startOrCut_pieces (s := { s with rsv := { s.rsv with mainPower := true } }) ?_ _
    exact ⟨h.fit, h.none⟩
  case defineMaterial => exact (PiecesKept.of_steady (defineMaterial_steady ..)).law h
  case dropMaterial => exact (PiecesKept.of_steady (dropMaterial_steady ..)).law h
  case createSlab => exact (PiecesKept.of_steady (createSlab_steady ..)).law h
  case amendSlab => exact (PiecesKept.of_steady (amendSlab_steady ..)).law h
  case scrapSlab => exact (PiecesKept.of_steady (scrapSlab_steady ..)).law h
  case retireSlab => exact (PiecesKept.of_steady (retireSlab_steady ..)).law h
  case moveSlab => exact (PiecesKept.of_steady (moveSlab_steady ..)).law h
  case verifySlab => exact (PiecesKept.of_steady (verifySlab_steady ..)).law h
  case startAudit => exact (PiecesKept.of_steady (startAudit_steady ..)).law h
  case endAudit => exact (PiecesKept.of_steady (endAudit_steady s)).law h
  case abortAudit => exact (PiecesKept.of_steady (abortAudit_steady s)).law h
  case configureSaw => exact (PiecesKept.of_steady (configureSaw_steady ..)).law h
  case resumeSaw => exact (PiecesKept.of_steady (resumeSaw_steady ..)).law h
  case addBlade => exact (PiecesKept.of_steady (addBlade_steady ..)).law h
  case amendBlade => exact (PiecesKept.of_steady (amendBlade_steady ..)).law h
  case fitBlade => exact (PiecesKept.of_steady (fitBlade_steady ..)).law h
  case removeBlade => exact (PiecesKept.of_steady (removeBlade_steady ..)).law h
  case retireBlade => exact (PiecesKept.of_steady (retireBlade_steady ..)).law h
  case setChannel => exact (PiecesKept.of_steady (setChannel_steady ..)).law h
  case calBegin => exact (PiecesKept.of_steady (calBegin_steady ..)).law h
  case calPoint => exact (PiecesKept.of_steady (calPoint_steady ..)).law h
  case calEnd => exact (PiecesKept.of_steady (calEnd_steady ..)).law h
  case calAbort => exact (PiecesKept.of_steady (calAbort_steady ..)).law h
  case setPlant => exact (PiecesKept.of_steady (setPlant_steady ..)).law h
  case openJob => exact (PiecesKept.of_steady (openJob_steady ..)).law h
  case amendJob => exact (PiecesKept.of_steady (amendJob_steady ..)).law h
  case retireJob => exact (PiecesKept.of_steady (retireJob_steady ..)).law h
  case readNotices => exact (PiecesKept.of_steady (readNotices_steady s)).law h
  case setNotices => exact (PiecesKept.of_steady (setNotices_steady ..)).law h
  case readState => exact (PiecesKept.of_steady (readState_steady ..)).law h
  case busyRequest => exact (PiecesKept.of_steady (busyRequest_steady ..)).law h
  case replySent => exact (PiecesKept.of_steady (replySent_steady s)).law h
  case badFrame => exact (PiecesKept.of_steady (.setReceiver ..)).law h
  case byteGapTimeout => exact (PiecesKept.of_steady (.setReceiver ..)).law h
  case hello => exact (PiecesKept.of_steady (hello_steady ..)).law h
  case start => exact (PiecesKept.of_steady (start_steady ..)).law h
  case held => exact (PiecesKept.of_steady (held_steady ..)).law h
  case fault => exact (PiecesKept.of_steady (fault_steady ..)).law h
  case status => exact (PiecesKept.of_steady (status_steady ..)).law h
  case sawMessageMalformed => exact (PiecesKept.of_steady (.after (.send ..) (.sawFrame s _))).law h
  case linkSilence => exact (PiecesKept.of_steady (linkSilence_steady ..)).law h
  case holdTimerExpiry => exact (PiecesKept.of_steady (holdTimerExpiry_steady ..)).law h
  case interlockDrop => exact (PiecesKept.of_steady (interlockDrop_steady ..)).law h
  case interlockReturn => exact (PiecesKept.of_steady (.setInterlock ..)).law h
  case channelSample => exact (PiecesKept.of_steady (channelSample_steady ..)).law h
  case graceExpiry => exact (PiecesKept.of_steady (graceExpiry_steady ..)).law h
  case fieldSupplyLoss => exact (PiecesKept.of_steady (fieldSupplyLoss_steady s)).law h
  case fieldSupplyReturn => exact (PiecesKept.of_steady (fieldSupplyReturn_steady ..)).law h
  case capacityEvaluation => exact (PiecesKept.of_steady (.evaluate s)).law h
  case meteringInterval => exact (PiecesKept.of_steady (meteringInterval_steady ..)).law h
  case powerLoss => exact (PiecesKept.of_steady (.goSilent ..)).law h
  case backupFailure => exact (PiecesKept.of_steady (backupFailure_steady s)).law h

theorem piece_ambient : Ambient PieceLaw := .of_steady fun h => (PiecesKept.of_steady h).law

theorem Ambient.and {P Q : State → Prop} (h : Ambient P) (k : Ambient Q) : Ambient fun s => P s ∧ Q s where
  queue s is e := ⟨h.queue s is e.1, k.queue s is e.2⟩
  slot s a b c e := ⟨h.slot s a b c e.1, k.slot s a b c e.2⟩
  heard s w e := ⟨h.heard s w e.1, k.heard s w e.2⟩
  sent s w f e := ⟨h.sent s w f e.1, k.sent s w f e.2⟩
  aged s e := ⟨h.aged s e.1, k.aged s e.2⟩

/-- Settles O60: the figures by what every shared operation does to them (`Steady`), the pieces with the law of the queues,
which says that the plan of a DONE is past its check. -/
theorem stepsKeepTheRanges : Obligations.StepsKeepTheRanges := by
  unfold Obligations.StepsKeepTheRanges
  refine ⟨fun s t => step_keeps_ranges, fun s t hq hp ht => ?_⟩
  exact ((queue_ambient.and piece_ambient).step
    (fun i s h taken => ⟨act_queues i s h.1 taken, act_pieces i s h.1 h.2⟩) ⟨hq, hp⟩ ht).2

end Sys2Proof.Machine
end

section
/-! PROOFS. The water records, the saw states and the supplies under every command (R174 to R184): the terms the water is given
on, the moves of a saw outside the water, and so what every step keeps. -/

namespace Sys2Proof.Machine

/-! ## The law in words of the agreement (R174) -/

/-- The water records and the saw states agree for every saw. -/
abbrev Agreed (s : State) : Prop := Agree (fun _ => False) s

/-- They agree for every saw but one, which stands in no water record. -/
abbrev AgreedBut (w : Saw) (s : State) : Prop := Agree (fun v => False ∨ v = w) s

theorem Agreed.waterLaw {s : State} (h : Agreed s) (hc : s.wau.capacity ≤ s.wau.settings.rating) : WaterLaw s where
  allotted v := h.allotted v id
  permit v := by
    rw [h.permit v id, h.allotted v id]
    exact ⟨fun x => ⟨h.run, x⟩, fun x => x.2⟩
  ordered v := h.ordered v id
  started v := h.started v id
  held v := h.held v id
  orderNodup := h.orderNodup
  lineNodup := h.lineNodup
  granted := h.granted
  capacity := hc

/-- The law speaks of the water records, the saw states and whether the part runs alone. -/
theorem WaterLaw.congr {s t : State} (h : WaterLaw s) (hw : t.wau = s.wau) (hs : ∀ v, t.states v = s.states v)
    (hr : t.running = s.running) : WaterLaw t where
  allotted v := by rw [hw, show (t.saw v).state = (s.saw v).state from hs v]; exact h.allotted v
  permit v := by rw [hw, hr, show (t.saw v).state = (s.saw v).state from hs v]; exact h.permit v
  ordered v := by rw [hw, show (t.saw v).state = (s.saw v).state from hs v]; exact h.ordered v
  started v := by rw [hw, show (t.saw v).state = (s.saw v).state from hs v]; exact h.started v
  held v := by rw [hw, show (t.saw v).state = (s.saw v).state from hs v]; exact h.held v
  orderNodup := hw ▸ h.orderNodup
  lineNodup := hw ▸ h.lineNodup
  granted := hw ▸ h.granted
  capacity := hw ▸ h.capacity

theorem WaterLaw.of_blocks {s t : State} (h : WaterLaw s) (hw : t.wau = s.wau) (hs : t.sdp = s.sdp) (hr : t.rsv = s.rsv) :
    WaterLaw t :=
  h.congr hw (State.states_of_saws hs) (by rw [State.running, hr]; rfl)

/-- The records of the water without an entry agree with saws that stand outside it, whether the part runs or not. -/
theorem WaterLaw.of_reset {s : State} {p : Settings} (hw : s.wau = .reset p) (hs : ∀ v, (s.states v).dry = true) :
    WaterLaw s := by
  have wet (v : Saw) : (s.saw v).state ≠ .cutting ∧ (s.saw v).state ≠ .holding ∧ (s.saw v).state ≠ .held ∧
      (s.saw v).state ≠ .waiting := by
    have hv := hs v
    unfold State.states at hv
    cases h : (s.saw v).state <;> simp [h, SawState.dry] at hv ⊢
  refine ⟨fun v => ?_, fun v => ?_, fun v => ?_, fun v => ?_, fun v => ?_, ?_, ?_, ?_, ?_⟩
  case refine_1 => cases v <;> simp [hw, Admission.reset, Four.all, Four.get, wet]
  case refine_2 => cases v <;> simp [hw, Admission.reset, Four.all, Four.get, wet]
  case refine_8 => simp [hw, Admission.reset, Admission.granted, Four.all]
  all_goals simp [hw, Admission.reset, wet]

/-! ## The terms the water is given on (R167, R173) -/

/-- The capacity and the settings stay: only SET PLANT and an evaluation change them. -/
structure SameTerms (s t : State) : Prop where
  capacity : t.wau.capacity = s.wau.capacity
  settings : t.wau.settings = s.wau.settings

theorem SameTerms.of_wau {s t : State} (h : t.wau = s.wau) : SameTerms s t := ⟨by rw [h], by rw [h]⟩

theorem SameTerms.refl (s : State) : SameTerms s s := ⟨rfl, rfl⟩

theorem SameTerms.trans {s t u : State} (h : SameTerms s t) (g : SameTerms t u) : SameTerms s u :=
  ⟨g.capacity.trans h.capacity, g.settings.trans h.settings⟩

/-- The last of two changes first. -/
theorem SameTerms.after {s t u : State} (g : SameTerms t u) (h : SameTerms s t) : SameTerms s u := h.trans g

/-- A change of the entries, the order, the line and the permits. -/
theorem SameTerms.withWau (s : State) (f : Admission → Admission) (hc : (f s.wau).capacity = s.wau.capacity := by rfl)
    (hs : (f s.wau).settings = s.wau.settings := by rfl) : SameTerms s (s.withWau f) := ⟨hc, hs⟩

section

variable {pass : State → State} (hp : ∀ s, SameTerms s (pass s))
include hp

theorem SameTerms.leaveWater (s : State) (w : Saw) : SameTerms s (s.leaveWater pass w) := by
  unfold State.leaveWater
  split
  · exact .trans (.withWau s (Admission.release w)) (hp _)
  · exact .withWau s (Admission.endHold w)
  · exact .refl s

theorem SameTerms.faultInCut (s : State) (w : Saw) (p : Nat) (c : Cause) : SameTerms s (s.faultInCut pass w p c) := by
  unfold State.faultInCut
  dsimp only
  generalize hs : ((s.updateSaw w fun r => { r with holdTimer := none }).reportReached w p).closeSegment w p = closed
  have hclosed : SameTerms s closed := .of_wau (by simp [← hs])
  exact (hclosed.trans (.leaveWater hp closed w)).trans (.of_wau (by simp))

theorem SameTerms.settleInterlock (s : State) (w : Saw) : SameTerms s (s.settleInterlock pass w) := by
  unfold State.settleInterlock
  split
  · exact .refl s
  · exact .faultInCut hp ..

end

theorem SameTerms.admissionPass (n : Nat) (s : State) : SameTerms s (admissionPass n s) := by
  induction n generalizing s with
  | zero => exact .refl s
  | succ n ih =>
    unfold Machine.admissionPass
    split
    · exact .refl s
    · next e es _ =>
      split
      · have hadmitted : SameTerms s (((s.withWau fun a => { a with line := es }).admitSaw e.saw).enterCut e.saw) :=
          ⟨by simp [State.admitSaw, Admission.admitSaw], by simp [State.admitSaw, Admission.admitSaw]⟩
        exact (hadmitted.trans (.settleInterlock ih _ _)).trans (ih _)
      · exact .refl s

theorem SameTerms.runPass (s : State) : SameTerms s s.runPass := .admissionPass _ s

theorem SameTerms.removeFromLine (s : State) (w : Saw) : SameTerms s (s.removeFromLine w) := by
  unfold State.removeFromLine
  split
  · exact .trans (.withWau s (Admission.remove w)) (.runPass _)
  · exact .refl s

theorem SameTerms.revokeDown (c : Nat) (ws : List Saw) (s : State) : SameTerms s (revokeDown c ws s) := by
  induction ws generalizing s with
  | nil => exact .refl s
  | cons w ws ih =>
    unfold Machine.revokeDown
    split
    · exact .refl s
    split
    · exact .trans (.trans (.withWau s (Admission.revoke w)) (.of_wau (by simp))) (ih _)
    · exact ih s

/-- What a command that leaves the terms does keeps the law of a running part when it keeps the agreement. -/
theorem WaterLaw.of_agreed {s t : State} (h : WaterLaw s) (ha : Agreed t) (ht : SameTerms s t) : WaterLaw t :=
  ha.waterLaw (by rw [ht.capacity, ht.settings]; exact h.capacity)

/-! ## A saw that moves outside the water -/

/-- Only the state of one saw may change, of what the water law speaks of. -/
structure Aside (w : Saw) (s t : State) : Prop where
  wau : t.wau = s.wau
  rsv : t.rsv = s.rsv
  states : ∀ v, v ≠ w → t.states v = s.states v

theorem Aside.trans {w : Saw} {s t u : State} (h : Aside w s t) (g : Aside w t u) : Aside w s u :=
  ⟨g.wau.trans h.wau, g.rsv.trans h.rsv, fun v hv => (g.states v hv).trans (h.states v hv)⟩

/-- The last of two changes first. -/
theorem Aside.after {w : Saw} {s t u : State} (g : Aside w t u) (h : Aside w s t) : Aside w s u := h.trans g

theorem Aside.refl (w : Saw) (s : State) : Aside w s s := ⟨rfl, rfl, fun _ _ => rfl⟩

/-- No state changes. -/
theorem Aside.of_states {s t : State} (w : Saw) (hw : t.wau = s.wau) (hr : t.rsv = s.rsv)
    (hs : ∀ v, t.states v = s.states v) : Aside w s t := ⟨hw, hr, fun v _ => hs v⟩

theorem Aside.send (s : State) (w : Saw) (f : Frame) : Aside w s (s.send w f) := ⟨rfl, rfl, fun _ _ => rfl⟩

theorem Aside.updateSaw (s : State) (w : Saw) (f : SawRec → SawRec) : Aside w s (s.updateSaw w f) :=
  ⟨rfl, rfl, fun v hv => by rw [State.states_updateSaw, if_neg hv]⟩

theorem Aside.loadHead (s : State) (w : Saw) : Aside w s (s.loadHead w) := by
  unfold State.loadHead
  split
  case isFalse => exact .refl w s
  split
  · exact .refl w s
  split
  case isFalse => exact .refl w s
  split
  · exact .refl w s
  · exact .after (.updateSaw _ w _) (.send s w _)

theorem loadHead_dry {s : State} {w : Saw} (h : (s.states w).dry = true) : ((s.loadHead w).states w).dry = true := by
  unfold State.loadHead
  split
  case isFalse => exact h
  split
  · exact h
  split
  case isFalse => exact h
  split
  · exact h
  · rw [State.states_updateSaw, if_pos rfl]
    rfl

theorem Aside.goOn (s : State) (w : Saw) : Aside w s (s.goOn w) := .trans (.updateSaw s w _) (.loadHead _ w)

theorem goOn_dry (s : State) (w : Saw) : ((s.goOn w).states w).dry = true := loadHead_dry (by simp; rfl)

theorem Aside.goOnByLink (s : State) (w : Saw) : Aside w s (s.goOnByLink w) := by
  unfold State.goOnByLink
  split
  · exact .goOn s w
  · exact .updateSaw s w _

theorem goOnByLink_dry (s : State) (w : Saw) : ((s.goOnByLink w).states w).dry = true := by
  unfold State.goOnByLink
  split
  · exact goOn_dry s w
  · simp; rfl

theorem Aside.wake (s : State) (w : Saw) : Aside w s (s.wake w) := by
  unfold State.wake
  dsimp only
  split
  · exact .after (.updateSaw _ w _) (.after (.updateSaw _ w _) (.updateSaw s w _))
  · exact .after (.loadHead _ w) (.updateSaw s w _)

theorem wake_dry (s : State) (w : Saw) : ((s.wake w).states w).dry = true := by
  unfold State.wake
  dsimp only
  split
  · simp; rfl
  · exact loadHead_dry (by simp; rfl)

/-- A saw that stands in no water record takes a state outside the water. -/
theorem AgreedBut.dryUp {s t : State} {w : Saw} (h : AgreedBut w s) (ht : Aside w s t) (hx : (t.states w).dry = true) :
    Agreed t := by
  refine (Agree.settle h (.inr rfl) hx ht.wau (fun v => ?_) ht.rsv).of_iff fun v => by simp
  split
  · next hv => rw [hv]
  · next hv => exact ht.states v hv

/-- A saw outside the water stays outside it. -/
theorem Agreed.aside {s t : State} {w : Saw} (h : Agreed s) (hs : (s.states w).dry = true) (ht : Aside w s t)
    (hx : (t.states w).dry = true) : Agreed t := AgreedBut.dryUp (h.isolate hs) ht hx

theorem Agreed.loadHead {s : State} (h : Agreed s) (w : Saw) : Agreed (s.loadHead w) := by
  by_cases hx : (s.states w).dry = true
  · exact h.aside hx (.loadHead s w) (loadHead_dry hx)
  · have hidle : ¬((s.saw w).link = .up ∧ (s.saw w).state = .idle) := fun ⟨_, e⟩ => hx (by rw [State.states, e]; rfl)
    rwa [State.loadHead, if_neg hidle]

end Sys2Proof.Machine
end

section
/-! PROOFS. The agreement of the water records with the saw states under each command of a running part, and so the law of the
water under every step (R174 to R184). -/

namespace Sys2Proof.Machine

/-! ## The saw's way through the water -/

section

variable {s : State} {w : Saw}

/-- The last step of a stop: the saw, out of the water, is FAULTED. -/
theorem AgreedBut.setSawState (h : AgreedBut w s) {x : SawState} (hx : x.dry = true) : Agreed (s.setSawState w x) :=
  h.dryUp (.updateSaw s w _) (by simpa using hx)

theorem Agreed.setSawState (h : Agreed s) (hs : (s.states w).dry = true) {x : SawState} (hx : x.dry = true) :
    Agreed (s.setSawState w x) :=
  h.aside hs (.updateSaw s w _) (by simpa using hx)

theorem Agreed.faultInCut (h : Agreed s) (hx : (s.saw w).state = .cutting ∨ (s.saw w).state = .holding) (p : Nat) (c : Cause) :
    Agreed (s.faultInCut State.runPass w p c) :=
  Agree.faultInCut runPass_agree h id hx p c

/-- A saw outside the water is admitted where it fits, and meets its interlock. -/
theorem Agreed.admitted (h : Agreed s) (hs : (s.states w).dry = true) (hf : s.fits w = true) {enter : State → State}
    (hw : ∀ t : State, (enter t).wau = t.wau) (hr : ∀ t : State, (enter t).rsv = t.rsv)
    (hc : ∀ (t : State) (v : Saw), (enter t).states v = if v = w then .cutting else t.states v) :
    Agreed ((enter (s.admitSaw w)).settleInterlock State.runPass w) := by
  have hadmitted : Agree (fun v => (False ∨ v = w) ∧ v ≠ w) (enter (s.admitSaw w)) :=
    (h.isolate hs).admitSaw (.inr rfl) (by simpa [State.fits] using hf) (hw _) (fun v => hc _ v) (hr _)
  have hagreed : Agreed (enter (s.admitSaw w)) := hadmitted.of_iff fun v => by simp
  exact hagreed.settleInterlock runPass_agree id (by rw [hc, if_pos rfl])

theorem Agreed.enqueue {t : State} (h : Agreed s) (hs : (s.states w).dry = true) (hw : t.wau = Admission.enqueue w s.wau)
    (hx : ∀ v, t.states v = if v = w then .waiting else s.states v) (hr : t.rsv = s.rsv) : Agreed t :=
  ((h.isolate hs).enqueue (.inr rfl) hw hx hr).of_iff fun v => by simp

theorem Agreed.seekResume (h : Agreed s) (hs : (s.states w).dry = true) : Agreed (s.seekResume w) := by
  unfold State.seekResume
  split
  · next hfits =>
    exact h.admitted hs (Bool.and_eq_true_iff.1 hfits).2 (enter := fun t => t.resumeCut w) (by simp) (by simp) (by simp)
  · exact h.enqueue hs rfl (fun v => by simp) rfl

theorem SameTerms.seekResume (s : State) (w : Saw) : SameTerms s (s.seekResume w) := by
  unfold State.seekResume
  split
  · refine .after (.settleInterlock .runPass _ w) ?_
    exact ⟨by simp [State.admitSaw, Admission.admitSaw], by simp [State.admitSaw, Admission.admitSaw]⟩
  · exact ⟨rfl, rfl⟩

theorem Agreed.start (h : Agreed s) (hs : (s.states w).dry = true) (tag : Nat) : Agreed (Machine.start w tag s) := by
  unfold Machine.start
  split
  · next hfits =>
    exact h.admitted hs (Bool.and_eq_true_iff.1 hfits).2 (enter := fun t => t.grantGo w) (by simp) (by simp) (by simp)
  · exact h.enqueue hs rfl (fun v => by simp) rfl

theorem SameTerms.start (s : State) (w : Saw) (tag : Nat) : SameTerms s (Machine.start w tag s) := by
  unfold Machine.start
  split
  · refine .after (.settleInterlock .runPass _ w) ?_
    exact ⟨by simp [State.admitSaw, Admission.admitSaw], by simp [State.admitSaw, Admission.admitSaw]⟩
  · exact ⟨rfl, rfl⟩

/-! ## The link (R90, R91, R122) -/

theorem Aside.dropWindow (s : State) (w : Saw) : Aside w s (s.dropWindow w) :=
  .of_states w (by simp) (by simp) (by simp)

theorem Aside.goOffline (s : State) (w : Saw) : Aside w s (s.goOffline w) :=
  .after (.updateSaw _ w _) (.dropWindow s w)

theorem goOffline_dry (s : State) (w : Saw) : ((s.goOffline w).states w).dry = true := by
  rw [State.goOffline, State.states_updateSaw, if_pos rfl]
  rfl

theorem Aside.linkContext (s : State) (w : Saw) : Aside w s (s.linkContext w) :=
  ⟨by simp, by simp, fun v hv => by simp [State.linkContext, hv]⟩

theorem linkContext_dry (s : State) (w : Saw) : ((s.linkContext w).states w).dry = true := by
  simp [State.linkContext, SawState.dry]

theorem Agreed.stopCut (h : Agreed s) (hx : (s.saw w).state = .cutting ∨ (s.saw w).state = .holding) :
    AgreedBut w (s.stopCut w) := by
  unfold State.stopCut
  dsimp only
  generalize hs : (s.updateSaw w fun r => { r with holdTimer := none }).closeSegment w
    ((s.updateSaw w fun r => { r with holdTimer := none }).reached w) = closed
  have hstates (v : Saw) : closed.states v = s.states v := by
    rw [← hs, State.states_closeSegment]
    exact State.states_updateSaw_keep s w (fun r => { r with holdTimer := none }) (fun _ => rfl) v
  have hclosed : Agreed closed := h.congr (by simp [← hs]) hstates (by simp [← hs])
  exact hclosed.leaveWater runPass_agree id (by rwa [hstates])

theorem SameTerms.stopCut (s : State) (w : Saw) : SameTerms s (s.stopCut w) := by
  unfold State.stopCut
  exact .after (.leaveWater .runPass _ w) (.of_wau (by simp))

theorem Agreed.loseLink (h : Agreed s) (w : Saw) : Agreed (s.loseLink w) := by
  unfold State.loseLink
  dsimp only
  have hdown : Agreed ((s.updateSaw w fun r => { r with link := .down }).raise .sawLink) :=
    (h.updateSaw w fun r => { r with link := .down }).congr rfl (fun _ => rfl) rfl
  generalize (s.updateSaw w fun r => { r with link := .down }).raise .sawLink = down at hdown
  have outside (hs : (down.states w).dry = true) : Agreed (down.goOffline w) :=
    hdown.aside hs (.goOffline down w) (goOffline_dry down w)
  have removed (hs : down.states w ≠ .cutting ∧ down.states w ≠ .holding) : AgreedBut w (down.removeFromLine w) :=
    hdown.removeFromLine hs
  split
  case h_1 => exact hdown
  case h_2 | h_3 | h_4 => exact outside (by simp_all [State.states, SawState.dry])
  case h_5 => exact (removed (by simp_all [State.states])).dryUp (.goOffline _ w) (goOffline_dry _ w)
  case h_6 hx =>
    exact Agree.updateSaw (hdown.congr (by simp) (by simp) (by simp)) w fun r => { r with pendingLoad := none }
  case h_7 hx => exact (hdown.stopCut (.inl hx)).dryUp (.linkContext _ w) (linkContext_dry _ w)
  case h_8 hx => exact (hdown.stopCut (.inr hx)).dryUp (.linkContext _ w) (linkContext_dry _ w)
  case h_9 => exact (removed (by simp_all [State.states])).dryUp (.linkContext _ w) (linkContext_dry _ w)

theorem SameTerms.loseLink (s : State) (w : Saw) : SameTerms s (s.loseLink w) := by
  unfold State.loseLink
  dsimp only
  refine .trans (.of_wau rfl) (t := (s.updateSaw w fun r => { r with link := .down }).raise .sawLink) ?_
  generalize (s.updateSaw w fun r => { r with link := .down }).raise .sawLink = down
  split
  case h_1 => exact .refl down
  case h_2 | h_3 | h_4 => exact .of_wau (by simp)
  case h_5 => exact .after (.of_wau (by simp)) (.removeFromLine down w)
  case h_6 => exact .of_wau (by simp)
  case h_7 | h_8 => exact .after (.of_wau (by simp)) (.stopCut down w)
  case h_9 => exact .after (.of_wau (by simp)) (.removeFromLine down w)

theorem Agreed.linkUp (h : Agreed s) (w : Saw) : Agreed (s.linkUp w) := by
  unfold State.linkUp
  dsimp only
  have hup : Agreed ((s.updateSaw w fun r => { r with link := .up }).raise .sawLink) :=
    (h.updateSaw w fun r => { r with link := .up }).congr rfl (fun _ => rfl) rfl
  split
  · next hx => exact hup.aside (by rw [State.states, hx]; rfl) (.wake _ w) (wake_dry _ w)
  · exact hup

end

/-! ## Requests -/

section

variable {s : State}

/-- A change of one saw's record that keeps its state keeps the law. -/
theorem WaterLaw.updateSaw (h : WaterLaw s) (w : Saw) (f : SawRec → SawRec) (hf : ∀ r, (f r).state = r.state) :
    WaterLaw (s.updateSaw w f) :=
  h.congr rfl (State.states_updateSaw_keep s w f hf) rfl

theorem releasePlan_water (h : WaterLaw s) (hr : s.running = true) (number saw : Nat) :
    WaterLaw (releasePlan number saw s).2 := by
  unfold releasePlan
  split
  · exact h
  split
  · exact h
  iterate 2 (split; exact h)
  split
  · exact h
  iterate 3 (split; exact h)
  dsimp only [performed]
  refine h.of_agreed (Agreed.loadHead ?_ _) (.of_wau (by simp))
  exact (h.agree hr).congr rfl (State.states_updateSaw_keep _ _ (fun r => { r with queue := r.queue ++ [number] }) fun _ => rfl)
    rfl

theorem Agreed.cancelLoad (h : Agreed s) (w : Saw) (n : Nat) : Agreed (s.cancelLoad w n) := by
  unfold State.cancelLoad
  split
  case isFalse => exact h
  have hunloaded : Agreed ((s.unload w n).updateSaw w fun r => { r with pendingLoad := none }) :=
    Agree.updateSaw (h.congr (by simp) (by simp) (by simp)) w fun r => { r with pendingLoad := none }
  dsimp only
  split
  · next hx => exact hunloaded.aside (by rw [State.states, hx]; rfl) (.goOn _ w) (goOn_dry _ w)
  · exact hunloaded

theorem cancelPlan_water (h : WaterLaw s) (hr : s.running = true) (number : Nat) : WaterLaw (cancelPlan number s).2 := by
  unfold cancelPlan
  split
  · exact h
  next p _ =>
  dsimp only
  split
  case h_1 => exact h.of_blocks rfl rfl rfl
  case h_2 => exact h.of_blocks (State.undoCheck_wau s p) (State.undoCheck_sdp s p) (State.undoCheck_rsv s p)
  case h_3 =>
    have hcancelled : Agreed ((s.undoCheck p).updatePlan number fun p => { p with state := .cancelled }) :=
      (h.agree hr).congr (State.undoCheck_wau s p) (State.states_of_saws (State.undoCheck_sdp s p)) (State.undoCheck_rsv s p)
    have hwau : ((s.undoCheck p).updatePlan number fun p => { p with state := .cancelled }).wau = s.wau :=
      State.undoCheck_wau s p
    dsimp only [performed]
    cases p.saw with
    | none => exact h.of_agreed hcancelled (.of_wau hwau)
    | some w =>
      refine h.of_agreed ?_ (.of_wau (t := State.cancelLoad _ w number) (by simp))
      exact Agreed.cancelLoad (hcancelled.congr (by simp) (by simp) (by simp)) w number
  case h_4 => exact h

theorem Agreed.clearSaw {w : Saw} (h : Agreed s) (hx : (s.saw w).state.inCut ≠ true) (n : Nat) : AgreedBut w (s.clearSaw w n) := by
  have hout : s.states w ≠ .cutting ∧ s.states w ≠ .holding := not_or.1 (SawState.inCut_iff.not.1 hx)
  unfold State.clearSaw
  dsimp only
  refine (h.removeFromLine hout).congr (by simp) (fun v => ?_) (by simp)
  rw [State.states_unload]
  exact State.states_updateSaw_keep _ w (fun r => { r with context := none, outstanding := [], pendingLoad := none, passTime := 0 })
    (fun _ => rfl) v

theorem SameTerms.clearSaw (s : State) (w : Saw) (n : Nat) : SameTerms s (s.clearSaw w n) :=
  .trans (.removeFromLine s w) (.of_wau (by simp [State.clearSaw]))

theorem abandonPlan_water (h : WaterLaw s) (hr : s.running = true) (number : Nat) : WaterLaw (abandonPlan number s).2 := by
  unfold abandonPlan
  split
  · exact h
  next p _ =>
  split
  · exact h
  next hx =>
  have hwritten : Agreed (s.writeOff p) :=
    (h.agree hr).congr (by simp) (State.states_of_saws (by simp)) (by simp)
  dsimp only [performed]
  cases hsaw : p.saw with
  | none => exact h.of_agreed (hwritten.congr rfl (fun _ => rfl) rfl) (.of_wau (State.writeOff_wau s p))
  | some w =>
    have hout : ((s.writeOff p).saw w).state.inCut ≠ true := by
      rw [show (s.writeOff p).saw w = s.saw w by simp [State.saw]]
      simpa [hsaw] using (not_or.1 hx).2
    have hcleared := hwritten.clearSaw hout number
    dsimp only [Option.elim]
    refine h.of_agreed ?_ ?_
    · refine hcleared.dryUp (.after (.goOnByLink _ w) ?_) (goOnByLink_dry _ w)
      exact .of_states w (by simp) (by simp) (by simp)
    · exact .after (.of_wau (by simp)) (.after (.clearSaw (s.writeOff p) w number) (.of_wau (by simp)))

theorem resumeSaw_water (h : WaterLaw s) (hr : s.running = true) (saw : Nat) : WaterLaw (resumeSaw saw s).2 := by
  unfold resumeSaw
  split
  · exact h
  next w _ =>
  dsimp only
  split
  · exact h
  next c _ =>
  split
  · exact h
  next hx =>
  iterate 2 (split; exact h)
  dsimp only [performed, State.resumeSaw]
  have hagreed : Agreed (s.updateSaw w fun r => { r with context := none }) := (h.agree hr).updateSaw w _
  have hdry : ((s.updateSaw w fun r => { r with context := none }).states w).dry = true := by
    rw [State.states_updateSaw, if_pos rfl, Decidable.not_not.1 (not_or.1 hx).1]
    rfl
  split
  · exact h.of_agreed (hagreed.seekResume hdry) (.after (.seekResume _ w) (.of_wau rfl))
  · unfold State.resumeNormal
    split
    · exact h.of_agreed (hagreed.setSawState hdry rfl) (.of_wau rfl)
    · exact h.of_agreed (hagreed.aside hdry (.goOn _ w) (goOn_dry _ w)) (.of_wau (by simp))

end

end Sys2Proof.Machine
end

section
/-! PROOFS. The agreement of the water records with the saw states under the saws' messages, the events and the starts, and so the
law of the water under every step (R174 to R184). -/

namespace Sys2Proof.Machine

/-! ## Messages and events of a saw -/

section

variable {s : State}

theorem hello_water (h : WaterLaw s) (hr : s.running = true) (w : Saw) (maxFeed : Nat) : WaterLaw (hello w maxFeed s) := by
  have hgreeted : Agreed (s.greeted w maxFeed) := greeted_agree (h.agree hr) maxFeed
  have hterms : SameTerms s (s.greeted w maxFeed) := .of_wau rfl
  cases hl : (s.saw w).link with
  | down =>
    rw [hello_down hl]
    exact h.of_agreed (hgreeted.linkUp w) (.after (.of_wau (by simp)) hterms)
  | up =>
    rw [hello_up hl]
    exact h.of_agreed ((hgreeted.loseLink w).linkUp w) (.after (.of_wau (by simp)) (hterms.trans (.loseLink _ w)))

theorem linkSilence_water (h : WaterLaw s) (hr : s.running = true) (w : Saw) : WaterLaw (linkSilence w s) := by
  unfold linkSilence
  split
  · refine h.of_agreed (Agreed.loseLink ?_ w) (.after (.loseLink _ w) (.of_wau rfl))
    exact (h.agree hr).updateSaw w fun r => { r with heartbeat := max r.heartbeat Config.silenceAge }
  · exact h

theorem loaded_water (h : WaterLaw s) (hr : s.running = true) {w : Saw} {plan : Nat} (hc : checkLoaded w plan s = none) :
    WaterLaw (loaded w plan s) := by
  have hloading : s.states w = .loading := by
    unfold checkLoaded at hc
    split at hc
    · cases hc
    split at hc
    · cases hc
    · next hx => exact Decidable.not_not.1 hx
  unfold loaded
  dsimp only
  refine h.of_agreed (Agreed.aside (w := w) (h.agree hr) (by rw [hloading]; rfl) ⟨by simp, by simp, fun v hv => ?_⟩ ?_) (.of_wau (by simp))
  · rw [State.states_setSawState, if_neg hv]
    simp only [State.states_refill]
    rw [State.states_of_saws (State.reportLoad_sdp ..), State.states_updateSaw, if_neg hv]
  · rw [State.states_setSawState, if_pos rfl]
    rfl

theorem start_water (h : WaterLaw s) (hr : s.running = true) {w : Saw} {tag : Nat} (hc : checkStart w tag s = none) :
    WaterLaw (start w tag s) := by
  have hprimed : s.states w = .primed := by
    unfold checkStart at hc
    dsimp only at hc
    split at hc
    · cases hc
    · next hx => exact Decidable.not_not.1 hx
  exact h.of_agreed (Agreed.start (h.agree hr) (by rw [hprimed]; rfl) tag) (.start s w tag)

theorem held_water (h : WaterLaw s) (hr : s.running = true) {w : Saw} {tag position : Nat} (hc : checkHeld w tag s = none) :
    WaterLaw (held w position s) := by
  have hholding : s.states w = .holding := by
    unfold checkHeld at hc
    split at hc
    · cases hc
    · next hx => exact Decidable.not_not.1 (not_or.1 hx).1
  unfold held
  dsimp only
  generalize hs : (((s.updateSaw w fun r => { r with holdTimer := none }).reportReached w position).closeSegment w
    position).writeContext w .hold none 0 = stopped
  have hwau : stopped.wau = s.wau := by simp [← hs]
  have hagreed : Agreed stopped := by
    refine (h.agree hr).congr hwau (fun v => ?_) (by simp [← hs])
    simp only [← hs, State.states_writeContext, State.states_closeSegment, State.states_reportReached]
    exact State.states_updateSaw_keep s w (fun r => { r with holdTimer := none }) (fun _ => rfl) v
  have hstates : stopped.states w = .holding := by
    rw [← hholding, ← hs]
    simp only [State.states_writeContext, State.states_closeSegment, State.states_reportReached]
    exact State.states_updateSaw_keep s w (fun r => { r with holdTimer := none }) (fun _ => rfl) w
  refine h.of_agreed (runPass_agree _ _ (hagreed.holdComplete id hstates rfl (fun v => ?_) rfl)) ?_
  · rw [State.states_withWau, State.states_raise, State.states_setSawState]
  · refine .after (.runPass _) (.after (.withWau _ (Admission.holdComplete w)) (.of_wau ?_))
    simpa using hwau

theorem done_water (h : WaterLaw s) (hr : s.running = true) {w : Saw} {tag : Nat} (hc : checkDone w tag s = none) :
    WaterLaw (done w s) := by
  have hcut : (s.saw w).state = .cutting ∨ (s.saw w).state = .holding := by
    unfold checkDone at hc
    dsimp only at hc
    iterate 2 (split at hc; cases hc)
    split at hc
    · cases hc
    · next hx => exact SawState.inCut_iff.1 (by simpa using hx)
  unfold done
  split
  · exact h
  next p q _ =>
  dsimp only
  have hended : Agreed (s.passEnded w p q) := passEnded_agree (h.agree hr)
  have hfinished : AgreedBut w (s.finishPass w p q) :=
    Agree.leaveWater (s := s.passEnded w p q) runPass_agree hended id (by rwa [passEnded_states])
  have hterms : SameTerms s (s.finishPass w p q) :=
    .trans (.of_wau (passEnded_wau (p := p) (q := q))) (.leaveWater .runPass (s.passEnded w p q) w)
  split
  · exact h.of_agreed (hfinished.setSawState rfl) (hterms.trans (.of_wau rfl))
  split
  · next p' _ _ =>
    refine h.of_agreed (hfinished.dryUp ?_ (goOn_dry _ w)) (hterms.trans (.of_wau (by simp)))
    refine .after (.goOn _ w) (.of_states w ?_ ?_ fun v => ?_)
    · cases p'.derived <;> simp
    · cases p'.derived <;> simp
    · simp only [State.states_unload, State.states_leaveQueue]
      refine State.states_of_saws ?_ v
      cases p'.derived <;> simp
  · refine h.of_agreed (hfinished.dryUp ?_ (by simp [SawState.dry])) (hterms.trans (.of_wau (by simp)))
    exact .after (.updateSaw _ w _) (.of_states w (by simp) (by simp) (by simp))

theorem SameTerms.fault (s : State) (w : Saw) (p : Nat) (c : Cause) : SameTerms s (s.faultInCut State.runPass w p c) :=
  .faultInCut .runPass s w p c

theorem Aside.faultOutside (s : State) (w : Saw) (c : Cause) : Aside w s (s.faultOutside w c) :=
  ⟨rfl, rfl, fun v hv => by simp [State.faultOutside, hv]⟩

theorem faultOutside_dry (s : State) (w : Saw) (c : Cause) : ((s.faultOutside w c).states w).dry = true := by
  simp [State.faultOutside, SawState.dry]

theorem fault_water (h : WaterLaw s) (hr : s.running = true) (w : Saw) (tag : Option Nat) (position : Nat) (c : Cause) :
    WaterLaw (fault w tag position c s) := by
  have hagreed : Agreed s := h.agree hr
  have outside (hs : (s.states w).dry = true) : WaterLaw (s.faultOutside w c) :=
    h.of_agreed (hagreed.aside hs (.faultOutside s w c) (faultOutside_dry s w c)) (.of_wau rfl)
  have removed (hs : s.states w ≠ .cutting ∧ s.states w ≠ .holding) : AgreedBut w (s.removeFromLine w) :=
    hagreed.removeFromLine hs
  unfold fault
  split
  case h_1 hx => exact h.of_agreed (Agreed.faultInCut hagreed (.inl hx) _ c) (.fault ..)
  case h_2 hx => exact h.of_agreed (Agreed.faultInCut hagreed (.inr hx) _ c) (.fault ..)
  case h_3 | h_4 | h_5 => exact outside (by simp_all [State.states, SawState.dry])
  case h_6 =>
    exact h.of_agreed ((removed (by simp_all [State.states])).dryUp (.faultOutside _ w c) (faultOutside_dry _ w c))
      (.trans (.removeFromLine s w) (.of_wau rfl))
  case h_7 =>
    refine h.of_agreed ((removed (by simp_all [State.states])).dryUp ?_ (by simp [SawState.dry]))
      (.trans (.removeFromLine s w) (.of_wau rfl))
    exact ⟨rfl, rfl, fun v hv => by simp [hv, State.states_updateSaw]⟩
  case h_8 =>
    exact (h.updateSaw w (fun r => { r with context := r.context.map (Context.faultAgain c) }) fun _ => rfl).of_blocks
      rfl rfl rfl
  case h_9 => exact h

theorem interlockDrop_water (h : WaterLaw s) (hr : s.running = true) (w : Saw) : WaterLaw (interlockDrop w s) := by
  unfold interlockDrop
  split
  case isFalse => exact h
  dsimp only
  split
  · next hx =>
    refine h.of_agreed (Agreed.faultInCut ((h.agree hr).updateSaw w _) ?_ _ _) (.after (.fault ..) (.of_wau rfl))
    simpa [State.saw_updateSaw_same] using SawState.inCut_iff.1 hx
  · exact h.updateSaw w _ fun _ => rfl

theorem holdTimerExpiry_water (h : WaterLaw s) (hr : s.running = true) (w : Saw) : WaterLaw (holdTimerExpiry w s) := by
  unfold holdTimerExpiry
  split
  case h_2 => exact h
  next hx =>
  dsimp only
  have htimed : Agreed (s.updateSaw w fun r => { r with holdTimer := none }) := (h.agree hr).updateSaw w _
  have hholding : (s.updateSaw w fun r => { r with holdTimer := none }).states w = .holding := by
    rw [State.states_updateSaw, if_pos rfl]
    exact hx
  generalize ht : (s.updateSaw w fun r => { r with holdTimer := none }) = timed at htimed hholding
  have hterms : SameTerms s timed := .of_wau (by rw [← ht]; rfl)
  have hended : AgreedBut w (timed.withWau (Admission.endHold w)) :=
    htimed.leave id (.inr hholding) (htimed.endHold_eq id hholding) (fun _ _ => rfl) rfl
  refine h.of_agreed (hended.dryUp ⟨by simp, by simp, fun v hv => by simp [hv]⟩ (by simp [SawState.dry])) ?_
  exact .after (.of_wau (by simp)) (hterms.trans (.withWau timed (Admission.endHold w)))

end

/-! ## The capacity (R170 to R173) -/

theorem levelFactor_le (p : Settings) (x : LevelState) (r : Reading) : levelFactor p x r ≤ 100 := by
  unfold levelFactor
  split
  · split <;> decide
  · decide

theorem turbidityFactor_le (p : Settings) (r : Reading) : turbidityFactor p r ≤ 100 := by
  unfold turbidityFactor
  split
  · split
    · decide
    · split <;> decide
  · decide

theorem sumpFactor_le (p : Settings) (r : Reading) : sumpFactor p r ≤ 100 := by
  unfold sumpFactor
  split
  · split <;> decide
  · decide

/-- The capacity an evaluation derives is at most the rating, each factor being at most 100. -/
theorem derived_le_rating (r0 r1 r2 : Reading) (a : Admission) : (a.observe r0 r1 r2).derived ≤ a.settings.rating := by
  refine Nat.div_le_of_le_mul ?_
  have hl := levelFactor_le a.settings (a.level.move a.settings r0) r0
  have ht := turbidityFactor_le a.settings r2
  have hs := sumpFactor_le a.settings r1
  have hproduct : (a.observe r0 r1 r2).lf * (a.observe r0 r1 r2).tf * (a.observe r0 r1 r2).sf ≤ 100 * 100 * 100 :=
    Nat.mul_le_mul (Nat.mul_le_mul hl ht) hs
  calc _ = a.settings.rating * ((a.observe r0 r1 r2).lf * (a.observe r0 r1 r2).tf * (a.observe r0 r1 r2).sf) := by
        simp only [Admission.observe]; ring
    _ ≤ a.settings.rating * 1000000 := Nat.mul_le_mul_left _ hproduct
    _ = _ := Nat.mul_comm ..

/-- An evaluation keeps the agreement, and leaves a capacity of at most the rating whatever it was (R173, R181). -/
theorem evaluate_water {s : State} (h : Agreed s) : WaterLaw s.evaluate := by
  unfold State.evaluate
  dsimp only
  generalize hseen : s.withWau (Admission.observe (s.channel .c0).offers (s.channel .c1).offers (s.channel .c2).offers) = seen
  have hagreed : Agreed seen := by
    subst hseen
    exact ⟨h.run, h.allotted, h.permit, h.ordered, h.started, h.held, h.out, h.orderNodup, h.lineNodup, h.granted⟩
  have hrated : seen.wau.derived ≤ seen.wau.settings.rating := by
    subst hseen
    exact derived_le_rating ..
  generalize hrevoked : revokeDown seen.wau.derived seen.wau.order.reverse seen = revoked
  have hdown : Agreed revoked := hrevoked ▸ revokeDown_agree _ _ hagreed
  have hgranted : revoked.wau.granted ≤ seen.wau.derived := by
    rw [← hrevoked]
    refine revokeDown_granted _ _ seen fun w hw => List.mem_reverse.2 ?_
    exact (hagreed.ordered w id).2 (.inl ((hagreed.allotted w id).1 hw))
  have hset : Agreed (revoked.withWau fun a => { a with capacity := seen.wau.derived }) :=
    ⟨hdown.run, hdown.allotted, hdown.permit, hdown.ordered, hdown.started, hdown.held, hdown.out, hdown.orderNodup,
      hdown.lineNodup, hgranted⟩
  have hsettings : revoked.wau.settings = seen.wau.settings := hrevoked ▸ (SameTerms.revokeDown _ _ seen).settings
  have hlaw : WaterLaw (revoked.withWau fun a => { a with capacity := seen.wau.derived }) :=
    hset.waterLaw (by rw [← hsettings] at hrated; exact hrated)
  have raised {t : State} (ht : WaterLaw t) (c : Bool) : WaterLaw (t.raiseIf c .waterStop) :=
    ht.of_blocks (by simp) (by simp) (by simp)
  refine raised ?_ _
  split
  · exact hlaw.of_agreed (runPass_agree _ _ hset) (.runPass _)
  · exact hlaw

/-! ## Starts and supplies (R223, R224) -/

/-- The part goes silent: no permit is on. -/
theorem goSilent_water {s : State} (h : WaterLaw s) (cause : LossCause) (unwritten : Bool) :
    WaterLaw (s.goSilent cause unwritten) where
  allotted := h.allotted
  permit v := by
    have hstopped : (s.goSilent cause unwritten).running = false := by
      cases cause <;> simp [State.goSilent, State.running, Retention.lose]
    rw [hstopped]
    cases v <;> simp [State.goSilent, Four.all, Four.get]
  ordered := h.ordered
  started := h.started
  held := h.held
  orderNodup := h.orderNodup
  lineNodup := h.lineNodup
  granted := h.granted
  capacity := h.capacity

theorem coldStart_water (s : State) (interlock : Four Bool) (supply : Bool) : WaterLaw (s.coldStart interlock supply) :=
  .of_reset rfl fun v => by cases v <;> rfl

theorem warmStart_water (s : State) (inputs : Inputs) : WaterLaw (s.warmStart inputs) := by
  rw [warmStart_eq]
  have hwarm : WaterLaw (s.warmed inputs.interlock) := by
    refine .of_reset rfl fun v => ?_
    rw [State.states, warmed_saw]
    unfold State.warmSaw
    dsimp only
    split <;> rfl
  unfold State.warmChannels
  exact hwarm.of_blocks (State.eachChannel_wau ..) (State.eachChannel_sdp ..) (State.eachChannel_rsv ..)

theorem startOrCut_water (s : State) (inputs : Inputs) : WaterLaw (s.startOrCut inputs) := by
  have hstart : WaterLaw (s.start inputs) := by
    unfold State.start
    dsimp only
    split
    · exact coldStart_water ..
    · exact warmStart_water ..
  unfold State.startOrCut
  dsimp only
  split
  · exact goSilent_water hstart ..
  · exact hstart

/-! ## Every command, and every step -/

section

variable {s : State}

theorem fitBlade_water (h : WaterLaw s) (number saw : Nat) : WaterLaw (fitBlade number saw s).2 := by
  unfold fitBlade
  iterate 6 (split; exact h)
  dsimp only [performed]
  refine WaterLaw.updateSaw ?_ _ (fun r => { r with blade := some number }) fun _ => rfl
  cases (s.saw _).blade <;> exact h.of_blocks rfl rfl rfl

theorem removeBlade_water (h : WaterLaw s) (saw : Nat) : WaterLaw (removeBlade saw s).2 := by
  unfold removeBlade
  iterate 3 (split; exact h)
  dsimp only [performed]
  refine WaterLaw.updateSaw ?_ _ (fun r => { r with blade := none }) fun _ => rfl
  exact h.of_blocks rfl rfl rfl

theorem configureSaw_water (h : WaterLaw s) (saw demand rate : Nat) : WaterLaw (configureSaw saw demand rate s).2 := by
  unfold configureSaw
  split
  · exact h
  · exact h.updateSaw _ (fun r => { r with demand := clamp 5 120 demand, rate := clamp 0 100000 rate }) fun _ => rfl

theorem meteringInterval_water (h : WaterLaw s) (w : Saw) : WaterLaw (meteringInterval w s) := by
  unfold meteringInterval
  dsimp only
  split
  case isFalse => exact h
  have hticked := h.updateSaw w (fun r => { r with meters := r.meters.tick (s.intervalFlow w) }) fun _ => rfl
  split
  · exact hticked.of_blocks (by simp) (by simp) (by simp)
  · exact hticked

theorem status_water (h : WaterLaw s) (w : Saw) (position : Nat) : WaterLaw (status w position s) := by
  unfold status
  split
  · exact h.of_blocks (by simp) (by simp) (by simp)
  · exact h

theorem channelSample_water (h : WaterLaw s) (c : Chan) (raw : Int) : WaterLaw (channelSample c raw s) := by
  refine h.of_blocks ?_ (channelSample_sdp ..) ?_
  all_goals unfold channelSample
  all_goals dsimp only
  all_goals (repeat' split) <;> simp

theorem setPlant_water (h : WaterLaw s) (hr : s.running = true) (p : Settings) : WaterLaw (setPlant p s).2 := by
  have hagreed := h.agree hr
  exact evaluate_water ⟨hagreed.run, hagreed.allotted, hagreed.permit, hagreed.ordered, hagreed.started, hagreed.held, hagreed.out,
    hagreed.orderNodup, hagreed.lineNodup, hagreed.granted⟩

theorem resetRelease_water (h : WaterLaw s) (inputs : Inputs) : WaterLaw (resetRelease inputs s) := by
  unfold resetRelease
  dsimp only
  split
  · exact startOrCut_water ..
  · next hp => exact h.congr rfl (fun _ => rfl) (by simp [State.running, hp])

end

theorem act_water (i : Instr) (s : State) (h : WaterLaw s) (ht : (Instr.meaning i).Taken s) :
    WaterLaw ((Instr.meaning i).act s) := by
  cases i
  case readMaterial | readSlab | findSlabs | readRack | readAudit | readPlan | readPassList | readSaw | readContext
    | readBlade | readChannel | readPlant | readJob | unknownRequest =>
    rwa [act_of_reads rfl]
  case defineMaterial => exact h.of_blocks (defineMaterial_keeps_wau ..) (defineMaterial_keeps_sdp ..) (defineMaterial_keeps_rsv ..)
  case dropMaterial => exact h.of_blocks (dropMaterial_keeps_wau ..) (dropMaterial_keeps_sdp ..) (dropMaterial_keeps_rsv ..)
  case createSlab => exact h.of_blocks (createSlab_keeps_wau ..) (createSlab_keeps_sdp ..) (createSlab_keeps_rsv ..)
  case amendSlab => exact h.of_blocks (amendSlab_keeps_wau ..) (amendSlab_keeps_sdp ..) (amendSlab_keeps_rsv ..)
  case scrapSlab => exact h.of_blocks (scrapSlab_keeps_wau ..) (scrapSlab_keeps_sdp ..) (scrapSlab_keeps_rsv ..)
  case retireSlab => exact h.of_blocks (retireSlab_keeps_wau ..) (retireSlab_keeps_sdp ..) (retireSlab_keeps_rsv ..)
  case moveSlab => exact h.of_blocks (moveSlab_keeps_wau ..) (moveSlab_keeps_sdp ..) (moveSlab_keeps_rsv ..)
  case verifySlab => exact h.of_blocks (verifySlab_keeps_wau ..) (verifySlab_keeps_sdp ..) (verifySlab_keeps_rsv ..)
  case startAudit => exact h.of_blocks (startAudit_keeps_wau ..) (startAudit_keeps_sdp ..) (startAudit_keeps_rsv ..)
  case endAudit => exact h.of_blocks (endAudit_keeps_wau ..) (endAudit_keeps_sdp ..) (endAudit_keeps_rsv ..)
  case abortAudit => exact h.of_blocks (abortAudit_keeps_wau ..) (abortAudit_keeps_sdp ..) (abortAudit_keeps_rsv ..)
  case createPlan => exact h.of_blocks (createPlan_keeps_wau ..) (createPlan_keeps_sdp ..) (createPlan_keeps_rsv ..)
  case revisePlan => exact h.of_blocks (revisePlan_keeps_wau ..) (revisePlan_keeps_sdp ..) (revisePlan_keeps_rsv ..)
  case checkPlan => exact h.of_blocks (checkPlan_keeps_wau ..) (checkPlan_keeps_sdp ..) (checkPlan_keeps_rsv ..)
  case retirePlan => exact h.of_blocks (retirePlan_keeps_wau ..) (retirePlan_keeps_sdp ..) (retirePlan_keeps_rsv ..)
  case releasePlan => exact releasePlan_water h ht.1 ..
  case cancelPlan => exact cancelPlan_water h ht.1 _
  case abandonPlan => exact abandonPlan_water h ht.1 _
  case configureSaw => exact configureSaw_water h ..
  case resumeSaw => exact resumeSaw_water h ht.1 _
  case fitBlade => exact fitBlade_water h ..
  case removeBlade => exact removeBlade_water h _
  case addBlade => exact h.of_blocks (addBlade_keeps_wau ..) (addBlade_keeps_sdp ..) (addBlade_keeps_rsv ..)
  case amendBlade => exact h.of_blocks (amendBlade_keeps_wau ..) (amendBlade_keeps_sdp ..) (amendBlade_keeps_rsv ..)
  case retireBlade => exact h.of_blocks (retireBlade_keeps_wau ..) (retireBlade_keeps_sdp ..) (retireBlade_keeps_rsv ..)
  case setChannel => exact h.of_blocks (setChannel_keeps_wau ..) (setChannel_keeps_sdp ..) (setChannel_keeps_rsv ..)
  case calBegin => exact h.of_blocks (calBegin_keeps_wau ..) (calBegin_keeps_sdp ..) (calBegin_keeps_rsv ..)
  case calPoint => exact h.of_blocks (calPoint_keeps_wau ..) (calPoint_keeps_sdp ..) (calPoint_keeps_rsv ..)
  case calEnd => exact h.of_blocks (calEnd_keeps_wau ..) (calEnd_keeps_sdp ..) (calEnd_keeps_rsv ..)
  case calAbort => exact h.of_blocks (calAbort_keeps_wau ..) (calAbort_keeps_sdp ..) (calAbort_keeps_rsv ..)
  case setPlant => exact setPlant_water h ht.1 _
  case openJob => exact h.of_blocks (openJob_keeps_wau ..) (openJob_keeps_sdp ..) (openJob_keeps_rsv ..)
  case amendJob => exact h.of_blocks (amendJob_keeps_wau ..) (amendJob_keeps_sdp ..) (amendJob_keeps_rsv ..)
  case closeJob => exact h.of_blocks (closeJob_keeps_wau ..) (closeJob_keeps_sdp ..) (closeJob_keeps_rsv ..)
  case retireJob => exact h.of_blocks (retireJob_keeps_wau ..) (retireJob_keeps_sdp ..) (retireJob_keeps_rsv ..)
  case readNotices => exact h.of_blocks rfl rfl rfl
  case setNotices => exact h.of_blocks (setNotices_keeps_wau ..) (setNotices_keeps_sdp ..) (setNotices_keeps_rsv ..)
  case readState => exact h.congr rfl (fun _ => rfl) rfl
  case wipeStore =>
    simp only [Instr.meaning, Meaning.act, wipeStore]
    split
    · exact h
    · exact coldStart_water ..
  case busyRequest =>
    simp only [Instr.meaning, Meaning.act, busyRequest]
    split
    · exact h.of_blocks (by simp) (by simp) (by simp)
    · exact h
  case replySent =>
    simp only [Instr.meaning, Meaning.act, replySent]
    split
    · exact h.of_blocks rfl rfl rfl
    · exact h
  case badFrame link => cases link <;> exact h.congr rfl (fun _ => rfl) rfl
  case byteGapTimeout link _ => cases link <;> exact h.congr rfl (fun _ => rfl) rfl
  case hello => exact hello_water h ht ..
  case loaded => exact loaded_water h ht.1.1 ht.2
  case start => exact start_water h ht.1.1 ht.2
  case done => exact done_water h ht.1.1 ht.2
  case held => exact held_water h ht.1.1 ht.2
  case fault => exact fault_water h ht.1.1 ..
  case status => exact status_water h ..
  case sawMessageMalformed w _ => exact (h.updateSaw w (fun r => { r with heartbeat := 0 }) fun _ => rfl).congr rfl (fun _ => rfl) rfl
  case linkSilence => exact linkSilence_water h ht _
  case holdTimerExpiry => exact holdTimerExpiry_water h ht _
  case interlockDrop => exact interlockDrop_water h ht _
  case interlockReturn w => exact h.updateSaw w (fun r => { r with interlock := true }) fun _ => rfl
  case channelSample => exact channelSample_water h ..
  case graceExpiry =>
    simp only [Instr.meaning, Meaning.act, graceExpiry]
    split <;> exact h.of_blocks rfl rfl rfl
  case fieldSupplyLoss =>
    simp only [Instr.meaning, Meaning.act, fieldSupplyLoss]
    split <;> exact h.of_blocks (by simp) (by simp) (by simp)
  case fieldSupplyReturn =>
    simp only [Instr.meaning, Meaning.act, fieldSupplyReturn]
    split <;> exact h.of_blocks (by simp) (by simp) (by simp)
  case capacityEvaluation => exact evaluate_water (h.agree ht)
  case meteringInterval => exact meteringInterval_water h _
  case resetRelease => exact resetRelease_water h _
  case powerReturn => exact startOrCut_water ..
  case powerLoss => exact goSilent_water h ..
  case backupFailure => exact h.congr rfl (fun _ => rfl) rfl

theorem water_ambient : Ambient WaterLaw where
  queue _ _ h := h.congr rfl (fun _ => rfl) rfl
  slot _ _ _ _ h := h.congr rfl (fun _ => rfl) rfl
  heard s w h := h.congr rfl (State.states_sawFrame s w) rfl
  sent _ _ _ h := h.congr rfl (fun _ => rfl) rfl
  aged s h := h.congr rfl (fun v => by rw [State.states, age_saw]; rfl) rfl

/-- Settles O57: a part that runs keeps the agreement of the water records with the saw states by the agreement of each
operation, an evaluation sets a capacity of at most the rating, and a start or a loss of the supplies leaves no permit on. -/
theorem stepsKeepTheWater : Obligations.StepsKeepTheWater := by
  unfold Obligations.StepsKeepTheWater
  exact fun s t h => water_ambient.step act_water h

end Sys2Proof.Machine
end

section
/-! PROOFS. The replies that report a record, the loading of a head, the health test, a tick of 100 ms and the values right after
reset. -/

namespace Sys2Proof.Machine

/-! ## Replies that report (R13, R28, R40, R87, R115, R185, R222) -/

section Reports

variable {s : State}

theorem readSlab_none {number : Nat} (h : s.slab? number = none) : readSlab number s = refused .none s := by
  simp only [readSlab, h]

theorem readSlab_performed {number : Nat} {r : Slab} (h : s.slab? number = some r) :
    readSlab number s = performed r.fields s := by
  simp only [readSlab, h]

theorem readRack_form {rack : Nat} (h : rack = 0 ∨ 32 < rack) : readRack rack s = refused .form s := by
  refine if_pos ?_
  simp only [Bool.not_eq_true', ← Bool.not_eq_true, within_iff]
  omega

theorem readRack_performed {rack : Nat} (h1 : 1 ≤ rack) (h2 : rack ≤ 32) :
    readRack rack s =
      performed ([1, 2, 3, 4, 5, 6, 7, 8, 9, 10, 11, 12].map fun p => .u16 ((s.rackAt? ⟨rack, p⟩).getD 0)) s := by
  refine if_neg ?_
  simp only [Bool.not_eq_true', ← Bool.not_eq_true, within_iff]
  omega

/-- Settles O4: each reply is the record's fields in their order. -/
theorem readSlabRackAndAudit : Obligations.ReadSlabRackAndAudit := by
  refine ⟨fun s number hs => ⟨fun h => hs.refuses rfl (readSlab_none h), fun r h => hs.reports rfl (readSlab_performed h)⟩,
    fun s rack hs => ⟨fun h => hs.refuses rfl (readRack_form h), fun h1 h2 => hs.reports rfl (readRack_performed h1 h2),
      hs.reports (perform := readAudit) rfl rfl⟩⟩

theorem configureSaw_performed (w : Saw) (demand rate : Nat) :
    configureSaw w.toNat demand rate s = performed [.u16 (max 5 (min 120 demand)), .u32 (min 100000 rate)]
      (s.updateSaw w fun r => { r with demand := max 5 (min 120 demand), rate := min 100000 rate }) := by
  simp only [configureSaw, Saw.ofNat?_toNat, clamp_eq (show 5 ≤ 120 by decide), clamp_eq (show 0 ≤ 100000 by decide),
    Nat.zero_max]

theorem readSaw_performed (w : Saw) :
    readSaw w.toNat s = performed ((s.saw w).fields ++ [.u16 ((s.wau.allotment.get w).getD 0)]) s := by
  simp only [readSaw, Saw.ofNat?_toNat]

theorem readContext_performed (w : Saw) :
    readContext w.toNat s = performed (flag (s.saw w).context.isSome :: (s.saw w).context.elim [] Context.fields
      ++ [.u16 (s.saw w).passTime, .u16 ((s.saw w).holdTimer.getD 0)]) s := by
  simp only [readContext, Saw.ofNat?_toNat]

/-- Settles O18: a number of no saw is refused by each request, and a saw's record and context are sent field by field. -/
theorem sawRequests : Obligations.SawRequests := by
  intro s saw demand rate hs
  refine ⟨fun h => ?_, ?_⟩
  · have hnone := Saw.ofNat?_eq_none h
    exact ⟨hs.refuses (perform := configureSaw saw demand rate) rfl (by simp only [configureSaw, hnone]),
      hs.refuses (perform := readSaw saw) rfl (by simp only [readSaw, hnone]),
      hs.refuses (perform := readContext saw) rfl (by simp only [readContext, hnone])⟩
  rintro w rfl
  refine ⟨hs.performs rfl (configureSaw_performed w demand rate), ?_, fun hc => ?_, fun c hc => ⟨fun hp => ?_, fun p hp => ?_⟩⟩
  · have hreport := hs.reports (i := .readSaw w.toNat) rfl (readSaw_performed w)
    simp only [SawRec.fields, counted_singleton] at hreport
    simpa [counted, contextBrief, flag] using hreport
  all_goals
    have hreport := hs.reports (i := .readContext w.toNat) rfl (readContext_performed w)
    rw [hc] at hreport
  · exact hreport
  · simpa [Context.fields, partFields, flag, boolCode, hp] using hreport
  · simpa [Context.fields, partFields, flag, boolCode, hp] using hreport

/-- Settles O44: the plant's fields in their order. -/
theorem readPlant_holds : Obligations.ReadPlant := by
  intro s hs
  have hreport := hs.reports (i := .readPlant) (perform := readPlant) rfl rfl
  simp only [Admission.fields, counted_singleton] at hreport
  simpa [Settings.fields, Reading.fields, counted, Saw.all, Admission.granted, Four.get] using hreport

end Reports

/-! ## The part's state and WIPE STORE (R222, R226) -/

section Store

variable {s : State}

theorem watered_iff : s.watered = true ↔ ∃ w, s.wau.allotment.get w ≠ none ∨ (s.saw w).state = .holding := by
  simp only [State.watered, List.any_eq_true, Bool.or_eq_true, beq_iff_eq, Option.isSome_iff_ne_none]
  exact ⟨fun ⟨w, _, h⟩ => ⟨w, h⟩, fun ⟨w, h⟩ => ⟨w, by cases w <;> decide, h⟩⟩

/-- The state a WIPE STORE leaves, answered. -/
def State.wiped (s : State) : State :=
  (s.coldStart (s.sdp.saws.map SawRec.interlock) s.pmn.fieldSupply).answered Kind.wipeStore .ok []

theorem exec_wipeStore (hs : s.ready) (h : ¬ s.watered = true) : exec .wipeStore s = .next s.wiped :=
  hs.performs (perform := wipeStore) rfl (if_neg h)

theorem wiped_running (hs : s.ready) : s.wiped.running = true := hs.1

/-- The retention record names the next start, with the backup supply as the inputs give it. -/
theorem start_cold (h : s.rsv.kind = .cold) (inputs : Inputs) :
    s.start inputs = ({ s with rsv := { s.rsv with backup := inputs.backup } } : State).coldStart inputs.interlock
      inputs.fieldSupply := by
  unfold State.start
  dsimp only [Retention.kind] at h ⊢
  rw [h]

theorem start_warm (h : s.rsv.kind = .warm) (inputs : Inputs) :
    s.start inputs = ({ s with rsv := { s.rsv with backup := inputs.backup } } : State).warmStart inputs := by
  unfold State.start
  dsimp only [Retention.kind] at h ⊢
  rw [h]

theorem warmStart_rsv (s : State) (inputs : Inputs) :
    (s.warmStart inputs).rsv = { s.rsv with latch := false, startKind := .warm } := by
  rw [warmStart_eq, State.warmChannels, State.eachChannel_rsv]
  rfl

theorem start_startKind (s : State) (inputs : Inputs) : (s.start inputs).rsv.startKind = s.rsv.kind := by
  cases h : s.rsv.kind with
  | cold => rw [start_cold h]; rfl
  | warm => rw [start_warm h, warmStart_rsv]

theorem startOrCut_startKind (s : State) (inputs : Inputs) : (s.startOrCut inputs).rsv.startKind = s.rsv.kind := by
  unfold State.startOrCut
  dsimp only
  split <;> exact start_startKind s inputs

/-- A cold start writes its mark unless it is cut short, and leaves no reply. -/
theorem startOrCut_cold {s : State} (h : s.rsv.kind = .cold) (inputs : Inputs) :
    (s.startOrCut inputs).rsv.mark = !inputs.cut ∧ (s.startOrCut inputs).olc.reply = none := by
  unfold State.startOrCut
  dsimp only
  rw [start_cold h]
  cases inputs.cut <;> exact ⟨rfl, rfl⟩

/-- Settles O49: WIPE STORE is a cold start made within the request; a loss of main power before its reply is out leaves no mark,
and one after it leaves the mark, so the next start is COLD or WARM. -/
theorem readStateAndWipeStore : Obligations.ReadStateAndWipeStore := by
  intro s hs
  dsimp only
  rw [← watered_iff]
  refine ⟨fun backup => hs.performs (perform := readState backup) rfl rfl,
    fun h => hs.refuses (perform := wipeStore) rfl (if_pos h), fun h => exec_wipeStore hs h, fun h inputs => ?_,
    fun h inputs => ?_⟩
  · exact ⟨s.wiped, powerLoss .mainPower s.wiped, _, exec_wipeStore hs h, rfl, rfl, rfl, rfl, startOrCut_startKind _ inputs,
      startOrCut_cold rfl inputs⟩
  · have hsent : exec .replySent s.wiped = .next { s.wiped with olc := { s.wiped.olc with reply := none, slot := .ready } } :=
      event_running (wiped_running hs) replySent
    exact ⟨s.wiped, _, powerLoss .mainPower { s.wiped with olc := { s.wiped.olc with reply := none, slot := .ready } }, _,
      exec_wipeStore hs h, hsent, rfl, rfl, startOrCut_startKind _ inputs⟩

end Store

/-! ## Loading the head (R92, R93) -/

section Load

variable {s : State} {w : Saw} {p : Plan} {r : Slab}

theorem loadable_iff : p.loadable = true ↔ p.state = .released ∨ (p.state = .cutting ∧ ∀ q ∈ p.passes, q.state ≠ .active) := by
  simp [Plan.loadable, Plan.activePass?]

theorem loadHead_sent (hl : (s.saw w).link = .up) (hx : (s.saw w).state = .idle) (hp : s.headPlan? w = some p)
    (hr : s.slab? p.slab = some r) (h : p.loadable = true) :
    s.loadHead w = (s.send w (loadFrame p r)).updateSaw w fun x => { x with pendingLoad := some p.number, state := .loading } := by
  simp only [State.loadHead, hl, hx, and_self, if_true, hp, h, hr]

/-- Settles O13: the one case in which LOAD goes out, and the state as it was in every other. -/
theorem loadingTheHead : Obligations.LoadingTheHead := by
  intro s w n rest p r hq hp hr
  have hhead : s.headPlan? w = some p := by simp [State.headPlan?, hq, hp]
  obtain rfl : p.number = n := plan?_number hp
  dsimp only
  rw [← loadable_iff]
  refine ⟨fun ⟨hl, hx, h⟩ => loadHead_sent hl hx hhead hr h, fun h => ?_⟩
  unfold State.loadHead
  split
  case isFalse => rfl
  next hx =>
  simp only [hhead]
  rw [if_neg fun hload => h ⟨hx.1, hx.2, hload⟩]

end Load

/-! ## The health test (R133) -/

section Health

theorem health_exhausted_iff (b : Blade) : b.health = .exhausted ↔ b.life * 1000 ≤ b.wear ∨ 8 ≤ b.overloads := by
  unfold Blade.health
  split
  · next h => exact iff_of_true rfl h
  · next h => split <;> exact iff_of_false nofun h

theorem health_advisory_iff (b : Blade) :
    b.health = .advisory ↔ ¬ (b.life * 1000 ≤ b.wear ∨ 8 ≤ b.overloads) ∧ b.life * 900 ≤ b.wear := by
  unfold Blade.health
  split
  · next h => exact iff_of_false nofun fun hn => hn.1 h
  · next h =>
    split
    · next hw => exact iff_of_true rfl ⟨h, hw⟩
    · next hw => exact iff_of_false nofun fun hn => hw hn.2

/-- The advisory is due: the wear has come to 90 % of the life and the record has not had its notice. -/
def Blade.advisoryDue (b : Blade) : Bool := decide (b.life * 900 ≤ b.wear) && !b.advisoryNoticed

/-- The blade is EXHAUSTED and the record has not had its notice. -/
def Blade.exhaustedDue (b : Blade) : Bool := b.health == .exhausted && !b.exhaustedNoticed

/-- The record once the notices due have been given. -/
def Blade.noticed (advisory exhausted : Bool) (b : Blade) : Blade :=
  { b with advisoryNoticed := b.advisoryNoticed || advisory, exhaustedNoticed := b.exhaustedNoticed || exhausted }

theorem testHealth_eq {s : State} {n : Nat} {b : Blade} (h : s.blade? n = some b) :
    s.testHealth n = ((s.updateBlade n (Blade.noticed b.advisoryDue b.exhaustedDue)).raiseIf b.advisoryDue
      .bladeAdvisory).raiseIf b.exhaustedDue .bladeExhausted := by
  simp only [State.testHealth, h]
  rfl

/-- Settles O34: the health is the first of the two limits passed, and the test gives each notice due and marks it given. -/
theorem healthIsTested : Obligations.HealthIsTested := by
  refine ⟨fun b => ⟨health_exhausted_iff b, health_advisory_iff b⟩, fun s n b hb => ?_⟩
  refine ⟨s.updateBlade n (Blade.noticed b.advisoryDue b.exhaustedDue), b.advisoryDue, b.exhaustedDue, ?_, ?_, ?_,
    fun k hk => updateBlade_blade?_ne s _ hk, rfl, testHealth_eq hb⟩
  · simp [Blade.advisoryDue]
  · simp [Blade.exhaustedDue]
  · rw [updateBlade_blade?_self s n (Blade.noticed _ _), hb]
    rfl

end Health

/-! ## A tick of 100 ms (R89, R91, R106, R114, R118, R153) -/

section Tick

variable {s : State}

theorem mem_sawDue {w : Saw} {r : SawRec} {e : Instr} : e ∈ r.due w ↔
    (e = .meteringInterval w ∧ r.meters.isOpen = true ∧ (r.state = .cutting ∨ r.state = .holding)) ∨
      (e = .holdTimerExpiry w ∧ r.holdTimer = some 0) ∨
      (e = .linkSilence w ∧ r.link = .up ∧ 30 ≤ r.heartbeat) := by
  have mem_guarded (c : Bool) (x : Instr) : (e ∈ if c then [x] else []) ↔ e = x ∧ c = true := by cases c <;> simp
  simp only [SawRec.due, List.mem_append, mem_guarded, or_assoc]
  simp only [Bool.and_eq_true, SawState.inCut_iff, beq_iff_eq, decide_eq_true_eq]
  rfl

theorem sawDue_nodup (w : Saw) (r : SawRec) : (r.due w).Nodup := by
  have guarded (c : Bool) (x : Instr) : (if c then [x] else []).Sublist [x] := by cases c <;> simp
  have hall : [Instr.meteringInterval w, .holdTimerExpiry w, .linkSilence w].Nodup := by simp
  exact hall.sublist (((guarded _ _).append (guarded _ _)).append (guarded _ _))

theorem mem_channelDue {c : Chan} {r : Channel} {e : Instr} :
    e ∈ r.due c ↔ e = .graceExpiry c ∧ r.grace = .running 0 := by
  unfold Channel.due
  split
  · next h => simp [h]
  · next h => exact iff_of_false nofun fun hn => h hn.2

theorem channelDue_nodup (c : Chan) (r : Channel) : (r.due c).Nodup := by
  unfold Channel.due
  split <;> simp

/-- The events due of the saws and the channels, the evaluation aside. -/
def State.timed (s : State) : List Instr :=
  Saw.all.flatMap (fun w => (s.saw w).due w) ++ Chan.all.flatMap (fun c => (s.channel c).due c)

theorem mem_timed {e : Instr} : e ∈ s.timed ↔ (∃ w, e ∈ (s.saw w).due w) ∨ ∃ c, e ∈ (s.channel c).due c := by
  have hsaws : ∀ w, w ∈ Saw.all := by intro w; cases w <;> decide
  have hchans : ∀ c, c ∈ Chan.all := by intro c; cases c <;> decide
  simp [State.timed, hsaws, hchans]

theorem timed_nodup (s : State) : s.timed.Nodup := by
  refine List.nodup_append.2 ⟨List.nodup_flatMap.2 ⟨fun w _ => sawDue_nodup w _, ?_⟩,
    List.nodup_flatMap.2 ⟨fun c _ => channelDue_nodup c _, ?_⟩, ?_⟩
  · have hall : Saw.all.Pairwise (· ≠ ·) := by decide
    refine hall.imp fun {w v} hne e he he' => hne ?_
    rcases mem_sawDue.1 he with ⟨rfl, _⟩ | ⟨rfl, _⟩ | ⟨rfl, _⟩ <;>
      rcases mem_sawDue.1 he' with ⟨h, _⟩ | ⟨h, _⟩ | ⟨h, _⟩ <;> cases h <;> rfl
  · have hall : Chan.all.Pairwise (· ≠ ·) := by decide
    refine hall.imp fun {c d} hne e he he' => hne ?_
    obtain ⟨rfl, _⟩ := mem_channelDue.1 he
    obtain ⟨h, _⟩ := mem_channelDue.1 he'
    cases h
    rfl
  · rintro e he _ he' rfl
    obtain ⟨w, -, hw⟩ := List.mem_flatMap.1 he
    obtain ⟨c, -, hc⟩ := List.mem_flatMap.1 he'
    obtain ⟨rfl, -⟩ := mem_channelDue.1 hc
    rcases mem_sawDue.1 hw with ⟨h, -⟩ | ⟨h, -⟩ | ⟨h, -⟩ <;> cases h

/-- Settles O54: a tick moves the timers, and what is due is read off the timers as they then stand. -/
theorem stepRunsTheFront : Obligations.StepRunsTheFront := by
  refine ⟨fun s i rest h => by rw [step, h], fun s h => ⟨fun hr => ?_, fun hr => ?_⟩⟩
  · rw [step, h]
    simp [State.tick, hr]
  have hpending : s.age.pending = [] := h
  have hstep : step s = .next { s.age with pending := s.age.timed ++ [.capacityEvaluation] } := by
    rw [step, h]
    simp only [State.tick, hr, if_true, hpending, List.nil_append]
    rfl
  have haged (w : Saw) : s.age.saw w = (s.saw w).age := age_saw s w
  have hchannel (c : Chan) : s.age.channel c = { s.channel c with grace := (s.channel c).grace.age } :=
    Seven.get_map ..
  have hmem (e : Instr) := mem_timed (s := s.age) (e := e)
  refine ⟨_, s.age.timed, hstep, rfl, timed_nodup _, fun e he => ?_, fun w => ?_, fun c => ?_, rfl⟩
  · rcases (hmem e).1 he with ⟨w, hw⟩ | ⟨c, hc⟩
    · rcases mem_sawDue.1 hw with ⟨h, -⟩ | ⟨h, -⟩ | ⟨h, -⟩ <;> exact .inl ⟨w, by simp [h]⟩
    · exact .inr ⟨c, (mem_channelDue.1 hc).1⟩
  · refine ⟨(haged w).trans ?_, by cases w <;> rfl, rfl, ?_, ?_, ?_⟩
    · simp [SawRec.age, satAdd, Config.maxAge]
    all_goals rw [hmem]; simp only [mem_sawDue, mem_channelDue]
    · simp [haged, SawRec.age]
    · simp
      rfl
    · simp
      rfl
  · refine ⟨fun n hn => (hchannel c).trans (by rw [hn]; rfl), fun hn => (hchannel c).trans ?_, ?_⟩
    · have hgrace : (s.channel c).grace.age = (s.channel c).grace := by
        cases hg : (s.channel c).grace with
        | running n => exact absurd hg (hn n)
        | stopped | expired => rfl
      rw [hgrace]
    · rw [hmem]
      simp [mem_sawDue, mem_channelDue]
      rfl

end Tick

/-! ## Right after reset (R25, R43, R66, R111, R131, R145, R165, R186, R208, R225) -/

section Reset

variable (s : State) (interlock : Four Bool) (supply : Bool)

theorem coldStart_work : WorkLaw (s.coldStart interlock supply) := by
  refine ⟨fun w h => ?_, fun w => ?_, fun w h => ?_, fun w => ?_, nofun, nofun, nofun, nofun, nofun⟩
  all_goals simp only [coldStart_saw] at *
  · simp [SawRec.reset] at h
  · simp [SawRec.reset]
  · cases h
  · simp [SawRec.reset]

theorem coldStart_racks : RackLaw (s.coldStart interlock supply) where
  positions := trivial
  inRacks := nofun
  agree p n := by simp [State.rackAt?, State.slab?, State.coldStart, findBy_nil]
  gone := nofun
  marked := rfl
  idle _ := ⟨rfl, nofun⟩

/-- Settles O55: reset is a cold start, which keeps every law. -/
theorem resetKeepsTheLaws : Obligations.ResetKeepsTheLaws := by
  have hcold : State.reset = State.reset.coldStart (.all false) false := rfl
  have hwork : WorkLaw State.reset := hcold ▸ coldStart_work ..
  have hqueue : QueueLaw State.reset := hcold ▸ coldStart_queues ..
  have hracks : RackLaw State.reset := hcold ▸ coldStart_racks ..
  have htables : TableLaw State.reset := hcold ▸ coldStart_tables ..
  have hranges : RangeLaw State.reset := hcold ▸ coldStart_ranges ..
  have hpieces : PieceLaw State.reset := hcold ▸ coldStart_pieces ..
  have hattn : AttnLaw State.reset := hcold ▸ coldStart_attn ..
  have hwater : WaterLaw State.reset := hcold ▸ coldStart_water ..
  exact ⟨hwater, hqueue, hwork, htables, hracks, hranges, hpieces, hattn, rfl, ⟨rfl, rfl⟩, rfl, rfl⟩

end Reset

end Sys2Proof.Machine
end

section
/-! PROOFS. What a frame meets: a request the slot (R213), a saw's message its link (R89); the metering of a segment (R163, R204)
and an admission pass over the line (R177 to R180, R183). -/

namespace Sys2Proof.Machine

/-! ## Requests (R1, R213, R224) -/

/-- What a request comes to: performed with the fields of its reply, or refused with the state as it was. -/
inductive Judged (s : State) : Answer × State → Prop where
  | performed (fields : List Field) (t : State) : Judged s (Machine.performed fields t)
  | refused (st : Status) (fields : List Field) : Judged s (⟨st, fields⟩, s)

theorem request_judged {i : Instr} {kind : Byte} {perform : State → Answer × State}
    (h : Instr.meaning i = .request kind perform) (s : State) : Judged s (perform s) := by
  cases i <;> cases h
  case defineMaterial => unfold defineMaterial; split <;> constructor
  case dropMaterial => unfold dropMaterial; (repeat' split) <;> constructor
  case readMaterial => unfold readMaterial; split <;> constructor
  case createSlab => unfold createSlab; (repeat' split) <;> constructor
  case amendSlab => unfold amendSlab; (repeat' split) <;> constructor
  case scrapSlab => unfold scrapSlab; (repeat' split) <;> constructor
  case retireSlab => unfold retireSlab; (repeat' split) <;> constructor
  case readSlab => unfold readSlab; split <;> constructor
  case findSlabs => unfold findSlabs; split <;> constructor
  case readRack => unfold readRack; split <;> constructor
  case moveSlab => unfold moveSlab; (repeat' split) <;> constructor
  case startAudit => unfold startAudit; (repeat' split) <;> constructor
  case verifySlab => unfold verifySlab; (repeat' split) <;> constructor
  case endAudit => unfold endAudit; (repeat' split) <;> constructor
  case abortAudit => unfold abortAudit; (repeat' split) <;> constructor
  case readAudit => exact .performed ..
  case createPlan => unfold createPlan; (repeat' split) <;> constructor
  case revisePlan => unfold revisePlan; (repeat' split) <;> constructor
  case checkPlan => unfold checkPlan; (repeat' split) <;> constructor
  case releasePlan => unfold releasePlan; (repeat' split) <;> constructor
  case cancelPlan => unfold cancelPlan; dsimp only; (repeat' split) <;> constructor
  case abandonPlan => unfold abandonPlan; (repeat' split) <;> constructor
  case readPlan => unfold readPlan; split <;> constructor
  case readPassList => unfold readPassList; split <;> constructor
  case retirePlan => unfold retirePlan; (repeat' split) <;> constructor
  case configureSaw => unfold configureSaw; split <;> constructor
  case readSaw => unfold readSaw; split <;> constructor
  case readContext => unfold readContext; split <;> constructor
  case resumeSaw => unfold resumeSaw; dsimp only; (repeat' split) <;> constructor
  case addBlade => unfold addBlade; (repeat' split) <;> constructor
  case amendBlade => unfold amendBlade; (repeat' split) <;> constructor
  case fitBlade => unfold fitBlade; (repeat' split) <;> constructor
  case removeBlade => unfold removeBlade; (repeat' split) <;> constructor
  case retireBlade => unfold retireBlade; (repeat' split) <;> constructor
  case readBlade => unfold readBlade; split <;> constructor
  case setChannel => unfold setChannel; (repeat' split) <;> constructor
  case readChannel => unfold readChannel; split <;> constructor
  case calBegin => unfold calBegin; (repeat' split) <;> constructor
  case calPoint => unfold calPoint; (repeat' split) <;> constructor
  case calEnd => unfold calEnd; (repeat' split) <;> constructor
  case calAbort => unfold calAbort; (repeat' split) <;> constructor
  case setPlant => exact .performed ..
  case readPlant => exact .performed ..
  case openJob => unfold openJob; (repeat' split) <;> constructor
  case amendJob => unfold amendJob; (repeat' split) <;> constructor
  case readJob => unfold readJob; split <;> constructor
  case closeJob => unfold closeJob; (repeat' split) <;> constructor
  case retireJob => unfold retireJob; (repeat' split) <;> constructor
  case readNotices => exact .performed ..
  case setNotices => unfold setNotices; (repeat' split) <;> constructor
  case readState => exact .performed ..
  case wipeStore => unfold wipeStore; split <;> constructor
  case unknownRequest => exact .refused ..

/-- A command that a good office frame carries is a request of the frame's kind. -/
theorem officeFrame_request {i : Instr} {kind : Byte} {rest : List Byte} (hl : i.link? = some .office)
    (hb : i.body = kind :: rest) : ∃ perform, Instr.meaning i = .request kind perform := by
  cases i <;> cases hb <;> first | exact ⟨_, rfl⟩ | cases hl

/-- Settles O50: a good request frame is a request of its kind, which the slot meets; the end of a reply moves the slot on. -/
theorem requestsAreAnswered : Obligations.RequestsAreAnswered := by
  refine ⟨fun s i kind rest hl hb => ?_, fun s kind hr => ⟨rfl, fun hs => ?_, fun hs => ⟨?_, ?_⟩, fun hs f hf => ?_, fun hs hf => ?_⟩⟩
  · obtain ⟨perform, hi⟩ := officeFrame_request hl hb
    have hexec : exec i s = hostRequest kind perform s := by rw [exec_eq_run, hi]; rfl
    refine ⟨fun h => hexec.trans (hostRequest_silent h ..), fun h hs => hexec.trans (hostRequest_serving h hs ..), fun hs => ?_⟩
    have hjudged := request_judged hi s
    rw [hexec, hostRequest_ready hs]
    generalize perform s = x at hjudged
    cases hjudged with
    | performed fields t => exact ⟨_, _, _, rfl, rfl, rfl, fun h => absurd rfl h⟩
    | refused st fields => exact ⟨_, _, _, rfl, rfl, rfl, fun _ => rfl⟩
  all_goals refine (event_running hr _).trans (congrArg Host.Outcome.next ?_)
  · simp only [busyRequest, hs]
  · simp only [busyRequest, hs]
  · simp only [replySent, hs]
  · simp only [replySent, hs, Office.sent, hf, List.isEmpty_iff]
  · simp only [replySent, hs, Office.sent, hf, List.isEmpty_iff, List.drop_one]
    rcases s.olc.owed with _ | ⟨_, _ | _⟩ <;> simp

/-! ## The saws' frames (R89, R105) -/

theorem sawMessage_down {s : State} {w : Saw} (hr : s.running = true) (hl : (s.saw w).link = .down) (kind : Byte)
    (check : State → Option Status) (handle : State → State) :
    sawMessage w kind check handle s = .next (s.acked w kind .state) := by
  simp only [sawMessage, hr, if_true, sawFrame_link, hl]
  rfl

/-- Settles O19: a DOWN link answers STATE before the message's own rule, and STATUS has no check to fail. -/
theorem sawFramesAreAnswered : Obligations.SawFramesAreAnswered := by
  intro s w hr
  refine ⟨fun kind => event_running hr _, fun hl plan tag position cause opt => ?_, fun hl position hc hh => ?_,
    fun hl position p q ha hx => ?_⟩
  · have down := sawMessage_down hr hl
    exact ⟨down _ _ (loaded w plan), down _ _ (start w tag), down _ _ (done w), down _ _ (held w position),
      down Kind.fault (fun _ => none) (fault w opt position (causeOf cause)),
      down Kind.status (fun _ => none) (status w position)⟩
  all_goals
    refine (sawMessage_taken ⟨hr, hl⟩ Kind.status (check := fun _ => none) rfl (status w position)).trans (congrArg Host.Outcome.next ?_)
    unfold status
    rw [acked_saw]
  · exact if_neg (SawState.inCut_iff.not.2 (not_or.2 ⟨hc, hh⟩))
  · rw [if_pos (SawState.inCut_iff.2 hx), State.reportReached, acked_activePass?, ha]
    rfl

/-! ## Metering (R106, R163, R204) -/

theorem flowChannel_of_toNat {c : Chan} {w : Saw} (h : c.toNat = w.toNat + 2) : flowChannel w = c := by
  cases w <;> cases c <;> first | rfl | cases h

/-- Settles O47: an open segment of a saw in a cut takes the value its flow channel offers, or the demand and the mark on the
job. -/
theorem metering : Obligations.Metering := by
  intro s w hr
  dsimp only
  have hexec : exec (.meteringInterval w) s = .next (meteringInterval w s) := event_running hr _
  have hticked (f : Nat) : (s.updateSaw w fun r => { r with meters := r.meters.tick f }) = s.updateSaw w fun r =>
      { r with meters := { r.meters with flow := min 4294967295 (r.meters.flow + f), time := min 65535 (r.meters.time + 1) } } :=
    rfl
  have hqueue (f : Nat) : ((s.updateSaw w fun r => { r with meters := { r.meters with
      flow := min 4294967295 (r.meters.flow + f), time := min 65535 (r.meters.time + 1) } }).saw w).queue = (s.saw w).queue := by
    rw [State.saw_updateSaw_same]
  rw [hexec]
  refine ⟨fun h => congrArg _ (if_neg h), fun c hc hm => ?_⟩
  obtain rfl := flowChannel_of_toNat hc
  have hmetered : meteringInterval w s = if s.estimated w then
      (s.updateSaw w fun r => { r with meters := r.meters.tick (s.intervalFlow w) }).markEstimated w
      else s.updateSaw w fun r => { r with meters := r.meters.tick (s.intervalFlow w) } := if_pos hm
  refine ⟨fun v hform hv => ?_, fun hform => ?_⟩
  · have hseen : (s.channel (flowChannel w)).offers.seen = some v := by rw [Reading.seen_eq, if_pos hform, hv]
    rw [hmetered]
    simp only [State.estimated, State.intervalFlow, hseen]
    exact congrArg _ (hticked _)
  · have hseen : (s.channel (flowChannel w)).offers.seen = none := by
      rw [Reading.seen_eq, if_neg]
      rcases hform with h | h <;> simp [h]
    have hflow : s.intervalFlow w = (s.saw w).demand * 10 := by simp only [State.intervalFlow, hseen]
    have hestimated : s.estimated w = true := by simp only [State.estimated, hseen]; rfl
    rw [hmetered, if_pos hestimated, hflow, hticked]
    refine ⟨fun hp => ?_, fun p hp => ?_⟩
    · rw [State.markEstimated, headPlan?_congr (hqueue _) rfl, hp]
    · rw [State.markEstimated, headPlan?_congr (hqueue _) rfl, hp]
      exact ⟨_, rfl, updateJob_job?_self .., fun n hn => updateJob_job?_ne _ _ hn, rfl⟩

/-! ## An admission pass (R177, R178, R180) -/

/-- A pass leaves a tail of the line. -/
def ShortensLine (pass : State → State) : Prop := ∀ s, (pass s).wau.line <:+ s.wau.line

theorem leaveWater_line {pass : State → State} (hp : ShortensLine pass) (s : State) (w : Saw) :
    (s.leaveWater pass w).wau.line <:+ s.wau.line := by
  unfold State.leaveWater
  split
  · exact hp _
  · exact List.suffix_rfl
  · exact List.suffix_rfl

/-- What a fault in a cut does before the water is given up (R120). -/
theorem faultInCut_line {pass : State → State} (hp : ShortensLine pass) (s : State) (w : Saw) (p : Nat) (c : Cause) :
    (s.faultInCut pass w p c).wau.line <:+ s.wau.line := by
  unfold State.faultInCut
  dsimp only
  simp only [State.raise_wau, State.setSawState_wau, State.writeContext_wau, State.faultBlade_wau]
  refine (leaveWater_line hp _ w).trans ?_
  simp

theorem settleInterlock_line {pass : State → State} (hp : ShortensLine pass) (s : State) (w : Saw) :
    (s.settleInterlock pass w).wau.line <:+ s.wau.line := by
  unfold State.settleInterlock
  split
  · exact List.suffix_rfl
  · exact faultInCut_line hp ..

theorem enterCut_admitted_line (s : State) (w : Saw) (es : List LineEntry) :
    (((s.withWau fun a => { a with line := es }).admitSaw w).enterCut w).wau.line = es := by
  simp [State.admitSaw, Admission.admitSaw]

theorem admissionPass_line (n : Nat) : ShortensLine (admissionPass n) := by
  induction n with
  | zero => exact fun s => List.suffix_rfl
  | succ n ih =>
    intro s
    unfold admissionPass
    split
    · exact List.suffix_rfl
    · next e es he =>
      split
      · refine (ih _).trans ((settleInterlock_line ih _ _).trans ?_)
        rw [enterCut_admitted_line, he]
        exact List.suffix_cons ..
      · exact List.suffix_rfl

/-- Two passes that agree on a line agree in the fault they are run in. -/
theorem settleInterlock_congr {pass pass' : State → State} {s : State} (w : Saw)
    (h : ∀ t : State, t.wau.line = s.wau.line → pass t = pass' t) : s.settleInterlock pass w = s.settleInterlock pass' w := by
  unfold State.settleInterlock State.faultInCut State.leaveWater
  split
  · rfl
  · dsimp only
    rw [h]
    simp [Admission.release]

/-- A pass allowed as many entries as the line holds, or more, is the admission pass. -/
theorem admissionPass_eq_runPass (n : Nat) (s : State) (h : s.wau.line.length ≤ n) : admissionPass n s = s.runPass := by
  induction n using Nat.strong_induction_on generalizing s with
  | _ n ih =>
  cases hl : s.wau.line with
  | nil =>
    unfold State.runPass
    cases n <;> simp [admissionPass, hl]
  | cons e es =>
    rw [hl, List.length_cons] at h
    obtain ⟨m, rfl⟩ : ∃ m, n = m + 1 := ⟨n - 1, by omega⟩
    have hm : es.length ≤ m := by omega
    unfold State.runPass
    rw [hl, List.length_cons]
    simp only [admissionPass, hl]
    split
    case isFalse => rfl
    set entered := ((s.withWau fun a => { a with line := es }).admitSaw e.saw).enterCut e.saw with hentered
    have hline : entered.wau.line = es := enterCut_admitted_line s e.saw es
    have hinner : entered.settleInterlock (admissionPass m) e.saw = entered.settleInterlock (admissionPass es.length) e.saw :=
      settleInterlock_congr e.saw fun t ht => by
        rw [ih m (by omega) t (by rw [ht, hline]; exact hm), ih es.length (by omega) t (by rw [ht, hline])]
    have hshort := (settleInterlock_line (admissionPass_line es.length) entered e.saw).length_le
    rw [hline] at hshort
    rw [hinner, ih m (by omega) _ (hshort.trans hm), ih es.length (by omega) _ hshort]

/-- The head of the line is admitted, meets its interlock, and the pass goes on. -/
theorem runPass_admitted {s : State} {e : LineEntry} {es : List LineEntry} (hl : s.wau.line = e :: es) (hf : s.fits e.saw = true) :
    s.runPass = ((((s.withWau fun a => { a with line := es }).admitSaw e.saw).enterCut e.saw).settleInterlock State.runPass
      e.saw).runPass := by
  set entered := ((s.withWau fun a => { a with line := es }).admitSaw e.saw).enterCut e.saw with hentered
  have hline : entered.wau.line = es := enterCut_admitted_line s e.saw es
  have hpass : s.runPass = admissionPass es.length (entered.settleInterlock (admissionPass es.length) e.saw) := by
    rw [State.runPass, hl, List.length_cons]
    simp only [admissionPass, hl, hf, if_true]
    rfl
  have hinner : entered.settleInterlock (admissionPass es.length) e.saw = entered.settleInterlock State.runPass e.saw :=
    settleInterlock_congr e.saw fun t ht => admissionPass_eq_runPass _ t (by rw [ht, hline])
  rw [hpass, hinner]
  refine admissionPass_eq_runPass _ _ ((settleInterlock_line (fun t => admissionPass_line _ t) entered e.saw).length_le.trans ?_)
  rw [hline]

theorem runPass_stays {s : State} {e : LineEntry} {es : List LineEntry} (hl : s.wau.line = e :: es) (hf : s.fits e.saw ≠ true) :
    s.runPass = s := by
  rw [State.runPass, hl, List.length_cons]
  simp only [admissionPass, hl]
  exact if_neg hf

theorem removeFromLine_absent {s : State} {w : Saw} (h : ∀ e ∈ s.wau.line, e.saw ≠ w) : s.removeFromLine w = s := by
  refine if_neg ?_
  simpa [Admission.inLine] using h

theorem inLine_iff {a : Admission} {w : Saw} : a.inLine w = true ↔ ∃ e ∈ a.line, e.saw = w := by
  simp [Admission.inLine]

/-- A HELD entry of the saw stands in the line. -/
theorem any_held_iff {line : List LineEntry} {w : Saw} :
    (line.any fun e => e.saw == w && e.kind == .held) = true ↔ ⟨w, .held⟩ ∈ line := by
  simp only [List.any_eq_true, Bool.and_eq_true, beq_iff_eq]
  exact ⟨fun ⟨⟨v, k⟩, he, hv, hk⟩ => by obtain ⟨rfl, rfl⟩ := And.intro hv hk; exact he, fun h => ⟨_, h, rfl, rfl⟩⟩

/-- Settles O43: the pass is unrolled at the head of the line, and a removal runs it on the line without the saw. -/
theorem admissionPass_holds : Obligations.AdmissionPass := by
  intro s
  refine ⟨fun hl => ?_, fun e es hl => ?_, fun w => ⟨removeFromLine_absent, fun h => ?_⟩⟩
  · simp [State.runPass, hl, admissionPass]
  · dsimp only
    set u := s.withWau fun a =>
        { a with line := es, allotment := a.allotment.set e.saw (some (s.saw e.saw).demand),
                 order := (a.order.filter fun v => v != e.saw) ++ [e.saw], permit := a.permit.set e.saw true } with hu
    have hadmitted : (s.withWau fun a => { a with line := es }).admitSaw e.saw = u := rfl
    have hinterlock : ((u.enterCut e.saw).saw e.saw).interlock = (s.saw e.saw).interlock := (Kept.enterCut u e.saw).interlock e.saw
    have hactive : u.activePass? e.saw = s.activePass? e.saw := rfl
    refine ⟨fun hf => runPass_stays hl (fits_iff.not.2 hf), fun hf hi => ?_, fun hf hi => ?_, fun ha => ?_,
      fun o os p q ha ho hp hq => ?_⟩
    · rw [runPass_admitted hl (fits_iff.2 hf), hadmitted, settleInterlock_asserted (hinterlock.trans hi)]
    · rw [runPass_admitted hl (fits_iff.2 hf), hadmitted, State.settleInterlock, if_neg]
      simp [hinterlock, hi]
    · exact if_pos (by rw [hactive]; exact Option.isSome_iff_ne_none.2 ha)
    · have hgo : u.enterCut e.saw = u.grantGo e.saw := if_neg (by rw [hactive, ha]; exact Bool.false_ne_true)
      have hnone : p.activePass? = none := by
        by_contra hsome
        obtain ⟨x, hx⟩ := Option.ne_none_iff_exists'.1 hsome
        exact nomatch ha.symm.trans (activePass?_of_head hp hx)
      rw [hgo]
      exact grantGo_eq (s := u) ho hp (by simpa [Plan.activePass?] using hnone) hq
  · rw [State.removeFromLine, if_pos (inLine_iff.2 h)]
    refine congrArg State.runPass ?_
    simp only [State.withWau, Admission.remove, any_held_iff]
    rfl

end Sys2Proof.Machine
end

section
/-! PROOFS. What a layout that passes leaves of the slab (R78 to R83), the number and the record a remnant takes (R17, R23, R24),
and the two ends of a hold (R117, R118). -/

namespace Sys2Proof.Machine

/-! ## A remnant's number and record (R17, R23, R24) -/

/-- Settles O6: the number is the first free one at or after the counter, which the table always leaves. -/
theorem remnantNumbering : Obligations.RemnantNumbering := by
  intro s parent r part ht hr
  have hnumber : r.number = parent := (findBy_some hr).2
  have hmax : Config.maxSlabs = 1024 := rfl
  refine ⟨fun hfull => ?_, fun hroom => ?_⟩
  · simp only [State.createRemnant, hr]
    rw [if_pos (hmax ▸ hfull)]
  obtain ⟨k, hk, hfree, hnone, hbefore⟩ :=
    freeRemnant_spec s.stk.slabs ht.counter (hroom.trans (by decide))
  have hcreated : s.createRemnant parent part =
      (some (remnantAt s.stk.counter k), { s with stk := { s.stk with
        slabs := insertBy Slab.number (remnantRecord (remnantAt s.stk.counter k) r part) s.stk.slabs
        counter := nextRemnant (remnantAt s.stk.counter k) } }) := by
    simp only [State.createRemnant, hr, hfree]
    rw [if_neg (hmax ▸ Nat.not_le.2 hroom)]
    rfl
  have hlook (m : Nat) := findBy_insertBy (r := remnantRecord (remnantAt s.stk.counter k) r part) hnone m
  refine ⟨k, remnantAt s.stk.counter k, _, hcreated, by omega, by rw [remnantAt], hnone, fun j hj => ?_, ?_, ?_, fun m hm => ?_,
    rfl⟩
  · rw [← remnantAt]
    exact hbefore j hj
  · dsimp only
    rw [nextRemnant_at]
    simp only [remnantAt]
    omega
  · rw [State.slab?, ← hnumber]
    exact (hlook _).trans (if_pos rfl)
  · rw [State.slab?]
    exact (hlook m).trans (if_neg hm)

/-! ## A layout that passes (R68 to R83) -/

section Layout

variable {i : LayoutInput}

/-- Pieces that pass fit the length with the kerfs between them, and leave some of it where one has a cross pass (R69, R75). -/
theorem checkPieces_fit (hk : 0 < i.kerf) {s y w j x : Nat} {ps : List Piece} (h : checkPieces i s y w j x ps = none)
    (hne : ps ≠ []) :
    x + (ps.map Piece.length).sum ≤ i.length ∧ (crossPieces i s w x ps ≠ [] → x + (ps.map Piece.length).sum < i.length) := by
  induction ps generalizing x j with
  | nil => exact absurd rfl hne
  | cons p ps ih =>
    rw [checkPieces] at h
    split at h
    · cases h
    next hl =>
    split at h
    case h_2 => cases h
    rw [List.map_cons, List.sum_cons, crossPieces]
    cases ps with
    | nil =>
      refine ⟨by simpa using hl, fun hc => ?_⟩
      have hx : x + p.length < i.length := by simpa [crossPieces] using hc
      simpa using hx
    | cons p' ps =>
      obtain ⟨hle, -⟩ := ih h (List.cons_ne_nil _ _)
      exact ⟨by omega, fun _ => by omega⟩

/-- The area of a strip's pieces. -/
theorem stripArea_eq (t : Strip) : (t.pieces.map fun p => p.length * t.width).sum = (t.pieces.map Piece.length).sum * t.width :=
  List.sum_map_mul_right ..

theorem lastFarEdge_cons_cons (kerf y : Nat) (t t' : Strip) (ts : List Strip) :
    lastFarEdge kerf y (t :: t' :: ts) = lastFarEdge kerf (y + t.width + kerf) (t' :: ts) := rfl

/-- Strips that pass fit the width with the kerfs between them, and their pieces fit them; a rip pass leaves some of the width,
a cross pass some of a strip (R68, R74, R75). -/
theorem checkStrips_fit (hk : 0 < i.kerf) {s y : Nat} {ts : List Strip} (h : checkStrips i s y ts = none) (hne : ts ≠ [])
    (hform : ∀ t ∈ ts, 0 < t.width ∧ t.pieces ≠ []) :
    y + (ts.map Strip.width).sum ≤ lastFarEdge i.kerf y ts ∧ lastFarEdge i.kerf y ts ≤ i.width ∧
      (ripPasses i s y ts ≠ [] → y + (ts.map Strip.width).sum < i.width) ∧
      pieceArea ts ≤ i.length * (ts.map Strip.width).sum ∧
      (crossPasses i s ts ≠ [] → pieceArea ts < i.length * (ts.map Strip.width).sum) := by
  induction ts generalizing y s with
  | nil => exact absurd rfl hne
  | cons t ts ih =>
    obtain ⟨hwidth, hpieces⟩ := hform t (.head _)
    rw [checkStrips] at h
    split at h
    · cases h
    next hw =>
    split at h
    · cases h
    next hchecked =>
    obtain ⟨hfit, hcross⟩ := checkPieces_fit hk hchecked hpieces
    rw [Nat.zero_add] at hfit
    have harea : pieceArea (t :: ts) = (t.pieces.map Piece.length).sum * t.width + pieceArea ts := by
      rw [pieceArea, List.map_cons, List.sum_cons, stripArea_eq]
      rfl
    have hstrip : (t.pieces.map Piece.length).sum * t.width ≤ i.length * t.width := Nat.mul_le_mul_right _ hfit
    have hshort (hc : crossPieces i s t.width 0 t.pieces ≠ []) :
        (t.pieces.map Piece.length).sum * t.width < i.length * t.width := by
      have hx := hcross hc
      rw [Nat.zero_add] at hx
      exact Nat.mul_lt_mul_of_pos_right hx hwidth
    rw [harea, List.map_cons, List.sum_cons, Nat.mul_add, ripPasses, crossPasses]
    cases ts with
    | nil =>
      refine ⟨by simp [lastFarEdge], by simpa [lastFarEdge] using hw, fun hr => ?_, by simpa [pieceArea] using hstrip,
        fun hc => ?_⟩
      · have hx : y + t.width < i.width := by simpa [ripPasses] using hr
        simpa using hx
      · simpa [pieceArea] using hshort (by simpa [crossPasses] using hc)
    | cons t' ts =>
      obtain ⟨hsum, hfar, -, hrest, hcrossed⟩ := ih h (List.cons_ne_nil _ _) fun u hu => hform u (.tail _ hu)
      rw [lastFarEdge_cons_cons]
      refine ⟨by omega, hfar, fun _ => by omega, by omega, fun hc => ?_⟩
      by_cases hfirst : crossPieces i s t.width 0 t.pieces = []
      · have hlater := hcrossed (by simpa [hfirst] using hc)
        omega
      · have hx := hshort hfirst
        omega

theorem numberPasses_fresh {n : Nat} {qs : List Pass} (h : ∀ q ∈ qs, q.state = .pending ∧ q.reached = 0) :
    ∀ q ∈ numberPasses n qs, q.state = .pending ∧ q.reached = 0 := by
  induction qs generalizing n with
  | nil => exact h
  | cons q qs ih =>
    rw [numberPasses, List.forall_mem_cons]
    exact ⟨h q (.head _), ih fun x hx => h x (.tail _ hx)⟩

theorem ripPasses_fresh (s y : Nat) (ts : List Strip) : ∀ q ∈ ripPasses i s y ts, q.state = .pending ∧ q.reached = 0 := by
  induction ts generalizing s y with
  | nil => exact nofun
  | cons t ts ih =>
    rw [ripPasses, List.forall_mem_append]
    refine ⟨fun q hq => ?_, ih _ _⟩
    split at hq
    · rw [List.mem_singleton.1 hq]
      exact ⟨rfl, rfl⟩
    · cases hq

theorem crossPieces_fresh (s w x : Nat) (ps : List Piece) :
    ∀ q ∈ crossPieces i s w x ps, q.state = .pending ∧ q.reached = 0 := by
  induction ps generalizing x with
  | nil => exact nofun
  | cons p ps ih =>
    rw [crossPieces, List.forall_mem_append]
    refine ⟨fun q hq => ?_, ih _⟩
    split at hq
    · rw [List.mem_singleton.1 hq]
      exact ⟨rfl, rfl⟩
    · cases hq

theorem crossPasses_fresh (s : Nat) (ts : List Strip) : ∀ q ∈ crossPasses i s ts, q.state = .pending ∧ q.reached = 0 := by
  induction ts generalizing s with
  | nil => exact nofun
  | cons t ts ih =>
    rw [crossPasses, List.forall_mem_append]
    exact ⟨crossPieces_fresh _ _ _ _, ih _⟩

/-- Every pass of a layout starts PENDING at 0. -/
theorem passList_fresh (i : LayoutInput) : ∀ q ∈ passList i, q.state = .pending ∧ q.reached = 0 :=
  numberPasses_fresh (List.forall_mem_append.2 ⟨ripPasses_fresh _ _ _, crossPasses_fresh _ _⟩)

theorem passList_ne_nil (h : passList i ≠ []) : ripPasses i 1 0 i.strips ≠ [] ∨ crossPasses i 1 i.strips ≠ [] := by
  by_contra hno
  obtain ⟨hrips, hcrosses⟩ := not_or.1 hno
  rw [not_not] at hrips hcrosses
  exact h (by rw [passList, hrips, hcrosses]; rfl)

/-- The remnant's dimensions: the whole length, and the tail beyond the last kerf (R79, R80). -/
theorem layoutRemnant_some {x : RemnantPart} (h : layoutRemnant i = some x) :
    x.length = i.length ∧ 200 ≤ x.width ∧ x.width + (lastFarEdge i.kerf 0 i.strips + i.kerf) = i.width ∧
      x.basis = remnantBasis i.basis (x.length * x.width) (i.length * i.width) := by
  simp only [layoutRemnant] at h
  split at h
  · next ht =>
    cases h
    obtain ⟨-, htail⟩ := ht
    have hmin : (Config.minTail : Int) = 200 := rfl
    refine ⟨rfl, ?_, ?_, rfl⟩ <;> dsimp only <;> omega
  · cases h

/-- A share of an area is at most the whole basis, rounded. -/
theorem remnantBasis_le {basis part area : Nat} (hle : part ≤ area) (hpos : 0 < area) : remnantBasis basis part area ≤ basis := by
  have hmul : basis * part ≤ basis * area := Nat.mul_le_mul_left _ hle
  have hlt : 2 * basis * part + area < (basis + 1) * (2 * area) := by nlinarith
  exact Nat.le_of_lt_succ (Nat.div_lt_of_lt_mul (hlt.trans_eq (Nat.mul_comm ..)))

/-- Pieces and remnant leave part of the slab: a kerf lies between what is kept, or a pass cuts something off (R83). -/
theorem layout_wastes (hform : LayoutForm i.kerf i.strips) (hlen : 1 ≤ i.length) (hc : checkStrips i 1 0 i.strips = none)
    (hp : passList i ≠ []) :
    pieceArea i.strips + (layoutRemnant i).elim 0 (fun x => x.length * x.width) < i.length * i.width := by
  obtain ⟨⟨hk, -⟩, ⟨hcount, -⟩, hstrips, -⟩ := hform
  have hne : i.strips ≠ [] := fun h => by simp [h] at hcount
  have hparts (t : Strip) (ht : t ∈ i.strips) : 0 < t.width ∧ t.pieces ≠ [] := by
    obtain ⟨⟨hw, -⟩, ⟨hn, -⟩, -⟩ := hstrips t ht
    exact ⟨by omega, fun h => by simp [h] at hn⟩
  obtain ⟨hsum, hfar, hrip, harea, hcross⟩ := checkStrips_fit (by omega) hc hne hparts
  rw [Nat.zero_add] at hsum hrip
  cases hr : layoutRemnant i with
  | none =>
    rw [Option.elim_none, Nat.add_zero]
    rcases passList_ne_nil hp with h | h
    · exact harea.trans_lt (Nat.mul_lt_mul_of_pos_left (hrip h) hlen)
    · exact (hcross h).trans_le (Nat.mul_le_mul_left _ (hsum.trans hfar))
  | some x =>
    obtain ⟨hlength, -, hwidth, -⟩ := layoutRemnant_some hr
    rw [Option.elim_some, hlength]
    calc pieceArea i.strips + i.length * x.width ≤ i.length * ((i.strips.map Strip.width).sum + x.width) := by
          rw [Nat.mul_add]; exact Nat.add_le_add_right harea _
      _ < i.length * i.width := Nat.mul_lt_mul_of_pos_left (by omega) hlen

/-- Settles O12: what the checks leave of the slab is `layout_wastes`; the rest is read off the derived part. -/
theorem layoutConservesTheSlab : Obligations.LayoutConservesTheSlab := by
  intro i d hform hlen hl
  unfold layout at hl
  split at hl
  · cases hl
  next hc =>
  split at hl
  · cases hl
  next hp =>
  cases hl
  have hpasses : passList i ≠ [] := fun h => hp (by rw [h]; rfl)
  have hwaste := layout_wastes hform hlen hc hpasses
  have hkerf : 2 ≤ i.kerf := hform.1.1
  have hbasis : (layoutRemnant i).elim 0 RemnantPart.basis ≤ i.basis := by
    cases hr : layoutRemnant i with
    | none => exact Nat.zero_le _
    | some x =>
      obtain ⟨-, -, -, hb⟩ := layoutRemnant_some hr
      rw [hr, Option.elim_some] at hwaste
      rw [Option.elim_some, hb]
      exact remnantBasis_le (by omega) (by omega)
  refine ⟨Nat.sub_add_cancel hbasis, rfl, hpasses, passList_fresh i, hwaste, fun x hx => ?_, ?_⟩
  · obtain ⟨hlength, hmin, hwidth, -⟩ := layoutRemnant_some hx
    exact ⟨hlength, hmin, by omega⟩
  · have hpieces : pieceArea i.strips < i.length * i.width := (Nat.le_add_right _ _).trans_lt hwaste
    exact Nat.le_of_lt_succ (Nat.div_lt_of_lt_mul (by omega))

end Layout

end Sys2Proof.Machine
end

section
/-! PROOFS. The two ends of a hold: HELD and the expiry of the hold timer (R117, R118, R182). -/

namespace Sys2Proof.Machine

/-! ## A segment closed reads the saw's own record alone of the saws, and the water rate of the water (R107) -/

section Shift

/-- The state with other saw records and other water records. -/
def State.shift (d : Dispatcher) (a : Admission) (s : State) : State := { s with sdp := d, wau := a }

variable {s : State} {d : Dispatcher} {a : Admission} {w : Saw}

theorem charge_shift (n : Nat) (f : Job → Job) : (s.shift d a).charge n f = (s.charge n f).shift d a := by
  have hjob : (s.shift d a).job? n = s.job? n := rfl
  unfold State.charge
  rw [hjob]
  split
  · rfl
  · dsimp only
    unfold State.raiseIf
    split <;> rfl

theorem chargeHead_shift (hq : (d.saws.get w).queue = (s.saw w).queue) (f : Job → Job) :
    (s.shift d a).chargeHead w f = (s.chargeHead w f).shift d a := by
  have hhead : (s.shift d a).headPlan? w = s.headPlan? w := headPlan?_congr hq rfl
  unfold State.chargeHead
  rw [hhead]
  split
  · exact charge_shift ..
  · rfl

theorem testHealth_shift (n : Nat) : (s.shift d a).testHealth n = (s.testHealth n).shift d a := by
  have hblade : (s.shift d a).blade? n = s.blade? n := rfl
  cases h : s.blade? n with
  | none => simp only [State.testHealth, hblade, h]
  | some b =>
    rw [testHealth_eq (hblade.trans h), testHealth_eq h]
    cases b.advisoryDue <;> cases b.exhaustedDue <;> rfl

theorem accrueWear_shift (n p h : Nat) :
    (s.shift d a).accrueWear n p h = ((s.accrueWear n p h).1, (s.accrueWear n p h).2.shift d a) := by
  have hblade : (s.shift d a).blade? n = s.blade? n := rfl
  unfold State.accrueWear
  rw [hblade]
  split
  · rfl
  · exact congrArg (Prod.mk _) (testHealth_shift (s := s.updateBlade n (Blade.accrue p h)) n)

theorem chargeWear_shift (hq : (d.saws.get w).queue = (s.saw w).queue) (hb : (d.saws.get w).blade = (s.saw w).blade)
    (p : Nat) : (s.shift d a).chargeWear w p = (s.chargeWear w p).shift d a := by
  have hhead : (s.shift d a).headPlan? w = s.headPlan? w := headPlan?_congr hq rfl
  have hhard : (s.shift d a).headHardness w = s.headHardness w := by
    unfold State.headHardness
    rw [hhead]
    rfl
  have hblade : ((s.shift d a).saw w).blade = (s.saw w).blade := hb
  unfold State.chargeWear
  rw [hblade]
  split
  · dsimp only
    rw [hhard, accrueWear_shift]
    exact chargeHead_shift (by rw [hq, State.saw, State.saw, State.accrueWear_sdp]) _
  · rfl

/-- A segment closed does the same to the blades, the jobs and the notices whatever else the saw's record and the water hold. -/
theorem closeSegment_shift (hq : (d.saws.get w).queue = (s.saw w).queue) (hb : (d.saws.get w).blade = (s.saw w).blade)
    (hm : (d.saws.get w).meters = (s.saw w).meters) (hr : (d.saws.get w).rate = (s.saw w).rate)
    (ha : a.settings = s.wau.settings) (position : Nat) :
    (s.shift d a).closeSegment w position =
      (s.closeSegment w position).shift { d with saws := d.saws.set w (d.saws.get w).segmentClosed } a := by
  have hactive : (s.shift d a).activePass? w = s.activePass? w := activePass?_congr hq rfl
  have hmeters : ((s.shift d a).saw w).meters = (s.saw w).meters := hm
  have hrate : ((s.shift d a).saw w).rate = (s.saw w).rate := hr
  have hprogress : (s.shift d a).progress w position = s.progress w position := by
    simp only [State.progress, State.activeLength, hactive, hmeters]
  set worn := s.chargeWear w (s.progress w position) with hworn
  set settled := worn.updateSaw w fun r => { r with meters := r.meters.settle } with hsettled
  set d' : Dispatcher := { d with saws := d.saws.set w { d.saws.get w with meters := (d.saws.get w).meters.settle } } with hd'
  have hqueue' : (d'.saws.get w).queue = (s.saw w).queue := by rw [hd']; simpa using hq
  have hsettledSaw : (settled.saw w).queue = (s.saw w).queue := by
    rw [hsettled, State.saw_updateSaw_same, State.saw, hworn, State.chargeWear_sdp]
    rfl
  set timed := settled.chargeHead w (Job.chargeSawTime (s.saw w).rate (s.saw w).meters.time) with htimed
  have htimedSaw : (timed.saw w).queue = (s.saw w).queue := by
    rw [State.saw, htimed, State.chargeHead_sdp]
    exact hsettledSaw
  have hsettings : timed.wau.settings = a.settings := by
    rw [htimed, State.chargeHead_wau, hsettled, State.updateSaw_wau, hworn, State.chargeWear_wau, ha]
  have hfirst : (s.shift d a).chargeWear w (s.progress w position) = worn.shift d a := chargeWear_shift hq hb _
  have hsecond : (settled.shift d' a).chargeHead w (Job.chargeSawTime (s.saw w).rate (s.saw w).meters.time) = timed.shift d' a :=
    chargeHead_shift (hqueue'.trans hsettledSaw.symm) _
  have hthird : (timed.shift d' a).chargeHead w (Job.chargeWater a.settings.waterRate (s.saw w).meters.volume) =
      (timed.chargeHead w (Job.chargeWater a.settings.waterRate (s.saw w).meters.volume)).shift d' a :=
    chargeHead_shift (hqueue'.trans htimedSaw.symm) _
  have hclosed : s.closeSegment w position =
      (timed.chargeHead w (Job.chargeWater timed.wau.settings.waterRate (s.saw w).meters.volume)).updateSaw w fun r =>
        { r with passTime := satAdd Config.maxTime r.passTime (s.saw w).meters.time
                 meters := { r.meters with isOpen := false, time := 0, startAt := 0 } } := rfl
  have hshifted : (s.shift d a).closeSegment w position =
      ((timed.shift d' a).chargeHead w (Job.chargeWater a.settings.waterRate (s.saw w).meters.volume)).updateSaw w fun r =>
        { r with passTime := satAdd Config.maxTime r.passTime (s.saw w).meters.time
                 meters := { r.meters with isOpen := false, time := 0, startAt := 0 } } := by
    unfold State.closeSegment
    dsimp only
    rw [hprogress, hmeters, hrate, hfirst, show (worn.shift d a).updateSaw w (fun r => { r with meters := r.meters.settle }) =
      settled.shift d' a from rfl, hsecond]
    rfl
  rw [hshifted, hthird, hclosed, hsettings]
  generalize timed.chargeHead w (Job.chargeWater a.settings.waterRate (s.saw w).meters.volume) = charged
  simp only [State.shift, State.updateSaw, hd', Four.set_set, Four.get_set_same, SawRec.segmentClosed, ← hm]

end Shift

/-! ## HELD (R117, R182) -/

section Held

/-- A HELD entry stands behind the entries that may go before it: those HELD and not later in the order (R182). -/
theorem placeHeld_split (order : List Saw) (w : Saw) (line : List LineEntry) : ∃ before after : List LineEntry,
    line = before ++ after ∧ placeHeld order w line = before ++ ⟨w, .held⟩ :: after ∧
      (∀ e ∈ before, e.kind = .held ∧ ¬ order.idxOf w < order.idxOf e.saw) ∧
      ∀ e ∈ after.head?, e.kind = .started ∨ order.idxOf w < order.idxOf e.saw := by
  induction line with
  | nil => exact ⟨[], [], rfl, rfl, nofun, nofun⟩
  | cons e es ih =>
    unfold placeHeld
    split
    · next h =>
      refine ⟨[], e :: es, rfl, rfl, nofun, fun x hx => ?_⟩
      cases hx
      simpa [laterIn] using h
    · next h =>
      obtain ⟨before, after, rfl, hplaced, hbefore, hafter⟩ := ih
      obtain ⟨hkind, hlater⟩ : e.kind ≠ .started ∧ ¬ order.idxOf w < order.idxOf e.saw := by simpa [laterIn] using h
      refine ⟨e :: before, after, rfl, by rw [hplaced]; rfl, fun x hx => ?_, hafter⟩
      rcases List.mem_cons.1 hx with rfl | hx
      · refine ⟨?_, hlater⟩
        cases hk : x.kind with
        | started => exact absurd hk hkind
        | held => rfl
      · exact hbefore x hx

variable {s : State} {w : Saw} {p : Plan} {q : Pass}

theorem acked_activeTag? (s : State) (w : Saw) (kind : Byte) (st : Status) :
    (s.acked w kind st).activeTag? w = s.activeTag? w :=
  activeTag?_congr (s := s) (acked_queue w) rfl (by rw [acked_saw])

theorem checkHeld_sawFrame (s : State) (w : Saw) (tag : Nat) : checkHeld w tag (s.sawFrame w) = checkHeld w tag s := by
  have hsaw : (s.sawFrame w).saw w = { s.saw w with heartbeat := 0 } := State.saw_updateSaw_same ..
  have htag : (s.sawFrame w).activeTag? w = s.activeTag? w := activeTag?_congr (by rw [hsaw]) rfl (by rw [hsaw])
  unfold checkHeld
  rw [htag, hsaw]

/-- The saw records with the hold timer of one saw stopped. -/
def State.stopped (s : State) (w : Saw) : Dispatcher :=
  { s.sdp with saws := s.sdp.saws.set w { s.saw w with holdTimer := none } }

/-- The segment closed with the timer stopped is the segment closed, but for the timer. -/
theorem stopped_closeSegment {a : Admission} (ha : a.settings = s.wau.settings) (position : Nat) :
    (s.shift (s.stopped w) a).closeSegment w position =
      ((s.closeSegment w position).withWau fun _ => a).updateSaw w fun r => { r with holdTimer := none } := by
  rw [closeSegment_shift (by simp [State.stopped]) (by simp [State.stopped]) (by simp [State.stopped]) (by simp [State.stopped]) ha]
  simp only [State.shift, State.withWau, State.updateSaw, closeSegment_sdp, State.stopped, Four.get_set_same, Four.set_set,
    SawRec.segmentClosed]

theorem withWau_self {t : State} (h : t.wau = s.wau) : (t.withWau fun _ => s.wau) = t := by
  rw [← h]
  rfl

theorem faultClosed_stopped (ha : s.activePass? w = some (p, q)) (position : Nat) :
    s.faultClosed w position = ((s.updatePass p.number q.index (Pass.reach position)).closeSegment w position).updateSaw w
      fun r => { r with holdTimer := none } := by
  rw [faultClosed_eq ha]
  refine (stopped_closeSegment (s := s.updatePass p.number q.index (Pass.reach position)) (a := s.wau) rfl position).trans ?_
  rw [withWau_self (by simp)]

/-- The state a HELD leaves before its admission pass. -/
def State.heldAt (s : State) (w : Saw) (position : Nat) : State :=
  ((((s.faultClosed w position).writeContext w .hold none 0).setSawState w .held).raise .sawHeld).withWau
    (Admission.holdComplete w)

theorem held_eq (position : Nat) : held w position s = (s.heldAt w position).runPass := rfl

/-- The record of a HELD saw whose segment is closed: its timer stopped, a HOLD context of its ACTIVE pass (R113, R117). -/
def SawRec.heldWith (part : PassPart) (r : SawRec) : SawRec :=
  { r with state := .held, holdTimer := none, context := some ⟨.hold, none, some part, r.passTime, 0⟩ }

theorem heldAt_eq (ha : s.activePass? w = some (p, q)) (position : Nat) : s.heldAt w position =
    (((((s.updatePass p.number q.index (Pass.reach position)).closeSegment w position).updateSaw w (SawRec.heldWith
      ⟨p.number, q.index, s.activeTag? w, max q.reached (min position q.length),
        q.length - max q.reached (min position q.length)⟩)).raise .sawHeld).withWau (Admission.holdComplete w)) := by
  have hactive := faultClosed_activePass? (position := position) ha
  have htag : (s.faultClosed w position).activeTag? w = s.activeTag? w := by
    rw [activeTag?_eq hactive, activeTag?_eq ha, faultClosed_saw]
    rfl
  rw [State.heldAt, writeContext_eq hactive, htag, State.setSawState, updateSaw_updateSaw, faultClosed_stopped ha,
    updateSaw_updateSaw]
  rfl

end Held

section Expiry

variable {s : State} {w : Saw} {p : Plan} {q : Pass}

/-- The timer of a HOLDING saw expires: the end of the hold and the segment closed at the reached, then the context (R118). -/
theorem holdTimerExpiry_eq (hx : (s.saw w).state = .holding) (ha : s.activePass? w = some (p, q)) :
    holdTimerExpiry w s = ((((s.closeSegment w q.reached).withWau (Admission.endHold w)).updateSaw w fun x =>
      { x with holdTimer := none, state := .faulted, context := some ⟨.fault, some .holdTimeout,
        some ⟨p.number, q.index, s.activeTag? w, q.reached, q.length - q.reached⟩, x.passTime, 1⟩ }).raise .sawFault) := by
  have hsaw : (s.shift (s.stopped w) (Admission.endHold w s.wau)).saw w = { s.saw w with holdTimer := none } :=
    Four.get_set_same ..
  have hactive : (s.shift (s.stopped w) (Admission.endHold w s.wau)).activePass? w = some (p, q) :=
    (activePass?_congr (s := s) (t := s.shift (s.stopped w) (Admission.endHold w s.wau)) (by rw [hsaw]) rfl).trans ha
  have hreached := reached_eq hactive
  have hclosed := stopped_closeSegment (s := s) (w := w) (a := Admission.endHold w s.wau) rfl q.reached
  have hexpired : holdTimerExpiry w s = ((((s.shift (s.stopped w) (Admission.endHold w s.wau)).closeSegment w
      ((s.shift (s.stopped w) (Admission.endHold w s.wau)).reached w)).writeContext w .fault (some .holdTimeout) 1).setSawState w
        .faulted).raise .sawFault := by
    simp only [holdTimerExpiry, hx]
    rfl
  rw [hreached, hclosed] at hexpired
  have hended : ((s.closeSegment w q.reached).withWau fun _ => Admission.endHold w s.wau) =
      (s.closeSegment w q.reached).withWau (Admission.endHold w) := by
    rw [State.withWau, State.withWau, State.closeSegment_wau]
  rw [hended] at hexpired
  have hactive' : (((s.closeSegment w q.reached).withWau (Admission.endHold w)).updateSaw w fun r =>
      { r with holdTimer := none }).activePass? w = some (p, q) :=
    (updateSaw_activePass? _ w fun r => { r with holdTimer := none }).trans
      ((activePass?_congr ((Kept.closeSegment s w q.reached).queue w) (State.closeSegment_pln ..)).trans ha)
  have htag : (((s.closeSegment w q.reached).withWau (Admission.endHold w)).updateSaw w fun r =>
      { r with holdTimer := none }).activeTag? w = s.activeTag? w := by
    rw [activeTag?_eq hactive', activeTag?_eq ha, State.saw_updateSaw_same, State.saw_withWau, closeSegment_saw]
    rfl
  rw [hexpired, writeContext_eq hactive', htag, State.setSawState, updateSaw_updateSaw, updateSaw_updateSaw]

end Expiry

/-- Settles O28: both ends close the segment with the timer stopped; HELD takes its place in the line, the expiry is a fault. -/
theorem holdEnds : Obligations.HoldEnds := by
  refine ⟨fun s w tag position hs => ?_, fun s w hr => ?_⟩
  · dsimp only
    have hsaw : (s.acked w Kind.held .ok).saw w = { s.saw w with heartbeat := 0 } := acked_saw ..
    refine ⟨fun h => ?_, fun p q hx htag ha => ?_⟩
    · have hc : checkHeld w tag s = some .stale := if_pos h
      exact sawMessage_refused hs Kind.held ((checkHeld_sawFrame s w tag).trans hc) (held w position)
    have hc : checkHeld w tag s = none := if_neg (not_or.2 ⟨not_not.2 hx, not_not.2 htag⟩)
    have hexec : exec (.held w tag position) s = .next ((s.acked w Kind.held .ok).heldAt w position).runPass :=
      sawMessage_taken hs Kind.held ((checkHeld_sawFrame s w tag).trans hc) (held w position)
    have hactive := (acked_activePass? s w Kind.held .ok).trans ha
    obtain ⟨before, after, hline, hplaced, hbefore, hafter⟩ := placeHeld_split s.wau.order w s.wau.line
    rw [heldAt_eq hactive, acked_activeTag?, htag] at hexec
    set closed := ((s.acked w Kind.held .ok).updatePass p.number q.index (Pass.reach position)).closeSegment w position
      with hclosed
    have hwau : closed.wau = s.wau := by rw [hclosed, State.closeSegment_wau]; rfl
    refine ⟨_, before, after, hexec, State.saw_updateSaw_same .., hline, ?_, hbefore, hafter, ?_⟩
    · rw [← hplaced, ← hwau]
      rfl
    · rw [State.saw_withWau, State.saw_raise, State.saw_updateSaw_same, ← hwau]
      rfl
  · dsimp only
    refine ⟨fun hx => (event_running hr _).trans (congrArg _ ?_), fun p q hx ha =>
      (event_running hr _).trans (congrArg _ (holdTimerExpiry_eq hx ha))⟩
    unfold holdTimerExpiry
    split
    · next h => exact absurd h hx
    · rfl

end Sys2Proof.Machine
end

section
/-! PROOFS. CANCEL PLAN and ABANDON PLAN (R57, R59, R96, R130): what each leaves of the plan, its slab, its job and its saw. -/

namespace Sys2Proof.Machine

/-! ## The saw's side of a plan given up (R49, R95, R96) -/

section Unload

variable {s : State} {w : Saw} {n : Nat}

/-- The saws' records and frames once UNLOAD has gone out, where the link is UP, and the saw's record is the one given. -/
def State.unloaded (s : State) (w : Saw) (n : Nat) (r : SawRec) : Dispatcher :=
  { s.sdp with
    saws := s.sdp.saws.set w r
    queued := if (s.saw w).link = .up then s.sdp.queued.set w (s.sdp.queued.get w ++ [⟨Kind.unload, none, [.u16 n]⟩])
      else s.sdp.queued }

/-- UNLOAD with the pending load cleared. -/
theorem unload_cleared (s : State) (w : Saw) (n : Nat) :
    (s.unload w n).updateSaw w (fun r => { r with pendingLoad := none }) =
      { s with sdp := s.unloaded w n { s.saw w with pendingLoad := none } } := by
  unfold State.unload State.unloaded
  cases (s.saw w).link with
  | up =>
    rw [updateSaw_updateSaw]
    rfl
  | down => rfl

/-- UNLOAD for a saw with no pending load. -/
theorem unload_of_none (h : (s.saw w).pendingLoad = none) :
    s.unload w n = { s with sdp := s.unloaded w n (s.saw w) } := by
  have hcleared := unload_cleared s w n
  have hfixed : { s.saw w with pendingLoad := none } = s.saw w := by rw [← h]
  have hkept : ((s.unload w n).saw w).pendingLoad = none := by
    unfold State.unload
    split
    · rw [State.saw_updateSaw_same, State.saw_send, h]
      rfl
    · exact h
  rw [hfixed, updateSaw_of_fixed (by rw [← hkept])] at hcleared
  exact hcleared

/-- The frames queued, written for the one saw. -/
theorem unloaded_queued (s : State) (w : Saw) (n : Nat) (r : SawRec) : (s.unloaded w n r).queued =
    s.sdp.queued.set w (if (s.saw w).link = .up then s.sdp.queued.get w ++ [⟨Kind.unload, none, [.u16 n]⟩]
      else s.sdp.queued.get w) := by
  unfold State.unloaded
  split
  · rfl
  · exact (Four.set_get ..).symm

/-- The records and frames after UNLOAD read the link of the saw and the frames of its state alone. -/
theorem unloaded_congr {t : State} {r' : SawRec} (hsaws : t.sdp = { s.sdp with saws := s.sdp.saws.set w r' })
    (hlink : r'.link = (s.saw w).link) (r : SawRec) : t.unloaded w n r = s.unloaded w n r := by
  have hlink' : (t.saw w).link = (s.saw w).link := by rw [State.saw, hsaws, Four.get_set_same, hlink]
  simp only [State.unloaded, hlink', hsaws, Four.set_set]

end Unload

/-! ## CANCEL PLAN (R57, R96, R97) -/

section CancelPlan

variable {s : State} {number : Nat} {p : Plan} {w : Saw}

/-- The plan CANCELLED, its slab free again and its pieces no longer planned (R19, R57, R206). -/
def State.cancelled (s : State) (p : Plan) (number : Nat) : State :=
  (s.undoCheck p).updatePlan number fun p => { p with state := .cancelled }

/-- The plan off its saw's queue, with the saws' records as given (R49). -/
def State.withdrawn (s : State) (number : Nat) (d : Dispatcher) : State :=
  { s.updatePlan number fun p => { p with saw := none } with sdp := d }

/-- The saw's record without the plan in its queue. -/
def SawRec.without (number : Nat) (r : SawRec) : SawRec := { r with queue := r.queue.filter fun m => m != number }

theorem leaveQueue_eq (s : State) (w : Saw) (number : Nat) :
    s.leaveQueue w number = s.withdrawn number { s.sdp with saws := s.sdp.saws.set w ((s.saw w).without number) } := rfl

theorem cancelPlan_released (hp : s.plan? number = some p) (hx : p.state = .released) (hw : p.saw = some w) :
    cancelPlan number s = performed [] (((s.cancelled p number).leaveQueue w number).cancelLoad w number) := by
  simp only [cancelPlan, hp, hx, hw]
  rfl

/-- A cancelled plan whose LOAD is not pending leaves the queue and no more. -/
theorem cancelLoad_idle (h : (s.saw w).pendingLoad ≠ some number) :
    (s.leaveQueue w number).cancelLoad w number =
      s.withdrawn number { s.sdp with saws := s.sdp.saws.set w ((s.saw w).without number) } := by
  have hsaw : (s.leaveQueue w number).saw w = (s.saw w).without number := Four.get_set_same ..
  rw [State.cancelLoad, if_neg (by rw [hsaw]; exact h)]
  rfl

/-- A cancelled plan whose LOAD is pending is unloaded, and a LOADING saw goes on to its next head (R96, R97). -/
theorem cancelLoad_pending (h : (s.saw w).pendingLoad = some number) :
    (s.leaveQueue w number).cancelLoad w number =
      if (s.saw w).state = .loading then
        (s.withdrawn number (s.unloaded w number { (s.saw w).without number with pendingLoad := none, state := .idle })).loadHead w
      else s.withdrawn number (s.unloaded w number { (s.saw w).without number with pendingLoad := none }) := by
  have hsaw : (s.leaveQueue w number).saw w = (s.saw w).without number := Four.get_set_same ..
  have hcleared : ((s.leaveQueue w number).unload w number).updateSaw w (fun r => { r with pendingLoad := none }) =
      s.withdrawn number (s.unloaded w number { (s.saw w).without number with pendingLoad := none }) := by
    rw [unload_cleared, hsaw, unloaded_congr (s := s) (r' := (s.saw w).without number) rfl rfl]
    rfl
  have hleft : (s.withdrawn number (s.unloaded w number { (s.saw w).without number with pendingLoad := none })).saw w =
      { (s.saw w).without number with pendingLoad := none } := Four.get_set_same ..
  rw [State.cancelLoad, if_pos (by rw [hsaw]; exact h)]
  dsimp only
  rw [hcleared, hleft]
  refine if_congr Iff.rfl ?_ rfl
  rw [State.goOn, State.setSawState]
  refine congrArg (State.loadHead · w) ?_
  simp only [State.updateSaw, State.withdrawn, State.unloaded, Four.get_set_same, Four.set_set]

/-- What every cancelled plan leaves of the slab, the job and the other plans, whatever the saws' records become. -/
theorem cancelled_spec (hp : s.plan? number = some p) (d : Dispatcher) :
    let u := (s.cancelled p number).withdrawn number d
    u.slab? p.slab = (s.slab? p.slab).map (fun r => { r with state := .available, plan := none }) ∧
      (∀ n, n ≠ p.slab → u.slab? n = s.slab? n) ∧
      u.job? p.job = (s.job? p.job).map (fun j => { j with
        planned := if 65535 ≤ j.planned then j.planned else j.planned - pieceCount p.strips }) ∧
      (∀ n, n ≠ p.job → u.job? n = s.job? n) ∧ (∀ n, n ≠ number → u.plan? n = s.plan? n) ∧
      u = { s with pln := u.pln, jcu := u.jcu, sdp := u.sdp, stk := { s.stk with slabs := u.stk.slabs } } ∧
      u.plan? number = some { p with state := .cancelled, saw := none } := by
  obtain ⟨hslab, hslabs, hjob, hjobs⟩ := undoCheck_spec s p
  refine ⟨hslab, hslabs, hjob, hjobs, fun n hn => ?_, rfl, ?_⟩
  · exact (updatePlan_plan?_ne (s.cancelled p number) (fun p => { p with saw := none }) hn).trans
      (updatePlan_plan?_ne (s.undoCheck p) (fun p => { p with state := .cancelled }) hn)
  · refine (updatePlan_plan?_self (s.cancelled p number) number fun p => { p with saw := none }).trans ?_
    have hcancelled : (s.cancelled p number).plan? number = (s.plan? number).map fun p => { p with state := .cancelled } :=
      updatePlan_plan?_self (s.undoCheck p) number fun p => { p with state := .cancelled }
    rw [hcancelled, hp]
    rfl

/-- Settles O15: each state of the plan by its branch; a RELEASED plan leaves its saw as `cancelLoad_idle` and
`cancelLoad_pending` say. -/
theorem cancelPlan_holds : Obligations.CancelPlan := by
  intro s number hs
  dsimp only
  have hi : exec (.cancelPlan number) s = hostRequest Kind.cancelPlan (cancelPlan number) s := rfl
  refine ⟨fun hn => hs.refuses hi (by simp only [cancelPlan, hn]), fun p hp => ⟨fun hx => hs.refuses hi ?_, fun hx => ?_,
    fun hx => ?_⟩⟩
  · rcases hx with hx | hx | hx | hx <;> simp only [cancelPlan, hp, hx]
  · have hperformed : cancelPlan number s = performed [] (s.updatePlan number fun p => { p with state := .cancelled }) := by
      simp only [cancelPlan, hp, hx]
    refine ⟨_, hs.performs hi hperformed, ?_, fun n hn => updatePlan_plan?_ne s _ hn, rfl⟩
    exact (updatePlan_plan?_self s number fun p => { p with state := .cancelled }).trans (by rw [hp]; rfl)
  rcases hx with hx | hx
  · obtain ⟨hslab, hslabs, hjob, hjobs⟩ := undoCheck_spec s p
    have hperformed : cancelPlan number s = performed [] (s.cancelled p number) := by
      simp only [cancelPlan, hp, hx]
      rfl
    refine ⟨s.cancelled p number, hslab, hslabs, hjob, hjobs, fun n hn => ?_, rfl, fun _ => ⟨?_, rfl, hs.performs hi hperformed⟩,
      fun w hr => nomatch hx.symm.trans hr⟩
    · exact updatePlan_plan?_ne (s.undoCheck p) (fun p => { p with state := .cancelled }) hn
    · exact (updatePlan_plan?_self (s.undoCheck p) number fun p => { p with state := .cancelled }).trans
        (congrArg (Option.map _) hp)
  have spec := cancelled_spec (number := number) hp
  dsimp only at spec
  cases hw : p.saw with
  | none =>
    obtain ⟨hslab, hslabs, hjob, hjobs, hplans, hframe, -⟩ := spec s.sdp
    exact ⟨_, hslab, hslabs, hjob, hjobs, hplans, hframe, (fun hc => nomatch hx.symm.trans hc), nofun⟩
  | some w =>
    have hreleased {t : State} (ht : ((s.cancelled p number).leaveQueue w number).cancelLoad w number = t) :
        exec (.cancelPlan number) s = .next (t.answered Kind.cancelPlan .ok []) :=
      hs.performs hi (ht ▸ cancelPlan_released hp hx hw)
    have hsaw : (s.cancelled p number).saw w = s.saw w := rfl
    have hset (r : SawRec) : (s.cancelled p number).unloaded w number r = { s.sdp with
        saws := s.sdp.saws.set w r
        queued := s.sdp.queued.set w (if (s.saw w).link = .up then
          s.sdp.queued.get w ++ [⟨Kind.unload, none, [.u16 number]⟩] else s.sdp.queued.get w) } := by
      rw [← unloaded_queued s w number r]
      rfl
    by_cases hload : (s.saw w).pendingLoad = some number
    · have hpending := cancelLoad_pending (s := s.cancelled p number) hload
      rw [hsaw] at hpending
      by_cases hloading : (s.saw w).state = .loading
      · rw [if_pos hloading] at hpending
        obtain ⟨hslab, hslabs, hjob, hjobs, hplans, hframe, hplan⟩ := spec ((s.cancelled p number).unloaded w number
          { (s.saw w).without number with pendingLoad := none, state := .idle })
        refine ⟨_, hslab, hslabs, hjob, hjobs, hplans, hframe, (fun hc => nomatch hx.symm.trans hc), fun v _ hv => ?_⟩
        cases hv
        exact ⟨hplan, fun hne => absurd hload hne, fun _ hne => absurd hloading hne, fun _ _ => ⟨hset _, hreleased hpending⟩⟩
      · rw [if_neg hloading] at hpending
        obtain ⟨hslab, hslabs, hjob, hjobs, hplans, hframe, hplan⟩ := spec ((s.cancelled p number).unloaded w number
          { (s.saw w).without number with pendingLoad := none })
        refine ⟨_, hslab, hslabs, hjob, hjobs, hplans, hframe, (fun hc => nomatch hx.symm.trans hc), fun v _ hv => ?_⟩
        cases hv
        exact ⟨hplan, fun hne => absurd hload hne, fun _ _ => ⟨hset _, hreleased hpending⟩, fun _ h => absurd h hloading⟩
    · have hidle := cancelLoad_idle (s := s.cancelled p number) hload
      obtain ⟨hslab, hslabs, hjob, hjobs, hplans, hframe, hplan⟩ := spec
        { s.sdp with saws := s.sdp.saws.set w ((s.saw w).without number) }
      refine ⟨_, hslab, hslabs, hjob, hjobs, hplans, hframe, (fun hc => nomatch hx.symm.trans hc), fun v _ hv => ?_⟩
      cases hv
      exact ⟨hplan, fun _ => ⟨rfl, hreleased hidle⟩, fun h => absurd h hload, fun h => absurd h hload⟩

end CancelPlan

/-! ## ABANDON PLAN (R59, R130, R183) -/

section AbandonPlan

variable {s : State} {number : Nat} {p : Plan} {w : Saw}

/-- The state with other plan records and other slab records. -/
def State.shelve (pln : PlanStore) (slabs : List Slab) (s : State) : State :=
  { s with pln := pln, stk := { s.stk with slabs := slabs } }

theorem charge_shelve {pln : PlanStore} {slabs : List Slab} (n : Nat) (f : Job → Job) :
    (s.shelve pln slabs).charge n f = (s.charge n f).shelve pln slabs := by
  have hjob : (s.shelve pln slabs).job? n = s.job? n := rfl
  unfold State.charge
  rw [hjob]
  split
  · rfl
  · dsimp only
    unfold State.raiseIf
    split <;> rfl

/-- A plan written off leaves the records of other plans and slabs, charges its job and lowers pieces planned (R59, R206). -/
theorem writeOff_spec (hp : s.plan? number = some p) :
    let charged := (s.charge p.job (Job.chargeStone (p.derived.elim 0 Derived.basisAtCheck))).updateJob p.job
      (Job.reducePlanned (pieceCount p.strips - p.piecesFinished))
    (s.writeOff p).slab? p.slab = (s.slab? p.slab).map (fun r => { r with state := .scrapped, plan := none }) ∧
      (∀ n, n ≠ p.slab → (s.writeOff p).slab? n = s.slab? n) ∧ (∀ n, n ≠ number → (s.writeOff p).plan? n = s.plan? n) ∧
      (s.writeOff p).plan? number = some p.giveBackAll ∧
      s.writeOff p = { charged with pln := (s.writeOff p).pln, stk := { s.stk with slabs := (s.writeOff p).stk.slabs } } := by
  have hnumber : p.number = number := plan?_number hp
  have hcharge := charge_shelve (s := s) (pln := (s.updatePlan p.number Plan.giveBackAll).pln)
    (slabs := (s.scrapOnAbandon p.slab).stk.slabs) p.job (Job.chargeStone (p.derived.elim 0 Derived.basisAtCheck))
  have hwritten : s.writeOff p = ((s.charge p.job (Job.chargeStone (p.derived.elim 0 Derived.basisAtCheck))).updateJob p.job
      (Job.reducePlanned (pieceCount p.strips - p.piecesFinished))).shelve (s.updatePlan p.number Plan.giveBackAll).pln
        (s.scrapOnAbandon p.slab).stk.slabs :=
    congrArg (State.updateJob · p.job (Job.reducePlanned (pieceCount p.strips - p.piecesFinished))) hcharge
  have hstk : (s.charge p.job (Job.chargeStone (p.derived.elim 0 Derived.basisAtCheck))).stk = s.stk := by simp
  rw [hwritten, hnumber]
  refine ⟨updateSlab_slab?_self s p.slab _, fun n hn => updateSlab_slab?_ne s _ hn, fun n hn => updatePlan_plan?_ne s _ hn,
    (updatePlan_plan?_self s number Plan.giveBackAll).trans (by rw [hp]; rfl), ?_⟩
  unfold State.shelve
  rw [State.updateJob, State.withJobs]
  dsimp only
  rw [hstk]

theorem giveBackAll_eq (p : Plan) : p.giveBackAll = { p with derived := p.derived.map fun d => { d with
    passes := d.passes.map fun q => { q with state := if q.state = .staged then .pending else q.state } } } := by
  have hpass : Pass.giveBack = fun q => { q with state := if q.state = .staged then .pending else q.state } := by
    funext q
    unfold Pass.giveBack
    split
    · next h => rw [if_pos h]
    · next h => rw [if_neg h]
  rw [Plan.giveBackAll, hpass]

/-- The saw's record cleared of its cut (R130). -/
def SawRec.cleared (r : SawRec) : SawRec :=
  { r with context := none, outstanding := [], passTime := 0, pendingLoad := none }

/-- The saw's record IDLE or OFFLINE by its link (R130). -/
def SawRec.free (r : SawRec) : SawRec := { r with state := if r.link = .up then .idle else .offline }

theorem clearSaw_eq (s : State) (w : Saw) (n : Nat) : s.clearSaw w n = { s.removeFromLine w with
    sdp := (s.removeFromLine w).unloaded w n ((s.removeFromLine w).saw w).cleared } := by
  set out := s.removeFromLine w
  have hsaw : (out.updateSaw w SawRec.cleared).saw w = (out.saw w).cleared := Four.get_set_same ..
  have hcleared : s.clearSaw w n = (out.updateSaw w SawRec.cleared).unload w n := rfl
  rw [hcleared, unload_of_none (by rw [hsaw]; rfl), hsaw,
    unloaded_congr (s := out) (t := out.updateSaw w SawRec.cleared) (r' := (out.saw w).cleared) rfl rfl]
  rfl

/-- The plan ABANDONED, its saw cleared, out of the queue and free, and UNLOAD sent (R59, R130). -/
def State.givenUp (s : State) (w : Saw) (n : Nat) : State :=
  { (s.updatePlan n fun p => { p with state := .abandoned }).updatePlan n fun p => { p with saw := none } with
    sdp := s.unloaded w n ((s.saw w).cleared.without n).free }

theorem loadHead_offline (h : (s.saw w).state = .offline) : s.loadHead w = s := by
  have hbusy : ¬ ((s.saw w).link = .up ∧ (s.saw w).state = .idle) := fun hx => nomatch h.symm.trans hx.2
  rw [State.loadHead, if_neg hbusy]

/-- An abandoned plan's saw goes on by its link: with the link DOWN there is no head to load. -/
theorem clearSaw_goesOn (s : State) (w : Saw) (n : Nat) :
    (((s.clearSaw w n).updatePlan n fun p => { p with state := .abandoned }).leaveQueue w n).goOnByLink w =
      ((s.removeFromLine w).givenUp w n).loadHead w := by
  rw [clearSaw_eq]
  set out := s.removeFromLine w
  set left := State.leaveQueue _ w n with hleft
  have hsaw : left.saw w = (out.saw w).cleared.without n := by
    rw [hleft, leaveQueue_eq]
    refine (Four.get_set_same ..).trans (congrArg (SawRec.without n) ?_)
    exact Four.get_set_same ..
  have hset (x : SawState) (hx : (out.saw w).cleared.free.state = x) : left.setSawState w x = out.givenUp w n := by
    subst hx
    have hmoved : left.setSawState w (out.saw w).cleared.free.state = { left with sdp := { left.sdp with
        saws := left.sdp.saws.set w { left.saw w with state := (out.saw w).cleared.free.state } } } := rfl
    rw [hmoved, hsaw, hleft, leaveQueue_eq]
    simp only [State.withdrawn, State.givenUp, State.unloaded, State.updatePlan, State.withPlans, Four.set_set]
    rfl
  have hlink : (left.saw w).link = (out.saw w).link := by rw [hsaw]; rfl
  have hgone : (out.givenUp w n).saw w = ((out.saw w).cleared.without n).free := Four.get_set_same ..
  unfold State.goOnByLink
  cases hl : (out.saw w).link with
  | up =>
    simp only [hlink, hl]
    exact congrArg (State.loadHead · w) (hset .idle (if_pos hl))
  | down =>
    simp only [hlink, hl]
    have hstate : (out.saw w).cleared.free.state = .offline := if_neg (c := (out.saw w).link = .up) (by rw [hl]; exact nofun)
    rw [hset .offline hstate, loadHead_offline (by rw [hgone]; exact hstate)]

theorem abandonPlan_performed (hp : s.plan? number = some p) (hx : p.state = .cutting) (hw : p.saw = some w)
    (hcut : (s.saw w).state.inCut = false) :
    abandonPlan number s = performed [] ((((s.writeOff p).removeFromLine w).givenUp w number).loadHead w) := by
  have hgo : ¬ (p.state ≠ .cutting ∨ (s.saw w).state.inCut = true) := by simp [hx, hcut]
  simp only [abandonPlan, hp, hw, Option.elim]
  rw [if_neg hgo, clearSaw_goesOn]

/-- A saw removed from the line is in no entry of it (R183). -/
theorem removeFromLine_line (s : State) (w : Saw) : ∀ e ∈ (s.removeFromLine w).wau.line, e.saw ≠ w := by
  unfold State.removeFromLine
  split
  case isFalse hout => exact fun e he h => hout (inLine_iff.2 ⟨e, he, h⟩)
  intro e he
  have hin : e ∈ (s.withWau (Admission.remove w)).wau.line := (admissionPass_line _ _).subset he
  simpa using (List.mem_filter.1 hin).2

/-- Settles O16: the records by `writeOff_spec`, the saw by `clearSaw_goesOn`, the line by `removeFromLine_line` and the order by
the agreement of the water records with the saws after a removal. -/
theorem abandonPlan_holds : Obligations.AbandonPlan := by
  intro s number hs
  have hi : exec (.abandonPlan number) s = hostRequest Kind.abandonPlan (abandonPlan number) s := rfl
  dsimp only
  refine ⟨fun hn => hs.refuses hi (by simp only [abandonPlan, hn]), fun p hp => ⟨fun hx => hs.refuses hi ?_, fun w hx hw =>
    ⟨fun hcut => hs.refuses hi ?_, fun hc hh => ?_⟩⟩⟩
  · simp only [abandonPlan, hp]
    exact if_pos (.inl hx)
  · simp only [abandonPlan, hp]
    exact if_pos (.inr (by rw [hw]; exact SawState.inCut_iff.2 hcut))
  have hcut : (s.saw w).state.inCut = false := Bool.eq_false_iff.2 fun h => (SawState.inCut_iff.1 h).elim hc hh
  obtain ⟨hslab, hslabs, hplans, hplan, hframe⟩ := writeOff_spec hp
  set out := (s.writeOff p).removeFromLine w with hout
  have hwau : ((out.givenUp w number).loadHead w).wau = out.wau := by simp [State.givenUp]
  refine ⟨s.writeOff p, out.givenUp w number, hslab, hslabs, hplans, ?_, hframe, fun n hn => ?_, ?_, rfl, rfl, rfl, ?_, fun hwater => ?_,
    hs.performs hi (abandonPlan_performed hp hx hw hcut)⟩
  · rw [hplan, giveBackAll_eq]
  · exact (updatePlan_plan?_ne (out.updatePlan number fun p => { p with state := .abandoned }) (fun p => { p with saw := none }) hn).trans
      (updatePlan_plan?_ne out (fun p => { p with state := .abandoned }) hn)
  · refine (updatePlan_plan?_self (out.updatePlan number fun p => { p with state := .abandoned }) number
      fun p => { p with saw := none }).trans ?_
    have habandoned : (out.updatePlan number fun p => { p with state := .abandoned }).plan? number =
        (out.plan? number).map fun p => { p with state := .abandoned } :=
      updatePlan_plan?_self out number fun p => { p with state := .abandoned }
    rw [habandoned, Option.map_map]
    rfl
  · rw [hwau]
    exact removeFromLine_line _ w
  · rw [hwau]
    have hagree : Agreed (s.writeOff p) :=
      (hwater.agree hs.1).congr (by simp) (State.states_of_saws (by simp)) (by simp)
    have hdry : (s.writeOff p).states w ≠ .cutting ∧ (s.writeOff p).states w ≠ .holding := by
      have hstate : (s.writeOff p).states w = (s.saw w).state := State.states_of_saws (by simp) w
      rw [hstate]
      exact ⟨hc, hh⟩
    exact ((hagree.removeFromLine hdry).out w (.inr rfl)).2.2.1

end AbandonPlan

end Sys2Proof.Machine
end

section
/-! PROOFS. The silence of a link (R91, R122): what it leaves of the saw in each of its states. -/

namespace Sys2Proof.Machine

/-! ## A notice pending stays pending through a cut's stop (R219) -/

/-- Notices pending before are pending after. -/
structure NoticesStay (s t : State) : Prop where
  stay : ∀ m : BitVec 16, s.olc.pending &&& m = m → t.olc.pending &&& m = m

namespace NoticesStay

theorem refl (s : State) : NoticesStay s s := ⟨fun _ => id⟩

/-- Composition from the last operation back. -/
theorem after {s t u : State} (k : NoticesStay t u) (h : NoticesStay s t) : NoticesStay s u := ⟨fun m => k.stay m ∘ h.stay m⟩

theorem of_olc {s t : State} (h : t.olc = s.olc) : NoticesStay s t := ⟨fun _ => by rw [h]; exact id⟩

theorem updateSaw (s : State) (w : Saw) (f : SawRec → SawRec) : NoticesStay s (s.updateSaw w f) := .of_olc rfl

theorem writeContext (s : State) (w : Saw) (k : ContextKind) (c : Option Cause) (n : Nat) :
    NoticesStay s (s.writeContext w k c n) := by
  unfold State.writeContext
  exact .updateSaw ..

theorem setSawState (s : State) (w : Saw) (x : SawState) : NoticesStay s (s.setSawState w x) := .updateSaw ..

theorem raise (s : State) (n : Notice) : NoticesStay s (s.raise n) := by
  refine ⟨fun m h => ?_⟩
  rw [State.raise_pending_set]
  ext i hi
  have hbit := congrArg (·[i]) h
  simp only [BitVec.getElem_and, BitVec.getElem_or] at hbit ⊢
  cases hm : m[i] <;> simp_all

theorem raiseIf (s : State) (c : Bool) (n : Notice) : NoticesStay s (s.raiseIf c n) := by
  cases c
  · exact .refl s
  · exact .raise s n

theorem charge (s : State) (n : Nat) (f : Job → Job) : NoticesStay s (s.charge n f) := by
  unfold State.charge
  split
  · exact .refl s
  · exact .after (.raiseIf ..) (.of_olc rfl)

theorem chargeHead (s : State) (w : Saw) (f : Job → Job) : NoticesStay s (s.chargeHead w f) := by
  unfold State.chargeHead
  split
  · exact .charge ..
  · exact .refl s

theorem testHealth (s : State) (n : Nat) : NoticesStay s (s.testHealth n) := by
  unfold State.testHealth
  split
  · exact .refl s
  · exact .after (.raiseIf ..) (.after (.raiseIf ..) (.of_olc rfl))

theorem chargeWear (s : State) (w : Saw) (p : Nat) : NoticesStay s (s.chargeWear w p) := by
  unfold State.chargeWear State.accrueWear
  split
  · refine .after (.chargeHead ..) ?_
    split
    · exact .refl s
    · exact .after (.testHealth ..) (.of_olc rfl)
  · exact .refl s

theorem closeSegment (s : State) (w : Saw) (p : Nat) : NoticesStay s (s.closeSegment w p) := by
  unfold State.closeSegment
  exact .after (.updateSaw ..) (.after (.chargeHead ..) (.after (.chargeHead ..) (.after (.updateSaw ..) (.chargeWear ..))))

theorem faultBlade (s : State) (w : Saw) (c : Cause) : NoticesStay s (s.faultBlade w c) := by
  unfold State.faultBlade
  split
  · exact .after (.testHealth ..) (.of_olc rfl)
  · exact .refl s

theorem leaveWater {pass : State → State} (hp : ∀ s, NoticesStay s (pass s)) (s : State) (w : Saw) :
    NoticesStay s (s.leaveWater pass w) := by
  unfold State.leaveWater
  split
  · exact .after (hp _) (.of_olc rfl)
  · exact .of_olc rfl
  · exact .refl s

theorem settleInterlock {pass : State → State} (hp : ∀ s, NoticesStay s (pass s)) (s : State) (w : Saw) :
    NoticesStay s (s.settleInterlock pass w) := by
  unfold State.settleInterlock State.faultInCut
  split
  · exact .refl s
  · exact .after (.raise ..) (.after (.setSawState ..) (.after (.writeContext ..) (.after (.faultBlade ..) (.after (.leaveWater hp ..)
      (.after (.closeSegment ..) (.after (.of_olc (State.reportReached_olc ..)) (.updateSaw ..)))))))

theorem admissionPass (n : Nat) : ∀ s, NoticesStay s (admissionPass n s) := by
  induction n with
  | zero => exact .refl
  | succ n ih =>
    intro s
    unfold Machine.admissionPass
    split
    · exact .refl s
    split
    · exact .after (ih _) (.after (.settleInterlock ih ..) (.of_olc (by simp)))
    · exact .refl s

theorem removeFromLine (s : State) (w : Saw) : NoticesStay s (s.removeFromLine w) := by
  unfold State.removeFromLine
  split
  · exact .after (.admissionPass ..) (.of_olc rfl)
  · exact .refl s

end NoticesStay

/-! ## Silence by the state of the saw (R91) -/

section Silence

variable {s : State} {w : Saw} {p : Plan} {q : Pass}

/-- The saw with its heartbeat at the age of silence. -/
def State.aged (s : State) (w : Saw) : State := s.updateSaw w fun r => { r with heartbeat := max r.heartbeat 30 }

theorem linkSilence_up (hl : (s.saw w).link = .up) : linkSilence w s = (s.aged w).loseLink w := by
  simp only [linkSilence, hl]
  rfl

theorem linkSilence_down (hl : (s.saw w).link = .down) : linkSilence w s = s := by simp only [linkSilence, hl]

theorem aged_saw (s : State) (w : Saw) : (s.aged w).saw w = { s.saw w with heartbeat := max (s.saw w).heartbeat 30 } :=
  State.saw_updateSaw_same ..

/-- The passes of a window returned to PENDING, as the spec states it (R91). -/
def State.windowReturned (s : State) (w : Saw) (held : List Nat) : State :=
  (s.headPlan? w).elim s fun p => s.updatePlan p.number fun p => { p with derived := p.derived.map fun d =>
    { d with passes := d.passes.map fun q =>
        if held.contains q.index ∧ q.state = .staged then { q with state := .pending } else q } }

theorem giveBackThese_eq (held : List Nat) (p : Plan) : p.giveBackThese held = { p with derived := p.derived.map fun d =>
    { d with passes := d.passes.map fun q =>
        if held.contains q.index ∧ q.state = .staged then { q with state := .pending } else q } } := by
  have hpass (q : Pass) : (if held.contains q.index then q.giveBack else q) =
      if held.contains q.index ∧ q.state = .staged then { q with state := .pending } else q := by
    have hkept (h : q.state ≠ .staged) : q.giveBack = q := by
      cases q
      unfold Pass.giveBack
      split
      · next hx => exact absurd hx h
      · rfl
    by_cases hin : held.contains q.index = true <;> by_cases hx : q.state = .staged
    · simp only [hin, hx, and_self, if_true, Pass.giveBack]
    · simp only [hin, hx, and_false, if_true, if_false, hkept hx]
    all_goals rw [if_neg hin, if_neg fun h => hin h.1]
  simp only [Plan.giveBackThese, hpass]

theorem dropWindow_eq (s : State) (w : Saw) : s.dropWindow w =
    (s.windowReturned w ((s.saw w).outstanding.map Outstanding.index)).updateSaw w fun r => { r with outstanding := [] } := by
  unfold State.dropWindow State.windowReturned
  cases s.headPlan? w with
  | none => rfl
  | some p =>
    exact congrArg (fun f => (s.updatePlan p.number f).updateSaw w fun r => { r with outstanding := [] })
      (funext (giveBackThese_eq _))

theorem goOffline_eq {held : List Nat} (h : (s.saw w).outstanding.map Outstanding.index = held) : s.goOffline w =
    (s.windowReturned w held).updateSaw w fun r => { r with outstanding := [], pendingLoad := none, state := .offline } := by
  rw [State.goOffline, dropWindow_eq, updateSaw_updateSaw, h]

theorem loseLink_offline (hx : (s.saw w).state = .offline) : s.loseLink w = s.linkDown w := by
  simp only [State.loseLink, State.saw_raise, State.saw_updateSaw_same, hx]
  rfl

/-- An IDLE, LOADING or PRIMED saw goes OFFLINE. -/
theorem loseLink_resting (hx : (s.saw w).state = .idle ∨ (s.saw w).state = .loading ∨ (s.saw w).state = .primed) :
    s.loseLink w = (s.linkDown w).goOffline w := by
  rcases hx with hx | hx | hx <;> simp only [State.loseLink, State.saw_raise, State.saw_updateSaw_same, hx] <;> rfl

/-- A WAITING saw leaves the line and goes OFFLINE. -/
theorem loseLink_waiting (hx : (s.saw w).state = .waiting) :
    s.loseLink w = ((s.linkDown w).removeFromLine w).goOffline w := by
  simp only [State.loseLink, State.saw_raise, State.saw_updateSaw_same, hx]
  rfl

theorem linkDown_outstanding (s : State) (w : Saw) : ((s.linkDown w).saw w).outstanding = (s.saw w).outstanding := by
  rw [linkDown_saw]

/-! ## Silence during a cut or a hold (R122) -/

/-- The state the LINK context is written over. -/
def State.linkLeft (s : State) (w : Saw) (q : Pass) : State :=
  if (s.saw w).state = .held then (s.linkDown w).removeFromLine w
  else (((s.linkDown w).updateSaw w fun r => { r with holdTimer := none }).closeSegment w q.reached).waterGivenUp w

/-- `LosesLink` names the state it stands over. -/
theorem losesLink_linkLeft (hagree : Agreed s) (hn : HeadsNoOther w p.number s)
    (hline : (s.saw w).state = .cutting ∨ (s.saw w).state = .holding → LineApart w p.number s)
    (ha : s.activePass? w = some (p, q))
    (hx : (s.saw w).state = .cutting ∨ (s.saw w).state = .holding ∨ (s.saw w).state = .held) :
    s.loseLink w = (s.linkLeft w q).linkContext w ∧ ∃ t, LosesLink w p q s t := by
  unfold State.linkLeft
  rcases or_assoc.2 hx with hx | hx
  · have hout : (s.saw w).state ≠ .held := by rcases hx with hx | hx <;> rw [hx] <;> exact nofun
    exact ⟨by rw [if_neg hout, loseLink_cut hx ha], losesLink_of_cut hagree (hline hx) ha hx⟩
  · exact ⟨by rw [if_pos hx, loseLink_held hx], _, losesLink_of_held hagree hn ha hx⟩

theorem linkContext_notices (s : State) (w : Saw) : NoticesStay s (s.linkContext w) := .of_olc (by simp)

theorem linkLeft_notice (s : State) (w : Saw) (q : Pass) : (s.linkLeft w q).olc.pending &&& 4#16 = 4#16 := by
  have hdown : (s.linkDown w).olc.pending &&& 4#16 = 4#16 := raise_notice _ .sawLink
  unfold State.linkLeft State.waterGivenUp
  split
  · exact (NoticesStay.removeFromLine _ w).stay _ hdown
  · have hclosed := (NoticesStay.closeSegment ((s.linkDown w).updateSaw w fun r => { r with holdTimer := none }) w
      q.reached).stay _ hdown
    split
    · exact (NoticesStay.admissionPass _ _).stay _ hclosed
    · exact hclosed

/-- A pass returned is not STAGED. -/
theorem giveBackThese_not_staged {held : List Nat} {y : Pass} (hy : y ∈ (p.giveBackThese held).passes)
    (hin : y.index ∈ held) : y.state ≠ .staged := by
  rw [giveBackThese_eq] at hy
  cases hd : p.derived with
  | none => simp [Plan.passes, hd] at hy
  | some d =>
  simp only [Plan.passes, hd, Option.map_some] at hy
  obtain ⟨x, -, rfl⟩ := List.mem_map.1 hy
  split
  · exact nofun
  · next hno =>
    rw [if_neg hno] at hin
    exact fun hx => hno ⟨List.contains_iff_mem.2 hin, hx⟩

/-- The returned window's plan after the LINK context. -/
theorem linkContext_plan? {t : State} (ha : t.activePass? w = some (p, q)) : (t.linkContext w).plan? p.number =
    some (p.giveBackThese ((t.saw w).outstanding.map Outstanding.index)) := by
  have hwritten := writeContext_eq ha .link (some .linkLost) 1
  have hhead : (t.writeContext w .link (some .linkLost) 1).headPlan? w = some p := by
    rw [hwritten]
    exact (updateSaw_headPlan? ..).trans (activePass?_some ha).1
  have hout : ((t.writeContext w .link (some .linkLost) 1).saw w).outstanding = (t.saw w).outstanding := by
    rw [hwritten, State.saw_updateSaw_same]
  have hdropped := dropWindow_headPlan? hhead
  rw [hout] at hdropped
  exact (headPlan?_some hdropped).2

end Silence

/-- Settles O21: each state outside a cut by its equation; in a cut or a hold by `losesLink_linkLeft` and what the LINK context
writes. -/
theorem linkSilence_holds : Obligations.LinkSilence := by
  have hexec (s : State) (w : Saw) (hr : s.running = true) : exec (.linkSilence w) s = .next (linkSilence w s) :=
    event_running hr (linkSilence w)
  refine ⟨fun s w hr => ⟨fun hl => ?_, fun hl => ?_⟩, fun s w p q hr hl hq hw ha hx => ?_⟩
  · rw [hexec s w hr, linkSilence_down hl]
  · intro aged down held returned
    have hstate {x : SawState} (hx : (s.saw w).state = x) : (aged.saw w).state = x :=
      (congrArg SawRec.state (aged_saw s w)).trans hx
    have hout : ((aged.linkDown w).saw w).outstanding.map Outstanding.index = held := by
      rw [linkDown_outstanding, show aged = s.aged w from rfl, aged_saw]
    refine ⟨?_, fun hx => loseLink_offline (hstate hx), fun hx => ?_, fun hx => ?_, fun hx => ?_⟩
    · rw [hexec s w hr, linkSilence_up hl]
      rfl
    · exact (loseLink_resting (hx.imp hstate (.imp hstate hstate))).trans (goOffline_eq hout)
    · refine (loseLink_waiting (hstate hx)).trans (goOffline_eq ?_)
      rw [removeFromLine_saw]
      exact hout
    · refine (loseLink_faulted (hstate hx)).trans ?_
      rw [dropWindow_eq, updateSaw_updateSaw, hout]
      rfl
  · intro r time down left
    have hsilent : exec (.linkSilence w) s = .next ((s.aged w).loseLink w) := by rw [hexec s w hr, linkSilence_up hl]
    have hhead := (activePass?_some ha).1
    have hqueue (v : Saw) : ((s.aged w).saw v).queue = (s.saw v).queue := updateSaw_queue s w _ (by intro; rfl) v
    have hagree : Agreed (s.aged w) := (hw.agree hr).updateSaw w _
    have hactive : (s.aged w).activePass? w = some (p, q) := (updateSaw_activePass? ..).trans ha
    have hstate : ((s.aged w).saw w).state = (s.saw w).state := (congrArg SawRec.state (aged_saw s w) :)
    obtain ⟨hleft, t, hlost, htactive, hwater, hsaw⟩ := losesLink_linkLeft hagree
      ((headsNoOther_of_headPlan? hq hhead).of_queue hqueue)
      (fun hc => (lineApart_of_laws hq hw hhead (by rwa [hstate] at hc)).of_queue rfl hqueue) hactive
      (by rw [hstate]; exact hx)
    have hdown : (s.aged w).linkDown w = down := congrArg (State.raise · .sawLink) (updateSaw_updateSaw s w _ _)
    have hover : (s.aged w).linkLeft w q = left := by rw [State.linkLeft, hstate, hdown]
    rw [hover] at hleft
    have hexit : t.linkContext w = left.linkContext w := hlost.symm.trans hleft
    have hagedOut : ((s.aged w).saw w).stopped.outstanding = r.outstanding := by rw [stopped_outstanding, aged_saw]
    have hout : (t.saw w).outstanding = r.outstanding := by rw [hsaw]; exact hagedOut
    have htag : t.activeTag? w = s.activeTag? w := by rw [activeTag?_eq htactive, activeTag?_eq ha, hout]
    have htime : ((s.aged w).saw w).stopped.passTime = time := by
      rw [aged_saw]
      unfold SawRec.stopped time
      dsimp only
      split <;> rfl
    have hend := linkContext_saw htactive
    rw [htag, hsaw, htime] at hend
    refine ⟨t.linkContext w, hsilent.trans (congrArg _ hlost), ?_⟩
    rw [hend]
    refine ⟨rfl, rfl, ?jobs, ?blades, rfl, rfl, ?tag, htime, fun hopen => ?meters, ?allot, ?permit, ?order, ?line, ?passes,
      ?stk, ?pmn, ?rsv, ?notice⟩
    case jobs => rw [hexit, State.linkContext_jcu]
    case blades => rw [hexit, State.linkContext_bld]
    case tag => rw [aged_saw]; unfold SawRec.stopped; split <;> rfl
    case meters =>
      have hopen' : ((s.aged w).saw w).state ≠ .held := by rw [hstate]; exact hopen
      rw [SawRec.stopped, if_neg hopen', aged_saw]
      exact ⟨rfl, rfl⟩
    case allot => rw [State.linkContext_wau]; exact hwater.1
    case permit => rw [State.linkContext_wau]; exact hwater.2.1
    case order => rw [State.linkContext_wau]; exact hwater.2.2.1
    case line => rw [State.linkContext_wau]; exact hwater.2.2.2
    case passes =>
      intro x hin _ p' hp' y hy hyx
      rw [linkContext_plan? htactive, hout] at hp'
      cases hp'
      exact giveBackThese_not_staged hy (hyx ▸ List.mem_map_of_mem hin)
    case stk => rw [← hlost, State.loseLink_stk]; rfl
    case pmn => rw [← hlost, State.loseLink_pmn]; rfl
    case rsv => rw [← hlost, State.loseLink_rsv]; rfl
    case notice =>
      rw [hexit]
      refine (linkContext_notices left w).stay _ ?_
      rw [← hover]
      exact linkLeft_notice _ w q

end Sys2Proof.Machine
end

section
/-! PROOFS. The samples of the channels, the field supply and the calibrations (R150 to R162): the same change made to each
channel of a set, and its notice. -/

namespace Sys2Proof.Machine

/-! ## One change to each of several channels -/

section EachChannel

variable {s : State} {c : Chan}

/-- The record a change leaves of a channel, its grace timer started (R153). -/
def State.placed (s : State) (f : Chan → Channel → Channel) (c : Chan) : Channel :=
  (f c (s.channel c)).graced (s.wau.settings.grace * 10)

/-- The change starts the grace timer of a channel. -/
def State.startsGrace (s : State) (f : Chan → Channel → Channel) (c : Chan) : Bool :=
  (f c (s.channel c)).grace != (s.placed f c).grace

theorem putChannel_channel (s : State) (c d : Chan) (r : Channel) :
    (s.putChannel c r).channel d = if d = c then r.graced (s.wau.settings.grace * 10) else s.channel d := by
  rw [putChannel_eq]
  exact Seven.get_set ..

/-- CHANNEL_FAULT raised twice is raised once. -/
theorem faultedChannels_again (s : State) (a b : Bool) :
    State.faultedChannels { s with olc := s.faultedChannels a } b = s.faultedChannels (a || b) := by
  cases a <;> cases b
  case true.true =>
    simp only [State.faultedChannels, if_true, raise_eq, Bool.or_true, BitVec.or_assoc, BitVec.or_self]
    rfl
  all_goals rfl

theorem eachChannel_cons (s : State) (cs : List Chan) (f : Chan → Channel → Channel) :
    s.eachChannel (c :: cs) f = (s.putChannel c (f c (s.channel c))).eachChannel cs f := rfl

/-- Each channel of a list without repetition takes its change from its own record. -/
theorem eachChannel_channel (f : Chan → Channel → Channel) {cs : List Chan} (hcs : cs.Nodup) (d : Chan) : ∀ s : State,
    (s.eachChannel cs f).channel d = if d ∈ cs then s.placed f d else s.channel d := by
  induction cs with
  | nil => exact fun s => rfl
  | cons c cs ih =>
    intro s
    obtain ⟨hc, hrest⟩ := List.nodup_cons.1 hcs
    have hplaced : d ≠ c → (s.putChannel c (f c (s.channel c))).placed f d = s.placed f d := fun hne => by
      rw [State.placed, State.placed, putChannel_channel, if_neg hne, putChannel_eq]
    rw [eachChannel_cons, ih hrest]
    by_cases hd : d = c
    · subst hd
      rw [if_neg hc, if_pos (.head _), putChannel_channel, if_pos rfl]
      rfl
    · by_cases hin : d ∈ cs
      · rw [if_pos hin, if_pos (.tail _ hin), hplaced hd]
      · rw [if_neg hin, if_neg (by simp [hd, hin]), putChannel_channel, if_neg hd]

/-- The notices after the changes: CHANNEL_FAULT where one of them has started a timer (R153). -/
theorem eachChannel_olc (f : Chan → Channel → Channel) {cs : List Chan} (hcs : cs.Nodup) : ∀ s : State,
    (s.eachChannel cs f).olc = s.faultedChannels (cs.any (s.startsGrace f)) := by
  induction cs with
  | nil => exact fun s => rfl
  | cons c cs ih =>
    intro s
    obtain ⟨hc, hrest⟩ := List.nodup_cons.1 hcs
    have hstarts : cs.any ((s.putChannel c (f c (s.channel c))).startsGrace f) = cs.any (s.startsGrace f) := by
      rw [Bool.eq_iff_iff, List.any_eq_true, List.any_eq_true]
      refine exists_congr fun d => and_congr_right fun hd => ?_
      have hne : d ≠ c := fun e => hc (e ▸ hd)
      simp only [State.startsGrace, State.placed, putChannel_channel, if_neg hne, State.putChannel_wau]
    rw [eachChannel_cons, ih hrest, hstarts, putChannel_eq, List.any_cons]
    exact faultedChannels_again s (s.startsGrace f c) _

theorem eachChannel_fieldSupply (f : Chan → Channel → Channel) (cs : List Chan) : ∀ s : State,
    (s.eachChannel cs f).pmn.fieldSupply = s.pmn.fieldSupply := by
  induction cs with
  | nil => exact fun s => rfl
  | cons c cs ih =>
    intro s
    rw [eachChannel_cons, ih, putChannel_eq]

/-- The changes leave all else. -/
theorem eachChannel_frame (f : Chan → Channel → Channel) (cs : List Chan) (s : State) :
    s.eachChannel cs f = { s with pmn := (s.eachChannel cs f).pmn, olc := (s.eachChannel cs f).olc } := by
  refine State.ext_blocks ?_ ?_ ?_ ?_ ?_ ?_ ?_ ?_ ?_ ?_ <;> simp

theorem chan_all_nodup : Chan.all.Nodup := by decide

end EachChannel

/-! ## Samples and the end of grace (R150 to R153) -/

/-- Settles O38: each condition of the channel by its branch; the sample by `sample_eq_sampled`, its place by
`putChannel_eq`. -/
theorem sampleAndGrace : Obligations.SampleAndGrace := by
  refine ⟨⟨rfl, rfl, rfl, rfl⟩, fun s c raw hr => ?_⟩
  intro r put
  have hsample : exec (.channelSample c raw) s = .next (channelSample c raw s) := event_running hr (channelSample c raw)
  have hexpiry : exec (.graceExpiry c) s = .next (graceExpiry c s) := event_running hr (graceExpiry c)
  have hcode (h : r.range ≠ 0) (hf : s.pmn.fieldSupply = true) : ¬ (r.range = 0 ∨ (!s.pmn.fieldSupply) = true) := by
    simp [h, hf]
  refine ⟨fun h => ?_, fun h hf hx => ?_, fun h hf hx => ?_, fun n hg => ?_, fun hg => ?_⟩
  · have hnone : r.range = 0 ∨ (!s.pmn.fieldSupply) = true := h.imp_right fun hf => by rw [hf]; rfl
    rw [hsample, channelSample, if_pos hnone]
  · rw [hsample, channelSample, if_neg (hcode h hf), if_pos hx]
    rfl
  · intro placed
    rw [hsample, channelSample, if_neg (hcode h hf), if_neg hx, sample_eq_sampled, putChannel_eq]
  · rw [hexpiry]
    simp only [graceExpiry, show (s.channel c).grace = .running n from hg]
    rfl
  · rw [hexpiry]
    refine congrArg _ ?_
    unfold graceExpiry
    split
    · next n h => exact absurd h (hg n)
    · rfl
    · rfl

/-! ## The field supply (R155, R156) -/

section FieldSupply

variable {s : State}

/-- The field supply written. -/
def State.supplied (s : State) (on : Bool) : State := { s with pmn := { s.pmn with fieldSupply := on } }

/-- What one change of every channel leaves, with the field supply written. -/
theorem allChannels_spec (s : State) (on : Bool) (f : Chan → Channel → Channel) :
    let t := (s.supplied on).eachChannel Chan.all f
    let ds := s.wau.settings.grace * 10
    t.pmn.fieldSupply = on ∧ (∀ c, t.channel c = (f c (s.channel c)).graced ds) ∧
      ((∃ c, (f c (s.channel c)).grace ≠ ((f c (s.channel c)).graced ds).grace) → t.olc = (s.raise .channelFault).olc) ∧
      ((∀ c, (f c (s.channel c)).grace = ((f c (s.channel c)).graced ds).grace) → t.olc = s.olc) ∧
      t = { s with pmn := t.pmn, olc := t.olc } := by
  intro t ds
  have holc := eachChannel_olc f chan_all_nodup (s.supplied on)
  refine ⟨eachChannel_fieldSupply f Chan.all (s.supplied on), fun c => ?_, fun ⟨c, hc⟩ => ?_, fun h => ?_,
    eachChannel_frame f Chan.all (s.supplied on)⟩
  · exact (eachChannel_channel f chan_all_nodup c (s.supplied on)).trans (if_pos (Chan.mem_all c))
  · have hany : Chan.all.any ((s.supplied on).startsGrace f) = true :=
      List.any_eq_true.2 ⟨c, Chan.mem_all c, bne_iff_ne.2 hc⟩
    exact holc.trans (by rw [hany]; rfl)
  · have hnone : Chan.all.any ((s.supplied on).startsGrace f) = false := by
      refine List.any_eq_false.2 fun c _ => ?_
      exact fun hc => bne_iff_ne.1 hc (h c)
    exact holc.trans (by rw [hnone]; rfl)

/-- Settles O39: a change of every channel, by `allChannels_spec`. -/
theorem fieldSupply_holds : Obligations.FieldSupply := by
  intro s raw hr ds off back
  have hloss : exec .fieldSupplyLoss s = .next (fieldSupplyLoss s) := event_running hr fieldSupplyLoss
  have hreturn : exec (.fieldSupplyReturn raw) s = .next (fieldSupplyReturn raw s) := event_running hr (fieldSupplyReturn raw)
  have hback : (fun n (c : Channel) => if c.range = 0 then c else c.sample (raw.get n)) = back :=
    funext fun n => funext fun c => by rw [sample_eq_sampled]
  refine ⟨fun hf => ?_, fun hf => ?_, fun hf => ⟨_, hloss, ?_⟩, fun hf => ⟨_, hreturn, ?_⟩⟩
  · rw [hloss, fieldSupplyLoss, if_neg (by simp [hf])]
  · rw [hreturn, fieldSupplyReturn, if_pos hf]
  · have hlost : fieldSupplyLoss s = (s.supplied false).eachChannel Chan.all fun _ => off := by
      rw [fieldSupplyLoss, if_pos hf]
      rfl
    rw [hlost]
    clear_value off
    exact allChannels_spec s false fun _ => off
  · have hback' : fieldSupplyReturn raw s = (s.supplied true).eachChannel Chan.all back := by
      rw [fieldSupplyReturn, if_neg (by simp [hf]), hback]
      rfl
    rw [hback']
    clear_value back
    exact allChannels_spec s true back

end FieldSupply

/-! ## Calibration (R158 to R162) -/

section Calibration

variable {s : State} {set : List Nat} {point mode : Nat}

/-- The form of a channel set (R158, R211). -/
theorem setForm_iff : setForm set = true ↔ set ≠ [] ∧ set.length ≤ 7 ∧ ∀ n ∈ set, n ≤ 6 := by
  simp [setForm, and_assoc]

theorem mem_channelsOf {c : Chan} : c ∈ channelsOf set ↔ c.toNat ∈ set := by
  simp [channelsOf, Chan.mem_all]

theorem channelsOf_nodup (set : List Nat) : (channelsOf set).Nodup := chan_all_nodup.filter _

theorem all_channelsOf {P : Chan → Bool} : (channelsOf set).all P = true ↔ ∀ c : Chan, c.toNat ∈ set → P c = true := by
  simp [List.all_eq_true, mem_channelsOf]

/-- What one change of a channel set leaves. -/
theorem setChannels_spec (s : State) (set : List Nat) (f : Chan → Channel → Channel) :
    let t := s.eachChannel (channelsOf set) f
    (∀ c : Chan, (c.toNat ∈ set → t.channel c = s.placed f c) ∧ (c.toNat ∉ set → t.channel c = s.channel c)) ∧
      t.pmn.fieldSupply = s.pmn.fieldSupply := by
  refine ⟨fun c => ⟨fun hc => ?_, fun hc => ?_⟩, eachChannel_fieldSupply f _ s⟩
  · rw [eachChannel_channel f (channelsOf_nodup set), if_pos (mem_channelsOf.2 hc)]
  · rw [eachChannel_channel f (channelsOf_nodup set), if_neg (mem_channelsOf.not.2 hc)]

/-- A change that leaves a set's channels sound or their timers started raises nothing. -/
theorem setChannels_quiet {f : Chan → Channel → Channel}
    (h : ∀ c : Chan, c.toNat ∈ set → ¬ ((f c (s.channel c)).failed = true ∧ (f c (s.channel c)).grace = .stopped)) :
    (∀ c : Chan, c.toNat ∈ set → s.placed f c = f c (s.channel c)) ∧
      s.eachChannel (channelsOf set) f = { s with pmn := (s.eachChannel (channelsOf set) f).pmn } := by
  have hplaced (c : Chan) (hc : c.toNat ∈ set) : s.placed f c = f c (s.channel c) := graced_keeps (h c hc)
  have hnone : (channelsOf set).any (s.startsGrace f) = false := by
    refine List.any_eq_false.2 fun c hc => ?_
    rw [State.startsGrace, hplaced c (mem_channelsOf.1 hc), bne_self_eq_false]
    exact nofun
  have holc := eachChannel_olc f (channelsOf_nodup set) s
  rw [hnone] at holc
  refine ⟨hplaced, (eachChannel_frame f _ s).trans ?_⟩
  rw [holc]
  rfl

/-- The end of a calibration in the words of the rule (R160). -/
theorem conclude_eq (c : Channel) : c.conclude mode =
    (let gain (lo hi : Int) : Int := (2 * 100000000 + (hi - lo)) / (2 * (hi - lo))
    if mode = 1 then { c with offset := 0, gain := 10000, result := .done }
    else match c.lowPoint, c.highPoint with
    | some lo, some hi =>
      if lo < hi ∧ 9000 ≤ gain lo hi ∧ gain lo hi ≤ 11000 ∧ -500 ≤ lo ∧ lo ≤ 500 then
        { c with offset := lo, gain := gain lo hi, result := .done }
      else { c with result := .bad }
    | some lo, none => if -500 ≤ lo ∧ lo ≤ 500 then { c with offset := lo, result := .done } else { c with result := .bad }
    | none, _ => { c with result := .bad }) := by
  unfold Channel.conclude
  dsimp only
  split
  · rfl
  cases c.lowPoint <;> cases c.highPoint <;> simp only [withinInt_iff, candidateGain, roundDiv, and_assoc]

/-- The record a calibration's end samples: points and history cleared (R161). -/
def Channel.cleared (c : Channel) : Channel := { c with lowPoint := none, highPoint := none, history := [] }

theorem resample_eq {c : Channel} {x : Int} (h : c.raw = some x) : c.resample = c.cleared.sampled x := by
  simp only [Channel.resample, h, Option.elim_some, sample_eq_sampled]
  rfl

/-- A sample leaves the channel sound, or its grace timer as it was. -/
theorem sampled_quiet {c : Channel} (h : c.grace ≠ .stopped) (x : Int) :
    ¬ ((c.sampled x).failed = true ∧ (c.sampled x).grace = .stopped) := by
  intro ⟨hf, hg⟩
  have hgood := (failed_iff.1 hf).1
  have hgrace : (c.sampled x).grace = if (c.sampled x).state = .good then .stopped else c.grace := rfl
  rw [hgrace, if_neg hgood] at hg
  exact h hg

theorem exec_calBegin (set : List Nat) (s : State) :
    exec (.calBegin set) s = hostRequest Kind.calBegin (calBegin set) s := rfl

theorem exec_calPoint (set : List Nat) (point : Nat) (s : State) :
    exec (.calPoint set point) s = hostRequest Kind.calPoint (calPoint set point) s := rfl

theorem exec_calEnd (set : List Nat) (mode : Nat) (s : State) :
    exec (.calEnd set mode) s = hostRequest Kind.calEnd (calEnd set mode) s := rfl

theorem exec_calAbort (set : List Nat) (s : State) :
    exec (.calAbort set) s = hostRequest Kind.calAbort (calAbort set) s := rfl

theorem allCalibrating_iff : s.allCalibrating set = true ↔ ∀ c : Chan, c.toNat ∈ set → (s.channel c).state = .calibrating := by
  simp only [State.allCalibrating, all_channelsOf, beq_iff_eq]

theorem calibratable_iff {x : ChannelState} : x.calibratable = true ↔ x = .good ∨ x = .rangeLow ∨ x = .rangeHigh := by
  cases x <;> simp [ChannelState.calibratable]

/-- A channel that begins a calibration starts its grace timer exactly where it stands STOPPED. -/
theorem begun_startsGrace (s : State) (c : Chan) :
    s.startsGrace (fun _ c => c.beginCalibration) c = decide ((s.channel c).grace = .stopped) := by
  have hfailed : (s.channel c).beginCalibration.failed = true := rfl
  by_cases hg : (s.channel c).grace = .stopped
  · have hstarts : s.placed (fun _ c => c.beginCalibration) c = _ := graced_starts hfailed hg
    rw [State.startsGrace, hstarts, decide_eq_true hg]
    exact bne_iff_ne.2 (by rw [show (s.channel c).beginCalibration.grace = .stopped from hg]; exact nofun)
  · have hkeeps : s.placed (fun _ c => c.beginCalibration) c = _ := graced_keeps fun h => hg h.2
    rw [State.startsGrace, hkeeps, decide_eq_false hg, bne_self_eq_false]

/-- A set of CALIBRATING channels whose timers have started captures a point without a notice (R159). -/
theorem captured_quiet (h : ∀ c : Chan, c.toNat ∈ set → (s.channel c).grace ≠ .stopped) (c : Chan) (hc : c.toNat ∈ set) :
    ¬ (((s.channel c).capture point).failed = true ∧ ((s.channel c).capture point).grace = .stopped) := by
  have hgrace : ((s.channel c).capture point).grace = (s.channel c).grace := by
    unfold Channel.capture
    split <;> rfl
  exact fun hx => h c hc (hgrace.symm.trans hx.2)

/-- A change that samples each channel of the set anew, its timer started before, leaves the samples and no notice (R161). -/
theorem resampled_spec {before : Channel → Channel} (hraw : ∀ c, (before c).raw = c.raw)
    (hgrace : ∀ c, (before c).grace = c.grace)
    (h : ∀ c : Chan, c.toNat ∈ set → (s.channel c).grace ≠ .stopped ∧ (s.channel c).raw.isSome = true) :
    let t := s.eachChannel (channelsOf set) fun _ c => (before c).resample
    (∀ c x, (c.toNat ∈ set → (s.channel c).raw = some x → t.channel c = (before (s.channel c)).cleared.sampled x) ∧
      (c.toNat ∉ set → t.channel c = s.channel c)) ∧ t.pmn.fieldSupply = s.pmn.fieldSupply ∧ t = { s with pmn := t.pmn } := by
  intro t
  have hquiet (c : Chan) (hc : c.toNat ∈ set) : ¬ ((before (s.channel c)).resample.failed = true ∧
      (before (s.channel c)).resample.grace = .stopped) := by
    obtain ⟨hg, hx⟩ := h c hc
    obtain ⟨x, hx⟩ := Option.isSome_iff_exists.1 hx
    rw [resample_eq ((hraw _).trans hx)]
    exact sampled_quiet (c := (before (s.channel c)).cleared) ((hgrace _).trans_ne hg) x
  obtain ⟨hplaced, hframe⟩ := setChannels_quiet (f := fun _ c => (before c).resample) hquiet
  obtain ⟨hchannels, hsupply⟩ := setChannels_spec s set fun _ c => (before c).resample
  refine ⟨fun c x => ⟨fun hc hx => ?_, (hchannels c).2⟩, hsupply, hframe⟩
  rw [(hchannels c).1 hc, hplaced c hc, resample_eq ((hraw _).trans hx)]

theorem conclude_raw (c : Channel) : (c.conclude mode).raw = c.raw := by
  unfold Channel.conclude
  repeat' split
  all_goals rfl

theorem conclude_grace (c : Channel) : (c.conclude mode).grace = c.grace := by
  unfold Channel.conclude
  repeat' split
  all_goals rfl

end Calibration

section Requests

variable {s : State} {set : List Nat} {point mode : Nat}

/-- A channel set that may be calibrated (R158, R211). -/
def SetForm (set : List Nat) : Prop := set ≠ [] ∧ set.length ≤ 7 ∧ ∀ n ∈ set, n ≤ 6

theorem setForm_fails (h : ¬ SetForm set) : (!setForm set) = true := by
  rw [Bool.not_eq_true', Bool.eq_false_iff]
  exact setForm_iff.not.2 h

theorem setForm_holds (h : SetForm set) : ¬ (!setForm set) = true := by
  rw [Bool.not_eq_true', setForm_iff.2 h]
  exact nofun

theorem exists_not_calibrating :
    (!s.allCalibrating set) = true ↔ ∃ c : Chan, c.toNat ∈ set ∧ (s.channel c).state ≠ .calibrating := by
  rw [Bool.not_eq_true', Bool.eq_false_iff, Ne, allCalibrating_iff]
  simp only [not_forall, exists_prop]

theorem exists_not_calibratable : (!(channelsOf set).all fun c => (s.channel c).state.calibratable) = true ↔
    ∃ c : Chan, c.toNat ∈ set ∧
      ¬ ((s.channel c).state = .good ∨ (s.channel c).state = .rangeLow ∨ (s.channel c).state = .rangeHigh) := by
  rw [Bool.not_eq_true', Bool.eq_false_iff, Ne, all_channelsOf]
  simp only [calibratable_iff, not_forall, exists_prop]

theorem all_calibrating (h : ∀ c : Chan, c.toNat ∈ set → (s.channel c).state = .calibrating) :
    ¬ (!s.allCalibrating set) = true := fun hbad => by
  obtain ⟨c, hc, hx⟩ := exists_not_calibrating.1 hbad
  exact hx (h c hc)

/-- The frame of CAL BEGIN: the channels, and CHANNEL_FAULT where a timer starts (R158). -/
theorem begun_frame (s : State) (set : List Nat) : s.eachChannel (channelsOf set) (fun _ c => c.beginCalibration) =
    { s with
      pmn := (s.eachChannel (channelsOf set) fun _ c => c.beginCalibration).pmn
      olc := s.faultedChannels (decide (∃ c ∈ Chan.all, c.toNat ∈ set ∧ (s.channel c).grace = .stopped)) } := by
  have hany : (channelsOf set).any (s.startsGrace fun _ c => c.beginCalibration) =
      decide (∃ c ∈ Chan.all, c.toNat ∈ set ∧ (s.channel c).grace = .stopped) := by
    rw [Bool.eq_iff_iff, List.any_eq_true, decide_eq_true_eq]
    refine exists_congr fun c => ?_
    rw [begun_startsGrace, decide_eq_true_eq, mem_channelsOf]
    exact ⟨fun h => ⟨Chan.mem_all c, h⟩, fun h => h.2⟩
  have holc := eachChannel_olc (fun _ c => c.beginCalibration) (channelsOf_nodup set) s
  rw [hany] at holc
  exact (eachChannel_frame (fun _ c => c.beginCalibration) (channelsOf set) s).trans (by rw [holc])

theorem calBegin_performed (h : SetForm set) (hx : ∀ c : Chan, c.toNat ∈ set →
    (s.channel c).state = .good ∨ (s.channel c).state = .rangeLow ∨ (s.channel c).state = .rangeHigh) :
    calBegin set s = performed [] (s.eachChannel (channelsOf set) fun _ c => c.beginCalibration) := by
  have hgo : ¬ (!(channelsOf set).all fun c => (s.channel c).state.calibratable) = true := fun hbad => by
    obtain ⟨c, hc, hclosed⟩ := exists_not_calibratable.1 hbad
    exact hclosed (hx c hc)
  rw [calBegin, if_neg (setForm_holds h), if_neg hgo]

theorem calPoint_performed (h : SetForm set) (hp : point ≤ 1)
    (hx : ∀ c : Chan, c.toNat ∈ set → (s.channel c).state = .calibrating) : calPoint set point s =
      performed (counted (fun c => [.s16 ((s.channel c).raw.getD 0)]) (channelsOf set))
        (s.eachChannel (channelsOf set) fun _ c => c.capture point) := by
  have hform : ¬ ((!setForm set) = true ∨ 1 < point) := fun hbad => hbad.elim (setForm_holds h) (Nat.not_lt.2 hp)
  rw [calPoint, if_neg hform, if_neg (all_calibrating hx)]

end Requests

/-- Settles O40: the checks by the form of the set and the states of its channels; CAL BEGIN by `begun_frame`, CAL POINT by
`captured_quiet`, CAL END and CAL ABORT by `resampled_spec`. -/
theorem calibration : Obligations.Calibration := by
  refine ⟨fun s set point hs => ?_, fun s set mode hs => ?_⟩
  · intro form named open' begun ds
    have hbegin := exec_calBegin set s
    have hpoint := exec_calPoint set point s
    refine ⟨fun h => hs.refuses hbegin (by rw [calBegin, if_pos (setForm_fails h)]), fun h hx => hs.refuses hbegin (by
      rw [calBegin, if_neg (setForm_holds h), if_pos (exists_not_calibratable.2 hx)]), fun h hx => ?begin,
      fun h => hs.refuses hpoint (by rw [calPoint, if_pos (h.imp_left setForm_fails)]), fun h hp hx => hs.refuses hpoint ?state,
      fun h hp hx => ?point⟩
    case begin =>
      obtain ⟨hchannels, hsupply⟩ := setChannels_spec s set fun _ c => c.beginCalibration
      exact ⟨_, hs.performs hbegin (calBegin_performed h hx), hchannels, hsupply,
        congrArg (State.answered · Kind.calBegin .ok []) (begun_frame s set), rfl⟩
    case state =>
      have hform : ¬ ((!setForm set) = true ∨ 1 < point) := fun hbad => hbad.elim (setForm_holds h) (Nat.not_lt.2 hp)
      rw [calPoint, if_neg hform, if_pos (exists_not_calibrating.2 hx)]
    case point =>
      intro chosen
      obtain ⟨hplaced, hframe⟩ := setChannels_quiet (f := fun _ c => c.capture point)
        (captured_quiet fun c hc => (hx c hc).2)
      obtain ⟨hchannels, hsupply⟩ := setChannels_spec s set fun _ c => c.capture point
      have hperformed := hs.performs hpoint (calPoint_performed h hp fun c hc => (hx c hc).1)
      rw [counted_singleton] at hperformed
      exact ⟨_, hperformed, fun c => ⟨fun hc => ((hchannels c).1 hc).trans (hplaced c hc), (hchannels c).2⟩, hsupply,
        congrArg (State.answered · Kind.calPoint .ok _) hframe⟩
  · intro form named chosen gain concluded fresh
    have hend := exec_calEnd set mode s
    have habort := exec_calAbort set s
    have hmode (h : form) (hm : mode ≤ 1) : ¬ ((!setForm set) = true ∨ 1 < mode) := fun hbad =>
      hbad.elim (setForm_holds h) (Nat.not_lt.2 hm)
    have hconcluded : (fun c : Channel => c.conclude mode) = concluded := funext fun c => conclude_eq c
    refine ⟨fun h => ⟨hs.refuses hend (by rw [calEnd, if_pos (.inl (setForm_fails h))]),
        hs.refuses habort (by rw [calAbort, if_pos (setForm_fails h)])⟩,
      fun h hm => hs.refuses hend (by rw [calEnd, if_pos (.inr hm)]),
      fun h hm hx => ⟨hs.refuses hend (by rw [calEnd, if_neg (hmode h hm), if_pos (exists_not_calibrating.2 hx)]),
        hs.refuses habort (by rw [calAbort, if_neg (setForm_holds h), if_pos (exists_not_calibrating.2 hx)])⟩,
      fun h hm hx => ⟨?ended, ?aborted⟩⟩
    case ended =>
      obtain ⟨hchannels, hsupply, hframe⟩ := resampled_spec (set := set) conclude_raw (conclude_grace (mode := mode))
        fun c hc => (hx c hc).2
      have hperformed : calEnd set mode s =
          let t := s.eachChannel (channelsOf set) fun _ c => (c.conclude mode).resample
          performed (counted (fun c => [.u8 (t.channel c).result.code, .s16 (t.channel c).offset,
            .u16 (t.channel c).gain.toNat]) (channelsOf set)) t := by
        rw [calEnd, if_neg (hmode h hm), if_neg (all_calibrating fun c hc => (hx c hc).1)]
      refine ⟨_, hs.performs hend hperformed, fun c x => ?_, hsupply, congrArg (State.answered · Kind.calEnd .ok _) hframe⟩
      rw [← hconcluded]
      exact hchannels c x
    case aborted =>
      obtain ⟨hchannels, hsupply, hframe⟩ := resampled_spec (set := set) (before := fun c => { c with result := .none })
        (fun _ => rfl) (fun _ => rfl) fun c hc => (hx c hc).2
      have hperformed : calAbort set s =
          performed [] (s.eachChannel (channelsOf set) fun _ c => Channel.resample { c with result := .none }) := by
        rw [calAbort, if_neg (setForm_holds h), if_neg (all_calibrating fun c hc => (hx c hc).1)]
      exact ⟨_, hs.performs habort hperformed, hchannels, hsupply, congrArg (State.answered · Kind.calAbort .ok []) hframe⟩

end Sys2Proof.Machine
end

section
/-! PROOFS. The starts of the part and the losses of its supplies (R223, R224): what a whole start leaves, and a start cut short. -/

namespace Sys2Proof.Machine

section Starts

variable {s : State} {inputs : Inputs}

/-- The part with both its supplies on, as a start finds it. -/
def State.lit (s : State) (backup : Bool) : State :=
  { s with rsv := { s.rsv with mainPower := true, resetAsserted := false, backup := backup } }

/-- The inputs of a start that no loss cuts short, and of one that is cut. -/
def cutAs (i : Inputs) (c : Bool) : Inputs := { i with cut := c }

/-- A start reads all of its inputs but the loss that may cut it. -/
theorem start_cutAs (s : State) (i : Inputs) (c : Bool) : s.start (cutAs i c) = s.start i := rfl

theorem exec_powerReturn (i : Inputs) (s : State) : exec (.powerReturn i) s =
    .next (State.startOrCut { s with rsv := { s.rsv with mainPower := true } } i) := rfl

theorem exec_resetRelease_lit (hp : s.rsv.mainPower = true) (i : Inputs) : exec (.resetRelease i) s =
    .next (State.startOrCut { s with rsv := { s.rsv with resetAsserted := false } } i) := by
  have hrelease : exec (.resetRelease i) s = .next (resetRelease i s) := rfl
  rw [hrelease, resetRelease]
  exact congrArg _ (if_pos hp)

theorem startOrCut_whole (s : State) (i : Inputs) : s.startOrCut (cutAs i false) = s.start i := rfl

/-- A start cut short: the part goes silent, and a cold one leaves no mark (R223). -/
theorem startOrCut_cut (s : State) (i : Inputs) : s.startOrCut (cutAs i true) =
    let t := s.start i
    { t with
      rsv := { t.rsv with mainPower := false, mark := if t.rsv.startKind = .cold then false else t.rsv.mark }
      wau := { t.wau with permit := ⟨false, false, false, false⟩ }
      olc := { t.olc with attn := false } } := by
  have hcut : s.startOrCut (cutAs i true) = (s.start i).goSilent .mainPower ((s.start i).rsv.startKind == .cold) := rfl
  rw [hcut]
  generalize s.start i = t
  have hmark : (t.rsv.mark && !(t.rsv.startKind == .cold)) = if t.rsv.startKind = .cold then false else t.rsv.mark := by
    cases t.rsv.startKind <;> simp
  rw [State.goSilent, Retention.lose]
  dsimp only
  rw [hmark]
  rfl

/-- The backup supply is read before the kind of the start, which does not depend on it. -/
theorem start_backed (s : State) (i : Inputs) :
    s.start i = State.start { s with rsv := { s.rsv with backup := i.backup } } i := rfl

/-- Both ways into a whole start lead to the same one. -/
theorem started_of_lit {t : State} (h : (s.lit inputs.backup).start inputs = t) :
    (s.rsv.mainPower = false → s.rsv.resetAsserted = false → exec (.powerReturn (cutAs inputs false)) s = .next t) ∧
      (s.rsv.mainPower = true → s.rsv.resetAsserted = true → exec (.resetRelease (cutAs inputs false)) s = .next t) := by
  refine ⟨fun _ hreset => ?_, fun hpower _ => ?_⟩
  · rw [exec_powerReturn, startOrCut_whole, start_backed, ← h, State.lit, ← hreset]
  · rw [exec_resetRelease_lit hpower, startOrCut_whole, start_backed, ← h, State.lit, ← hpower]

theorem kind_eq_cold (r : Retention) : r.kind = .cold ↔ r.mark = false ∨ r.latch = true := by
  unfold Retention.kind
  cases r.mark <;> cases r.latch <;> simp

theorem kind_eq_warm (r : Retention) (hm : r.mark = true) (hl : r.latch = false) : r.kind = .warm := by
  simp [Retention.kind, hm, hl]

/-! ### A warm start (R26, R43, R66, R112, R131, R166) -/

theorem warmStock_eq (s : State) : s.warmStock = if s.stk.audit.state = .running then
    { s.stk with slabs := s.stk.slabs.map (fun r => { r with mark := false }), audit := ⟨.idle, [], 0, 0⟩ } else s.stk := by
  unfold State.warmStock
  cases s.stk.audit.state <;> rfl

/-- The record of a channel after a warm start, before its grace timer (R166). -/
def Channel.warmed (fieldSupply : Bool) (raw : Int) (r : Channel) : Channel :=
  let cleared : Channel :=
    { r with result := if r.state = .calibrating then .none else r.result, lowPoint := none, highPoint := none,
             history := [], raw := none, value := none, lastGood := none, grace := .stopped, state := .off }
  if r.range = 0 then cleared
  else if fieldSupply then cleared.sampled raw else { cleared with state := .fieldOff }

theorem clearWork_condition (fieldSupply : Bool) (raw : Int) (r : Channel) :
    r.clearWork.condition fieldSupply raw = r.warmed fieldSupply raw := by
  have hcleared : r.clearWork =
      { r with result := if r.state = .calibrating then .none else r.result, lowPoint := none, highPoint := none,
               history := [], raw := none, value := none, lastGood := none, grace := .stopped, state := .off } := by
    unfold Channel.clearWork Channel.dropCalibration
    by_cases h : r.state = .calibrating
    · simp only [if_pos h]
    · simp only [if_neg h]
  rw [condition_eq, hcleared]
  rfl

/-- The notices of a warm start: CHANNEL_FAULT where a grace timer has started (R153, R224). -/
theorem warmed_faults (s : State) (interlock : Four Bool) (b : Bool) :
    (s.warmed interlock).faultedChannels b = ⟨.ready, none, [], if b then 512#16 else 0#16, 0#16, false, false, .hunt⟩ := by
  cases b
  · rfl
  · rw [State.faultedChannels, if_pos rfl, raise_eq]
    have hmaster : (s.warmed interlock).olc.master = false := rfl
    have hpending : (s.warmed interlock).olc.pending ||| Notice.channelFault.bit = 512#16 := by
      show 0#16 ||| Notice.channelFault.bit = 512#16
      decide
    rw [hmaster, Bool.and_false, Bool.false_and, hpending]
    rfl

/-- The context of a warm start (R131). -/
theorem warmContext_spec (s : State) (w : Saw) :
    (∀ c, (s.saw w).context = some c → s.warmContext w =
      some (if c.kind = .hold then { c with kind := .power, cause := some .powerLoss, faults := 1 } else c)) ∧
    ((s.saw w).context = none → s.activePass? w = none → s.warmContext w = none) ∧
    (∀ p q, (s.saw w).context = none → s.activePass? w = some (p, q) → s.warmContext w =
      some ⟨.power, some .powerLoss, some ⟨p.number, q.index,
        if (s.saw w).state = .cutting ∨ (s.saw w).state = .holding then s.activeTag? w else none, q.reached,
        q.length - q.reached⟩, (s.saw w).passTime, 1⟩) := by
  refine ⟨fun c hc => ?_, fun hc ha => ?_, fun p q hc ha => ?_⟩
  · unfold State.warmContext
    simp only [hc]
    cases hk : c.kind with
    | hold => rw [if_pos rfl]
    | fault | link | power => rw [if_neg nofun]
  · simp only [State.warmContext, hc, passPart?_none ha, Option.map_none]
  · simp only [State.warmContext, hc, State.passPart?, ha, Option.map_some]
    by_cases hcut : (s.saw w).state = .cutting ∨ (s.saw w).state = .holding
    · rw [if_pos (SawState.inCut_iff.2 hcut), if_pos hcut]
    · rw [if_neg (SawState.inCut_iff.not.2 hcut), if_neg hcut]

theorem warmSaw_eq (s : State) (interlock : Four Bool) (w : Saw) : s.warmSaw interlock w = { s.saw w with
    link := .down, state := if s.warmContext w = none then .offline else .faulted, pendingLoad := none, outstanding := [],
    context := s.warmContext w, meters := ⟨false, 0, 0, 0, (s.saw w).meters.remainder⟩, heartbeat := 0,
    interlock := interlock.get w, holdTimer := none } := by
  unfold State.warmSaw
  cases s.warmContext w <;> rfl

/-- The channels' new conditions leave the rest of a warm start as it is. -/
theorem warmStart_frame (s : State) (inputs : Inputs) :
    (s.warmStart inputs).stk = s.warmStock ∧ (s.warmStart inputs).pln = ⟨s.pln.plans.map Plan.giveBackAll⟩ ∧
      (s.warmStart inputs).bld = s.bld ∧ (s.warmStart inputs).jcu = s.jcu ∧
      (s.warmStart inputs).wau = .reset s.wau.settings ∧ (s.warmStart inputs).sdp = s.warmSaws inputs.interlock ∧
      (s.warmStart inputs).pending = s.pending := by
  rw [warmStart_eq, State.warmChannels]
  refine ⟨?_, ?_, ?_, ?_, ?_, ?_, ?_⟩
  · rw [State.eachChannel_stk]; rfl
  · rw [State.eachChannel_pln]; rfl
  · rw [State.eachChannel_bld]; rfl
  · rw [State.eachChannel_jcu]; rfl
  · rw [State.eachChannel_wau]; rfl
  · rw [State.eachChannel_sdp]; rfl
  · rw [State.eachChannel_pending]; rfl

/-- The channels and the notices of a warm start (R166). -/
theorem warmStart_channels (s : State) (inputs : Inputs) :
    let fresh (c : Chan) := (s.channel c).warmed inputs.fieldSupply (inputs.raw.get c)
    (s.warmStart inputs).pmn.fieldSupply = inputs.fieldSupply ∧
      (∀ c, (s.warmStart inputs).channel c = (fresh c).graced (s.wau.settings.grace * 10)) ∧
      (s.warmStart inputs).olc = ⟨.ready, none, [],
        if ∃ c ∈ Chan.all, (fresh c).grace ≠ ((s.warmStart inputs).channel c).grace then 512#16 else 0#16, 0#16, false, false,
        .hunt⟩ := by
  intro fresh
  set f : Chan → Channel → Channel := fun c r => r.clearWork.condition inputs.fieldSupply (inputs.raw.get c) with hf
  have hfresh (c : Chan) : f c (s.channel c) = fresh c := clearWork_condition ..
  have hstart : s.warmStart inputs = ((s.warmed inputs.interlock).supplied inputs.fieldSupply).eachChannel Chan.all f := rfl
  obtain ⟨hsupply, hchannels, -⟩ := allChannels_spec (s.warmed inputs.interlock) inputs.fieldSupply f
  have hchannel (c : Chan) : (s.warmStart inputs).channel c = (fresh c).graced (s.wau.settings.grace * 10) := by
    rw [hstart, hchannels c]
    exact congrArg _ (hfresh c)
  have holc : (s.warmStart inputs).olc = (s.warmed inputs.interlock).faultedChannels
      (Chan.all.any (((s.warmed inputs.interlock).supplied inputs.fieldSupply).startsGrace f)) := by
    rw [hstart]
    exact eachChannel_olc f chan_all_nodup _
  refine ⟨by rw [hstart]; exact hsupply, hchannel, ?_⟩
  have hstarts : Chan.all.any (((s.warmed inputs.interlock).supplied inputs.fieldSupply).startsGrace f) = true ↔
      ∃ c ∈ Chan.all, (fresh c).grace ≠ ((s.warmStart inputs).channel c).grace := by
    rw [List.any_eq_true]
    refine exists_congr fun c => and_congr_right fun _ => ?_
    rw [hchannel, ← hfresh]
    exact bne_iff_ne
  rw [holc, warmed_faults]
  simp only [hstarts]

/-- A start cut short in a cold start leaves no mark, so the start after it is COLD as well (R223). -/
theorem cold_after_cut (h : s.rsv.mark = false ∨ s.rsv.latch = true) (again : Inputs) :
    (s.startOrCut (cutAs inputs true)).rsv.mark = false ∧
      ∃ v, exec (.powerReturn (cutAs again false)) (s.startOrCut (cutAs inputs true)) = .next v ∧
        v.rsv.startKind = .cold ∧ v.rsv.mark = true := by
  obtain ⟨hmark, -⟩ := startOrCut_cold ((kind_eq_cold _).2 h) (cutAs inputs true)
  set u := s.startOrCut (cutAs inputs true)
  have hkind : ({ u with rsv := { u.rsv with mainPower := true } } : State).rsv.kind = .cold := (kind_eq_cold _).2 (.inl hmark)
  exact ⟨hmark, _, exec_powerReturn _ u, (startOrCut_startKind _ _).trans hkind, (startOrCut_cold hkind _).1⟩

end Starts

/-- Settles O53: a whole start by its kind (`start_cold`, `start_warm` with what `warmStart_eq` composes), a start cut short by
`startOrCut_cut`, the supply events by their definitions. -/
theorem starts : Obligations.Starts := by
  intro s inputs
  dsimp only
  have hlitKind : (s.lit inputs.backup).rsv.kind = s.rsv.kind := rfl
  refine ⟨fun hc => ?cold, fun hm hl => ?warm, ⟨_, exec_powerReturn (cutAs inputs false) s, ?_⟩, fun hp =>
    ⟨_, exec_resetRelease_lit hp (cutAs inputs false), ?_⟩, fun again hc => ⟨?_, fun hp => ?_⟩, fun hp => ?_, fun cause => ?_,
    rfl⟩
  case cold =>
    refine started_of_lit ?_
    rw [start_cold (hlitKind.trans ((kind_eq_cold _).2 hc))]
    rfl
  case warm =>
    have hstart := start_warm (hlitKind.trans (kind_eq_warm _ hm hl)) inputs
    set b : State := s.lit inputs.backup with hb
    have hwarm : b.start inputs = b.warmStart inputs := hstart
    have hgrace : b.wau.settings.grace = s.wau.settings.grace := rfl
    obtain ⟨hsupply, hchannels, holc⟩ := warmStart_channels b inputs
    obtain ⟨hstk, hpln, hbld, hjcu, hwau, hsdp, hpending⟩ := warmStart_frame b inputs
    refine ⟨b.warmStart inputs, started_of_lit hwarm, ?stk, ?plans, ?bld, ?jcu, ?wau, fun w => ⟨b.warmContext w, ?saw,
      warmContext_spec b w⟩, fun w => ?frames, hsupply, hchannels, holc, ?rsv, ?pending⟩
    case stk => exact hstk.trans (warmStock_eq b)
    case plans =>
      rw [hpln]
      exact List.map_congr_left fun p _ => giveBackAll_eq p
    case bld => exact hbld
    case jcu => exact hjcu
    case wau => exact hwau
    case saw =>
      have hsaw : (b.warmStart inputs).saw w = b.warmSaw inputs.interlock w := by
        rw [State.saw, hsdp, warmSaws_get]
      exact hsaw.trans (warmSaw_eq b inputs.interlock w)
    case frames =>
      rw [hsdp]
      exact ⟨Four.get_all .., Four.get_all ..⟩
    case rsv => exact warmStart_rsv b inputs
    case pending => exact hpending
  · rw [exec_powerReturn, startOrCut_whole]
    exact congrArg _ (startOrCut_cut ..)
  · refine (exec_resetRelease_lit hp (cutAs inputs true)).trans ?_
    rw [startOrCut_cut, startOrCut_whole]
  · obtain ⟨hmark, v, hv⟩ := cold_after_cut (s := { s with rsv := { s.rsv with mainPower := true } }) (inputs := inputs) hc again
    exact ⟨_, v, exec_powerReturn (cutAs inputs true) s, hmark, hv⟩
  · obtain ⟨hmark, v, hv⟩ := cold_after_cut (s := { s with rsv := { s.rsv with resetAsserted := false } }) (inputs := inputs) hc
      again
    exact ⟨_, v, exec_resetRelease_lit hp (cutAs inputs true), hmark, hv⟩
  · have hrelease : exec (.resetRelease inputs) s = .next (resetRelease inputs s) := rfl
    rw [hrelease, resetRelease]
    exact congrArg _ (if_neg (by simp [hp]))
  · have hloss : exec (.powerLoss cause) s = .next (s.goSilent cause s.olc.wiping) := rfl
    rw [hloss]
    cases cause with
    | resetAsserted => rfl
    | mainPower =>
      have hmark : (s.rsv.mark && !s.olc.wiping) =
          if s.olc.reply = some ⟨Kind.answer Kind.wipeStore, some .ok, []⟩ then false else s.rsv.mark := by
        unfold Office.wiping
        split <;> simp [*]
      rw [State.goSilent, Retention.lose]
      dsimp only
      rw [hmark]
      rfl


end Sys2Proof.Machine
end

section
/-! PROOFS. The bytes of a frame become its command (R209 to R212): the fields of a body are read back in their order, and the
receiver hands over the body it was sent. -/

namespace Sys2Proof

/-! ## Fields read back (R211) -/

section Fields

variable {n : Nat} {i : Int} (r : List Byte)

theorem takeU8_bytesU8 (h : fits8 n = true) : takeU8 (bytesU8 n ++ r) = some (n, r) := by
  have hn : n < 256 := of_decide_eq_true h
  simp only [bytesU8, List.cons_append, List.nil_append, takeU8, BitVec.toNat_ofNat, Nat.mod_eq_of_lt hn]

theorem takeU16_bytesU16 (h : fits16 n = true) : takeU16 (bytesU16 n ++ r) = some (n, r) := by
  have hn : n < 65536 := of_decide_eq_true h
  have hvalue : n % 256 + 256 * (n / 256 % 256) = n := by omega
  simp only [bytesU16, List.cons_append, List.nil_append, takeU16, BitVec.toNat_ofNat, Nat.reducePow, hvalue]

theorem takeU32_bytesU32 (h : fits32 n = true) : takeU32 (bytesU32 n ++ r) = some (n, r) := by
  have hn : n < 4294967296 := of_decide_eq_true h
  have hvalue : n % 256 + 256 * (n / 256 % 256) + 65536 * (n / 65536 % 256) + 16777216 * (n / 16777216 % 256) = n := by omega
  simp only [bytesU32, List.cons_append, List.nil_append, takeU32, BitVec.toNat_ofNat, Nat.reducePow, hvalue]

theorem takeS16_bytesS16 (h : fitsS16 i = true) : takeS16 (bytesS16 i ++ r) = some (i, r) := by
  simp only [fitsS16, Bool.and_eq_true, decide_eq_true_eq] at h
  have hfits : fits16 (i % 65536).toNat = true := by
    simp only [fits16, decide_eq_true_eq]
    omega
  simp only [takeS16, bytesS16, takeU16_bytesU16 r hfits, Option.some.injEq, Prod.mk.injEq, and_true]
  split <;> omega

theorem takeTag_bytesU8 (h : fitsTag n = true) : takeTag (bytesU8 n ++ r) = some (n, r) := by
  have hn : n ≤ 7 := of_decide_eq_true h
  have hfits : fits8 n = true := by
    simp only [fits8, decide_eq_true_eq]
    omega
  simp only [takeTag, takeU8_bytesU8 r hfits, hn, if_true]

theorem takePresent_bytesU8 (b : Bool) : takePresent (bytesU8 (if b then 1 else 0) ++ r) = some (b, r) := by
  cases b <;> rfl

section Lists

variable {α : Type} {item : List Byte → Option (α × List Byte)} {bytes : α → List Byte} {xs : List α}

theorem takeItems_flatMap (h : ∀ x ∈ xs, ∀ r, item (bytes x ++ r) = some (x, r)) :
    takeItems item xs.length (xs.flatMap bytes ++ r) = some (xs, r) := by
  induction xs with
  | nil => rfl
  | cons x xs ih =>
    have hrest := ih fun y hy => h y (.tail _ hy)
    simp only [List.length_cons, takeItems, List.flatMap_cons, List.append_assoc, h x (.head _), hrest]

theorem takeList_bytesList {limit : Nat} (hlimit : limit < 256) (hl : xs.length ≤ limit)
    (h : ∀ x ∈ xs, ∀ r, item (bytes x ++ r) = some (x, r)) : takeList limit item (bytesList bytes xs ++ r) = some (xs, r) := by
  have hcount : fits8 xs.length = true := by
    simp only [fits8, decide_eq_true_eq]
    omega
  simp only [takeList, bytesList, List.append_assoc, takeU8_bytesU8 _ hcount, hl, if_true, takeItems_flatMap r h]

end Lists

theorem takeFlaw_bytes {f : Flaw} (h : f.wf = true) : takeFlaw (f.bytes ++ r) = some (f, r) := by
  simp only [Flaw.wf, Bool.and_eq_true, and_assoc] at h
  obtain ⟨h1, h2, h3, h4⟩ := h
  simp only [takeFlaw, Flaw.bytes, List.append_assoc, takeU16_bytesU16, h1, h2, h3, h4, Option.bind_eq_bind, Option.bind_some]

theorem takePiece_bytes {p : Piece} (h : p.wf = true) : takePiece (p.bytes ++ r) = some (p, r) := by
  simp only [Piece.wf, Bool.and_eq_true] at h
  obtain ⟨h1, h2⟩ := h
  simp only [takePiece, Piece.bytes, List.append_assoc, takeU16_bytesU16, h1, h2, Option.bind_eq_bind, Option.bind_some]

theorem takeSpan_bytes {x : Span} (h : x.wf = true) : takeSpan (x.bytes ++ r) = some (x, r) := by
  simp only [Span.wf, Bool.and_eq_true] at h
  obtain ⟨h1, h2⟩ := h
  simp only [takeSpan, Span.bytes, List.append_assoc, takeU8_bytesU8, h1, h2, Option.bind_eq_bind, Option.bind_some]

theorem takeStrip_bytes {t : Strip} (h : t.wf = true) : takeStrip (t.bytes ++ r) = some (t, r) := by
  simp only [Strip.wf, Bool.and_eq_true, decide_eq_true_eq, List.all_eq_true, and_assoc] at h
  obtain ⟨hwidth, hcount, hpieces⟩ := h
  have hlist (r : List Byte) : takeList 6 takePiece (bytesList Piece.bytes t.pieces ++ r) = some (t.pieces, r) :=
    takeList_bytesList r (by decide) hcount fun p hp r => takePiece_bytes r (hpieces p hp)
  simp only [takeStrip, Strip.bytes, List.append_assoc, takeU16_bytesU16, hwidth, hlist, Option.bind_eq_bind, Option.bind_some]

theorem takeFlaws_bytes {fs : List Flaw} (h : wfFlaws fs = true) : takeFlaws (bytesList Flaw.bytes fs ++ r) = some (fs, r) := by
  simp only [wfFlaws, Bool.and_eq_true, decide_eq_true_eq, List.all_eq_true] at h
  exact takeList_bytesList r (by decide) h.1 fun f hf r => takeFlaw_bytes r (h.2 f hf)

theorem takeStrips_bytes {ts : List Strip} (h : wfStrips ts = true) :
    takeStrips (bytesList Strip.bytes ts ++ r) = some (ts, r) := by
  simp only [wfStrips, Bool.and_eq_true, decide_eq_true_eq, List.all_eq_true] at h
  exact takeList_bytesList r (by decide) h.1 fun t ht r => takeStrip_bytes r (h.2 t ht)

theorem takeSpans_bytes {xs : List Span} (hl : xs.length ≤ 3) (h : xs.all Span.wf = true) :
    takeSpans (bytesList Span.bytes xs ++ r) = some (xs, r) :=
  takeList_bytesList r (by decide) hl fun x hx r => takeSpan_bytes r (List.all_eq_true.1 h x hx)

theorem takeSet_bytes {set : List Nat} (h : wfSet set = true) : takeSet (bytesList bytesU8 set ++ r) = some (set, r) := by
  simp only [wfSet, Bool.and_eq_true, decide_eq_true_eq, List.all_eq_true] at h
  exact takeList_bytesList r (by decide) h.1 fun n hn r => takeU8_bytesU8 r (h.2 n hn)

theorem sawCause_ofNat?_code (c : SawCause) : SawCause.ofNat? c.code = some c := by cases c <;> rfl

theorem fits8_sawCause (c : SawCause) : fits8 c.code = true := by cases c <;> rfl

end Fields

/-! ## A body read back as its command (R212) -/

/-- A body that reads back as the request it was written for. -/
theorem requestOf_cons {inputs : Inputs} {k : Byte} {b : List Byte} {i : Instr}
    (h : takeRequest inputs k.toNat (b ++ []) = some (i, [])) : requestOf inputs (k :: b) = i := by
  rw [List.append_nil] at h
  simp only [requestOf, h]

theorem messageOf_cons {w : Saw} {k : Byte} {b : List Byte} {i : Instr}
    (h : takeMessage w k.toNat (b ++ []) = some (i, [])) : messageOf w (k :: b) = i := by
  rw [List.append_nil] at h
  simp only [messageOf, h]

/-- The kinds of the requests (R212). -/
theorem requestKind_toNat :
    Kind.defineMaterial.toNat = 0x01 ∧ Kind.dropMaterial.toNat = 0x02 ∧ Kind.readMaterial.toNat = 0x03 ∧
    Kind.createSlab.toNat = 0x04 ∧ Kind.amendSlab.toNat = 0x05 ∧ Kind.scrapSlab.toNat = 0x06 ∧ Kind.retireSlab.toNat = 0x07 ∧
    Kind.readSlab.toNat = 0x08 ∧ Kind.findSlabs.toNat = 0x09 ∧ Kind.readRack.toNat = 0x0A ∧ Kind.moveSlab.toNat = 0x0B ∧
    Kind.startAudit.toNat = 0x0C ∧ Kind.verifySlab.toNat = 0x0D ∧ Kind.endAudit.toNat = 0x0E ∧ Kind.abortAudit.toNat = 0x0F ∧
    Kind.readAudit.toNat = 0x10 ∧ Kind.createPlan.toNat = 0x11 ∧ Kind.revisePlan.toNat = 0x12 ∧ Kind.checkPlan.toNat = 0x13 ∧
    Kind.releasePlan.toNat = 0x14 ∧ Kind.cancelPlan.toNat = 0x15 ∧ Kind.abandonPlan.toNat = 0x16 ∧
    Kind.readPlan.toNat = 0x17 ∧ Kind.readPassList.toNat = 0x18 ∧ Kind.retirePlan.toNat = 0x19 ∧
    Kind.configureSaw.toNat = 0x1A ∧ Kind.readSaw.toNat = 0x1B ∧ Kind.readContext.toNat = 0x1C ∧
    Kind.resumeSaw.toNat = 0x1D ∧ Kind.addBlade.toNat = 0x1E ∧ Kind.amendBlade.toNat = 0x1F ∧ Kind.fitBlade.toNat = 0x20 ∧
    Kind.removeBlade.toNat = 0x21 ∧ Kind.retireBlade.toNat = 0x22 ∧ Kind.readBlade.toNat = 0x23 ∧
    Kind.setChannel.toNat = 0x24 ∧ Kind.readChannel.toNat = 0x25 ∧ Kind.calBegin.toNat = 0x26 ∧ Kind.calPoint.toNat = 0x27 ∧
    Kind.calEnd.toNat = 0x28 ∧ Kind.calAbort.toNat = 0x29 ∧ Kind.setPlant.toNat = 0x2A ∧ Kind.readPlant.toNat = 0x2B ∧
    Kind.openJob.toNat = 0x2C ∧ Kind.amendJob.toNat = 0x2D ∧ Kind.readJob.toNat = 0x2E ∧ Kind.closeJob.toNat = 0x2F ∧
    Kind.retireJob.toNat = 0x30 ∧ Kind.readNotices.toNat = 0x31 ∧ Kind.setNotices.toNat = 0x32 ∧
    Kind.readState.toNat = 0x33 ∧ Kind.wipeStore.toNat = 0x34 := by
  decide

/-- The kinds of the saw messages (R212). -/
theorem messageKind_toNat :
    Kind.hello.toNat = 0x40 ∧ Kind.loaded.toNat = 0x41 ∧ Kind.start.toNat = 0x42 ∧ Kind.done.toNat = 0x43 ∧
    Kind.held.toNat = 0x45 ∧ Kind.fault.toNat = 0x46 ∧ Kind.status.toNat = 0x47 := by
  decide

/-- A request reads back: its kind chooses the fields, and each field is read as it was written. -/
theorem requestOf_body {inputs : Inputs} {i : Instr} (hw : i.wf = true) (hl : i.link? = some .office) (hs : i.sees inputs) :
    requestOf inputs i.body = i := by
  have hread (n : BitVec 16) : fits16 n.toNat = true := decide_eq_true n.isLt
  cases i
  case hello | loaded | start | done | held | fault | status => cases hl
  case unknownRequest | busyRequest | replySent | badFrame | byteGapTimeout | sawMessageMalformed | linkSilence | holdTimerExpiry
      | interlockDrop | interlockReturn | channelSample | graceExpiry | fieldSupplyLoss | fieldSupplyReturn | capacityEvaluation
      | meteringInterval | resetRelease | powerReturn | powerLoss | backupFailure => cases hl
  all_goals
    simp only [Instr.wf, Bool.and_eq_true, decide_eq_true_eq, and_assoc] at hw
    refine requestOf_cons ?_
    simp only [requestKind_toNat, List.append_assoc]
    unfold takeRequest
    simp only [takeU8_bytesU8, takeU16_bytesU16, takeU32_bytesU32, takeS16_bytesS16, takeFlaws_bytes, takeStrips_bytes,
      takeSpans_bytes, takeSet_bytes, hw, hread, BitVec.ofNat_toNat, BitVec.setWidth_eq, Option.bind_eq_bind, Option.bind_some,
      List.nil_append]
  case setChannel => rw [hs]
  case readState => rw [hs]

/-- A saw message reads back on its saw's link. -/
theorem messageOf_body {w : Saw} {i : Instr} (hw : i.wf = true) (hl : i.link? = some (.saw w)) : messageOf w i.body = i := by
  cases i
  case hello | loaded | start | done | held | status =>
    cases hl
    simp only [Instr.wf, Bool.and_eq_true] at hw
    refine messageOf_cons ?_
    simp only [messageKind_toNat, List.append_assoc]
    unfold takeMessage
    simp only [takeU16_bytesU16, takeTag_bytesU8, hw, Option.bind_eq_bind, Option.bind_some]
  case fault v tag position cause =>
    cases hl
    simp only [Instr.wf, Bool.and_eq_true] at hw
    obtain ⟨htag, hposition⟩ := hw
    have hvalue : fitsTag (tag.getD 0) = true := by
      cases tag with
      | none => rfl
      | some n => exact htag
    have hgiven : (if tag.isSome = true then some (tag.getD 0) else none) = tag := by cases tag <;> rfl
    refine messageOf_cons ?_
    simp only [messageKind_toNat, List.append_assoc]
    unfold takeMessage
    simp only [takePresent_bytesU8, takeTag_bytesU8, takeU16_bytesU16, takeU8_bytesU8, hvalue, hposition, fits8_sawCause,
      sawCause_ofNat?_code, hgiven, Option.bind_eq_bind, Option.bind_some]
  all_goals
    simp only [Instr.link?] at hl
    split at hl <;> cases hl

theorem commandOf_body {inputs : Inputs} {i : Instr} {l : Link} (hw : i.wf = true) (hl : i.link? = some l)
    (hs : i.sees inputs) : commandOf inputs l i.body = i := by
  cases l with
  | office => exact requestOf_body hw hl hs
  | saw w => exact messageOf_body hw hl

/-- The body of a command that can be sent fits a frame: the lists by their own lemmas, the other fields have fixed widths. -/
theorem body_fits (i : Instr) : Laws.Framing.Statement i := by
  cases i
  case createSlab => apply Laws.Framing.createSlab
  case amendSlab => apply Laws.Framing.amendSlab
  case startAudit => apply Laws.Framing.startAudit
  case createPlan => apply Laws.Framing.createPlan
  case revisePlan => apply Laws.Framing.revisePlan
  case calBegin => apply Laws.Framing.calBegin
  case calPoint => apply Laws.Framing.calPoint
  case calEnd => apply Laws.Framing.calEnd
  case calAbort => apply Laws.Framing.calAbort
  all_goals exact fun _ => Nat.le_of_ble_eq_true rfl

/-- A command that comes as a frame has a kind. -/
theorem body_ne_nil {i : Instr} {l : Link} (hl : i.link? = some l) : i.body ≠ [] := by
  intro hb
  cases i
  case hello | loaded | start | done | held | fault | status => cases hb
  all_goals
    simp only [Instr.link?, hb, if_true] at hl
    cases hl

end Sys2Proof

namespace Sys2Proof.Machine

/-! ## A frame received (R209) -/

section Reception

variable {s : State} {inputs : Inputs} {l : Link} {len : Byte}

theorem receiver_setReceiver (s : State) (l : Link) (p : Phase) : (s.setReceiver l p).receiver l = p := by
  cases l with
  | office => rfl
  | saw w => exact Four.get_set_same ..

theorem setReceiver_again (s : State) (l : Link) (p q : Phase) : (s.setReceiver l p).setReceiver l q = s.setReceiver l q := by
  cases l with
  | office => rfl
  | saw w => simp only [State.setReceiver, Four.set_set]

theorem setReceiver_self (s : State) (l : Link) : s.setReceiver l (s.receiver l) = s := by
  cases l with
  | office => rfl
  | saw w => simp only [State.setReceiver, State.receiver, Four.set_get]

theorem setReceiver_running (s : State) (l : Link) (p : Phase) : (s.setReceiver l p).running = s.running := by
  cases l <;> rfl

/-- A byte that completes nothing moves the receiver alone. -/
theorem lineByte_none (hr : s.running = true) {p q : Phase} {b : Byte} (h : p.take b = (q, .none)) :
    (s.setReceiver l p).lineByte inputs l b = s.setReceiver l q := by
  rw [State.lineByte, if_pos (by rw [setReceiver_running, hr]), receiver_setReceiver, h]
  exact setReceiver_again ..

/-- A byte that completes a good frame puts its command into the queue. -/
theorem lineByte_good (hr : s.running = true) {p q : Phase} {b : Byte} {body : List Byte} (h : p.take b = (q, .good body)) :
    (s.setReceiver l p).lineByte inputs l b = (s.setReceiver l q).enqueue (commandOf inputs l body) := by
  rw [State.lineByte, if_pos (by rw [setReceiver_running, hr]), receiver_setReceiver, h]
  exact congrArg (State.enqueue · _) (setReceiver_again ..)

/-- The body is held byte by byte, and the receiver then waits for the CRC. -/
theorem lineBytes_body (hr : s.running = true) (tail : List Byte) (b : Byte) (body : List Byte) : ∀ held : List Byte,
    (s.setReceiver l (.inBody len held (body.length + 1))).lineBytes inputs l (b :: body ++ tail) =
      (s.setReceiver l (.inCrc len (held.reverse ++ b :: body) none)).lineBytes inputs l tail := by
  induction body generalizing b with
  | nil => exact fun held => congrArg (State.lineBytes · inputs l tail) (lineByte_none hr (take_inBody_last b len held))
  | cons c body ih =>
    intro held
    have hmore := lineByte_none (inputs := inputs) (l := l) hr (take_inBody_more b len held body.length)
    have hrest := ih c (b :: held)
    rw [List.reverse_cons, List.append_assoc] at hrest
    exact (congrArg (State.lineBytes · inputs l (c :: body ++ tail)) hmore).trans hrest

/-- The two bytes of a CRC, the low one first. -/
theorem crc_bytes (c : BitVec 16) :
    c.toNat = 256 * ((c >>> 8).setWidth 8 : Byte).toNat + (c.setWidth 8 : Byte).toNat := by
  have hc := c.isLt
  simp only [BitVec.toNat_setWidth, BitVec.toNat_ushiftRight, Nat.shiftRight_eq_div_pow]
  omega

/-- The bytes of a frame on a receiver in HUNT leave it in HUNT, with the frame's command in the queue. -/
theorem lineBytes_frame (hr : s.running = true) (hl : s.receiver l = .hunt) {body : List Byte} (hb : body ≠ [])
    (hfits : body.length ≤ 240) : s.lineBytes inputs l (frameBytes body) = s.enqueue (commandOf inputs l body) := by
  obtain ⟨b, rest, rfl⟩ := List.exists_cons_of_ne_nil hb
  set len : Byte := BitVec.ofNat 8 (b :: rest).length with hlen
  have hvalue : len.toNat = rest.length + 1 := by
    rw [hlen, BitVec.toNat_ofNat, List.length_cons]
    rw [List.length_cons] at hfits
    omega
  have hstart : Phase.hunt.take startByte = (.length, .none) := rfl
  have hlength : Phase.length.take len = (.inBody len [] (rest.length + 1), .none) := by
    rw [List.length_cons] at hfits
    rw [take_length, if_pos (by omega), hvalue]
  have hcrc : (Phase.inCrc len (b :: rest) (some ((crc (len :: b :: rest)).setWidth 8))).take
      ((crc (len :: b :: rest) >>> 8).setWidth 8) = (.hunt, .good (b :: rest)) := by
    rw [take_inCrc_high, if_pos (crc_bytes _)]
  calc s.lineBytes inputs l (frameBytes (b :: rest))
    _ = (s.setReceiver l .hunt).lineBytes inputs l (frameBytes (b :: rest)) := by rw [← hl, setReceiver_self]
    _ = (s.setReceiver l (.inBody len [] (rest.length + 1))).lineBytes inputs l
          (b :: rest ++ [(crc (len :: b :: rest)).setWidth 8, (crc (len :: b :: rest) >>> 8).setWidth 8]) := by
        rw [frameBytes, State.lineBytes, lineByte_none hr hstart, State.lineBytes, lineByte_none hr hlength]
    _ = (s.setReceiver l (.inCrc len (b :: rest) none)).lineBytes inputs l
          [(crc (len :: b :: rest)).setWidth 8, (crc (len :: b :: rest) >>> 8).setWidth 8] := lineBytes_body hr _ b rest []
    _ = (s.setReceiver l .hunt).enqueue (commandOf inputs l (b :: rest)) := by
        rw [State.lineBytes, lineByte_none hr (take_inCrc_low ..), State.lineBytes, lineByte_good hr hcrc, State.lineBytes]
    _ = s.enqueue (commandOf inputs l (b :: rest)) := by rw [← hl, setReceiver_self]

/-- Settles O52: the receiver hands over the body (`lineBytes_frame`), and the body reads back (`commandOf_body`). -/
theorem framesBecomeTheirCommand : Obligations.FramesBecomeTheirCommand := by
  intro s inputs i l hr hw hl hs hhunt
  rw [lineBytes_frame hr hhunt (body_ne_nil hl) (body_fits i hw), commandOf_body hw hl hs]
  rfl

end Reception

end Sys2Proof.Machine
end

section
/-! PROOFS. The working saws (R88, R91, R113): what a saw's record and the plan at the head of its queue say of each other, and
what the shared operations of a cut leave of it. -/

namespace Sys2Proof.Machine

/-! ## A saw and its head plan -/

/-- A pass of the plan is ACTIVE. -/
def Plan.hasActive (p : Plan) : Bool := p.activePass?.isSome

/-- What a saw sees of a plan: its state, and whether a pass of it is ACTIVE. -/
def Plan.face (p : Plan) : PlanState × Bool := (p.state, p.hasActive)

def State.planFace? (s : State) (n : Nat) : Option (PlanState × Bool) := (s.plan? n).map Plan.face

/-- The plan at the head of a saw's queue, as the saw sees it. -/
def State.headFace? (s : State) (w : Saw) : Option (PlanState × Bool) := (s.saw w).queue.head?.bind s.planFace?

/-- What the law of the work says of a saw record: its state, its context, its link and its queue. -/
def SawRec.face (r : SawRec) : SawState × Option Context × LinkState × List Nat := (r.state, r.context, r.link, r.queue)

/-- A saw PRIMED, WAITING, CUTTING, HOLDING or HELD, or with a context that has a pass part. -/
def SawRec.AtWork (r : SawRec) : Prop :=
  r.state = .primed ∨ r.state = .waiting ∨ r.state = .cutting ∨ r.state = .holding ∨ r.state = .held ∨
    (r.context.bind Context.part).isSome = true

/-- A saw record stands with its head plan (R88, R113). -/
structure SawFit (r : SawRec) (head : Option (PlanState × Bool)) : Prop where
  working : r.AtWork → ∃ a, head = some (.cutting, a)
  context : r.context.isSome = true ↔ r.state = .held ∨ r.state = .faulted
  held : r.state = .held → ∃ x, head = some (x, true)

/-- The state of a saw and its link agree (R91). -/
structure LinkFit (r : SawRec) : Prop where
  offline : r.state = .offline → r.link = .down
  down : r.link = .down → r.state = .offline ∨ r.state = .faulted

/-- The plan states before CUTTING. -/
def PlanState.early : PlanState → Bool
  | .draft => true
  | .checked => true
  | .released => true
  | _ => false

theorem PlanState.early_iff {x : PlanState} : x.early = true ↔ x = .draft ∨ x = .checked ∨ x = .released := by
  cases x <;> simp [PlanState.early]

/-- The saws stand with their head plans, the links of all but those in `E` with their states, and no plan before CUTTING has an
ACTIVE pass. -/
structure Working (E : Saw → Prop) (s : State) : Prop where
  fit : ∀ w, SawFit (s.saw w) (s.headFace? w)
  link : ∀ w, ¬ E w → LinkFit (s.saw w)
  fresh : ∀ n x a, s.planFace? n = some (x, a) → x.early = true → a = false

section Faces

variable {s t : State} {w : Saw}

theorem headFace?_eq (s : State) (w : Saw) : s.headFace? w = (s.headPlan? w).map Plan.face := by
  unfold State.headFace? State.headPlan?
  cases (s.saw w).queue <;> rfl

theorem headFace?_cutting : (∃ a, s.headFace? w = some (.cutting, a)) ↔ ∃ p, s.headPlan? w = some p ∧ p.state = .cutting := by
  rw [headFace?_eq]
  constructor
  · rintro ⟨a, h⟩
    obtain ⟨p, hp, hface⟩ := Option.map_eq_some_iff.1 h
    exact ⟨p, hp, congrArg Prod.fst hface⟩
  · rintro ⟨p, hp, hx⟩
    exact ⟨p.hasActive, by rw [hp, ← hx]; rfl⟩

theorem headFace?_active : (∃ x, s.headFace? w = some (x, true)) ↔ (s.activePass? w).isSome = true := by
  have hactive : (s.activePass? w).isSome = (s.headPlan? w).elim false Plan.hasActive := by
    unfold State.activePass?
    cases s.headPlan? w with
    | none => rfl
    | some p => simp only [Option.isSome_map, Option.elim_some, Plan.hasActive]
  rw [hactive, headFace?_eq]
  cases s.headPlan? w with
  | none => simp
  | some p => simp [Plan.face]

theorem passPart?_active (h : (s.passPart? w).isSome = true) : ∃ x, s.headFace? w = some (x, true) :=
  headFace?_active.2 (by simpa [State.passPart?] using h)

/-- The law of the saws is the saws' part of the law of the work. -/
theorem WorkLaw.saws (h : WorkLaw s) : Working (fun _ => False) s := by
  refine ⟨fun w => ⟨fun hw => headFace?_cutting.2 (h.working w hw), h.context w, fun hx => headFace?_active.2 (h.held w hx)⟩,
    fun w _ => ⟨(h.link w).1, (h.link w).2⟩, fun n x a hp hx => ?_⟩
  obtain ⟨p, hplan, hface⟩ := Option.map_eq_some_iff.1 hp
  obtain ⟨rfl, rfl⟩ := Prod.mk.inj hface
  have hnone := h.fresh n p hplan (PlanState.early_iff.1 hx)
  exact Bool.eq_false_iff.2 fun ha => by
    obtain ⟨q, hq⟩ := Option.isSome_iff_exists.1 ha
    exact hnone q (List.mem_of_find?_eq_some hq) (activePass?_state hq)

/-- An ACTIVE pass at the head of a queue is of a CUTTING plan. -/
theorem Working.cutting_of_active {E : Saw → Prop} (h : Working E s) (hq : QueueLaw s)
    (ha : ∃ x, s.headFace? w = some (x, true)) : ∃ a, s.headFace? w = some (.cutting, a) := by
  obtain ⟨x, hx⟩ := ha
  obtain ⟨p, hp, hface⟩ := Option.map_eq_some_iff.1 ((headFace?_eq s w).symm.trans hx)
  obtain ⟨hstate, hactive⟩ := Prod.mk.inj hface
  have hplan : s.planFace? p.number = some (p.state, true) := by
    rw [State.planFace?, (headPlan?_some hp).2, Option.map_some, Plan.face, hactive]
  rcases headPlan?_live hq hp with hlive | hlive
  · exact nomatch h.fresh _ _ _ hplan (by rw [hlive]; rfl)
  · exact headFace?_cutting.2 ⟨p, hp, hlive⟩

/-- The heads of two queues are two plans (R49). -/
theorem head?_ne (hq : QueueLaw s) {v : Saw} (hne : v ≠ w) {n : Nat} (hv : (s.saw v).queue.head? = some n) :
    (s.saw w).queue.head? ≠ some n := by
  intro hw
  obtain ⟨p, hp, hsaw, -⟩ := hq.queued v n (List.mem_of_head? hv)
  obtain ⟨p', hp', hsaw', -⟩ := hq.queued w n (List.mem_of_head? hw)
  obtain rfl : p = p' := Option.some.inj (hp.symm.trans hp')
  exact hne (Option.some.inj (hsaw.symm.trans hsaw'))

end Faces

/-! ## What moves no saw, and what moves one -/

/-- Every saw and every plan shows the face it showed. -/
structure Quiet (s t : State) : Prop where
  saw : ∀ v, (t.saw v).face = (s.saw v).face
  plan : ∀ n, t.planFace? n = s.planFace? n

/-- One saw alone is moved, outside its queue: the plans keep their states, and only a CUTTING plan at the head of its queue
gains or loses an ACTIVE pass. -/
structure Turned (w : Saw) (s t : State) : Prop where
  saw : ∀ v, v ≠ w → (t.saw v).face = (s.saw v).face
  queue : (t.saw w).queue = (s.saw w).queue
  stage : ∀ n, (t.planFace? n).map Prod.fst = (s.planFace? n).map Prod.fst
  plan : ∀ n, ¬ ((s.saw w).queue.head? = some n ∧ ∃ a, s.planFace? n = some (.cutting, a)) → t.planFace? n = s.planFace? n

section Relations

variable {s t u : State} {w : Saw}

theorem Quiet.refl (s : State) : Quiet s s := ⟨fun _ => rfl, fun _ => rfl⟩

/-- Composition from the last operation back. -/
theorem Quiet.after (k : Quiet t u) (h : Quiet s t) : Quiet s u :=
  ⟨fun v => (k.saw v).trans (h.saw v), fun n => (k.plan n).trans (h.plan n)⟩

theorem Quiet.turned (h : Quiet s t) (w : Saw) : Turned w s t :=
  ⟨fun v _ => h.saw v, congrArg (fun f => f.2.2.2) (h.saw w), fun n => by rw [h.plan], fun n _ => h.plan n⟩

theorem Turned.refl (w : Saw) (s : State) : Turned w s s := (Quiet.refl s).turned w

theorem Turned.after (k : Turned w t u) (h : Turned w s t) : Turned w s u := by
  refine ⟨fun v hv => (k.saw v hv).trans (h.saw v hv), k.queue.trans h.queue, fun n => (k.stage n).trans (h.stage n),
    fun n hn => (k.plan n fun ⟨hhead, a, ha⟩ => hn ⟨h.queue ▸ hhead, ?_⟩).trans (h.plan n hn)⟩
  have hstage := h.stage n
  rw [ha] at hstage
  obtain ⟨⟨x, b⟩, hx, hfst⟩ := Option.map_eq_some_iff.1 hstage.symm
  obtain rfl : x = .cutting := hfst
  exact ⟨b, hx⟩

theorem Quiet.headFace? (h : Quiet s t) (w : Saw) : t.headFace? w = s.headFace? w := by
  have hqueue : (t.saw w).queue = (s.saw w).queue := congrArg (fun f => f.2.2.2) (h.saw w)
  rw [State.headFace?, hqueue, show t.planFace? = s.planFace? from funext h.plan]
  rfl

/-- The head plan of a saw turned is CUTTING as it was. -/
theorem Turned.cutting (h : Turned w s t) (hc : ∃ a, s.headFace? w = some (.cutting, a)) :
    ∃ a, t.headFace? w = some (.cutting, a) := by
  obtain ⟨a, ha⟩ := hc
  obtain ⟨n, hn, hface⟩ := Option.bind_eq_some_iff.1 ha
  have hstage := h.stage n
  rw [hface] at hstage
  obtain ⟨⟨x, b⟩, hx, hfst⟩ := Option.map_eq_some_iff.1 hstage
  obtain rfl : x = .cutting := hfst
  exact ⟨b, by rw [State.headFace?, h.queue, hn]; exact hx⟩

theorem SawFit.congr {r r' : SawRec} {g : Option (PlanState × Bool)} (h : SawFit r g) (hstate : r'.state = r.state)
    (hcontext : r'.context = r.context) : SawFit r' g := by
  refine ⟨fun hw => h.working ?_, by rw [hstate, hcontext]; exact h.context, fun hx => h.held (hstate ▸ hx)⟩
  unfold SawRec.AtWork at hw ⊢
  rwa [hstate, hcontext] at hw

theorem LinkFit.congr {r r' : SawRec} (h : LinkFit r) (hstate : r'.state = r.state) (hlink : r'.link = r.link) : LinkFit r' :=
  ⟨fun hx => hlink.trans (h.offline (hstate ▸ hx)), fun hx => hstate ▸ h.down (hlink ▸ hx)⟩

theorem SawFit.of_face {r r' : SawRec} {g : Option (PlanState × Bool)} (h : SawFit r g) (e : r'.face = r.face) : SawFit r' g := by
  simp only [SawRec.face, Prod.mk.injEq] at e
  exact h.congr e.1 e.2.1

theorem LinkFit.of_face {r r' : SawRec} (h : LinkFit r) (e : r'.face = r.face) : LinkFit r' := by
  simp only [SawRec.face, Prod.mk.injEq] at e
  exact h.congr e.1 e.2.2.1

theorem Working.quiet {E : Saw → Prop} (h : Working E s) (k : Quiet s t) : Working E t :=
  ⟨fun w => by rw [k.headFace?]; exact (h.fit w).of_face (k.saw w), fun w hw => (h.link w hw).of_face (k.saw w),
    fun n x a ha => h.fresh n x a (k.plan n ▸ ha)⟩

/-- A law broken for one saw at most is the law where that saw stands as it says. -/
theorem Working.turned {E : Saw → Prop} (h : Working E s) (hq : QueueLaw s) (k : Turned w s t)
    (hfit : SawFit (t.saw w) (t.headFace? w)) (hlink : ¬ E w → LinkFit (t.saw w)) : Working E t := by
  refine ⟨fun v => ?_, fun v hv => ?_, fun n x a ha hx => ?_⟩
  · by_cases hvw : v = w
    · exact hvw ▸ hfit
    · have hqueue : (t.saw v).queue = (s.saw v).queue := congrArg (fun f => f.2.2.2) (k.saw v hvw)
      have hhead : t.headFace? v = s.headFace? v := by
        rw [State.headFace?, hqueue, State.headFace?]
        cases hv : (s.saw v).queue.head? with
        | none => rfl
        | some n => exact k.plan n fun hn => head?_ne hq hvw hv hn.1
      rw [hhead]
      exact (h.fit v).of_face (k.saw v hvw)
  · by_cases hvw : v = w
    · exact hvw ▸ hlink (hvw ▸ hv)
    · exact (h.link v hv).of_face (k.saw v hvw)
  · have hstage := k.stage n
    rw [ha] at hstage
    obtain ⟨⟨y, b⟩, hy, hfst⟩ := Option.map_eq_some_iff.1 hstage.symm
    obtain rfl : y = x := hfst
    have hkept : t.planFace? n = s.planFace? n := k.plan n fun ⟨_, c, hc⟩ => by
      rw [hy] at hc
      cases hc
      cases hx
    exact h.fresh n y a (hkept ▸ ha) hx

end Relations

/-! ## The shared operations -/

section Operations

variable {s t : State} {w : Saw}

theorem planFace?_congr (h : t.pln = s.pln) (n : Nat) : t.planFace? n = s.planFace? n := by
  rw [State.planFace?, plan?_congr h, State.planFace?]

theorem planFace?_updatePlan (s : State) (m : Nat) {f : Plan → Plan} (hk : ∀ p, (f p).number = p.number) (n : Nat) :
    (s.updatePlan m f).planFace? n = if n = m then (s.plan? n).map fun p => (f p).face else s.planFace? n := by
  rw [State.planFace?, updatePlan_plan? s m f n hk]
  split
  · rw [Option.map_map]; rfl
  · rfl

theorem Quiet.of_blocks (hs : t.sdp.saws = s.sdp.saws) (hp : t.pln = s.pln) : Quiet s t :=
  ⟨fun v => by rw [State.saw, hs]; rfl, planFace?_congr hp⟩

theorem Quiet.updateSaw (s : State) (w : Saw) {f : SawRec → SawRec} (hf : ∀ r, (f r).face = r.face) :
    Quiet s (s.updateSaw w f) := by
  refine ⟨fun v => ?_, fun _ => rfl⟩
  rw [State.saw_updateSaw]
  split
  · next h => exact h ▸ hf _
  · rfl

theorem Quiet.updatePlan (s : State) (m : Nat) {f : Plan → Plan} (hk : ∀ p, (f p).number = p.number)
    (hf : ∀ p, (f p).face = p.face) : Quiet s (s.updatePlan m f) := by
  refine ⟨fun _ => rfl, fun n => ?_⟩
  rw [planFace?_updatePlan s m hk]
  split
  · rw [funext hf]; rfl
  · rfl

theorem Quiet.send (s : State) (w : Saw) (f : Frame) : Quiet s (s.send w f) := .of_blocks rfl rfl
theorem Quiet.raise (s : State) (n : Notice) : Quiet s (s.raise n) := .of_blocks rfl rfl
theorem Quiet.raiseIf (s : State) (c : Bool) (n : Notice) : Quiet s (s.raiseIf c n) := .of_blocks (by simp) (by simp)
theorem Quiet.withWau (s : State) (f : Admission → Admission) : Quiet s (s.withWau f) := .of_blocks rfl rfl
theorem Quiet.chargeHead (s : State) (w : Saw) (f : Job → Job) : Quiet s (s.chargeHead w f) := .of_blocks (by simp) (by simp)
theorem Quiet.chargeWear (s : State) (w : Saw) (p : Nat) : Quiet s (s.chargeWear w p) := .of_blocks (by simp) (by simp)
theorem Quiet.faultBlade (s : State) (w : Saw) (c : Cause) : Quiet s (s.faultBlade w c) := .of_blocks (by simp) (by simp)
theorem Quiet.openSegment (s : State) (w : Saw) : Quiet s (s.openSegment w) := by
  unfold State.openSegment
  exact .updateSaw s w fun _ => rfl
theorem Quiet.stopTimer (s : State) (w : Saw) : Quiet s (s.updateSaw w fun r => { r with holdTimer := none }) :=
  .updateSaw s w fun _ => rfl

theorem Quiet.closeSegment (s : State) (w : Saw) (p : Nat) : Quiet s (s.closeSegment w p) := by
  unfold State.closeSegment
  exact .after (.updateSaw _ w fun _ => rfl) (.after (.chargeHead ..) (.after (.chargeHead ..)
    (.after (.updateSaw _ w fun _ => rfl) (.chargeWear ..))))

theorem Quiet.reportReached (s : State) (w : Saw) (p : Nat) : Quiet s (s.reportReached w p) := by
  unfold State.reportReached
  split
  · refine .updatePlan s _ (fun _ => rfl) fun x => Prod.ext rfl ?_
    show (x.updatePass _ _).activePass?.isSome = x.activePass?.isSome
    rw [Plan.activePass?, passes_updatePass, updateBy, find?_active_map (fun y => by split <;> rfl), Option.isSome_map]
    rfl
  · exact .refl s

theorem hasActive_giveBackThese (held : List Nat) (p : Plan) : (p.giveBackThese held).hasActive = p.hasActive := by
  rw [Plan.hasActive, giveBackThese_activePass?, Option.isSome_map]
  rfl

theorem Quiet.dropWindow (s : State) (w : Saw) : Quiet s (s.dropWindow w) := by
  unfold State.dropWindow
  refine .after (.updateSaw _ w fun _ => rfl) ?_
  split
  · exact .updatePlan s _ (fun _ => rfl) fun x => Prod.ext rfl (hasActive_giveBackThese _ x)
  · exact .refl s

/-- A saw's own record changed outside its queue. -/
theorem Turned.updateSaw (s : State) (w : Saw) {f : SawRec → SawRec} (hf : ∀ r, (f r).queue = r.queue) :
    Turned w s (s.updateSaw w f) :=
  ⟨fun v hv => by rw [State.saw_updateSaw_ne _ _ hv], by rw [State.saw_updateSaw_same, hf], fun _ => rfl, fun _ _ => rfl⟩

theorem Turned.setSawState (s : State) (w : Saw) (x : SawState) : Turned w s (s.setSawState w x) := .updateSaw s w fun _ => rfl

theorem Turned.writeContext (s : State) (w : Saw) (k : ContextKind) (c : Option Cause) (n : Nat) :
    Turned w s (s.writeContext w k c n) := by
  unfold State.writeContext
  exact .updateSaw s w fun _ => rfl

theorem Turned.orderHold (s : State) (w : Saw) : Turned w s (s.orderHold w) :=
  .after (.updateSaw _ w fun _ => rfl) ((Quiet.send ..).turned w)

/-- The passes of a CUTTING plan at the head of the queue may change as they will. -/
theorem Turned.updatePass {p : Plan} (hp : s.headPlan? w = some p) (hc : p.state = .cutting) (i : Nat) (f : Pass → Pass) :
    Turned w s (s.updatePass p.number i f) := by
  obtain ⟨hhead, hplan⟩ := headPlan?_some hp
  have hface (n : Nat) := planFace?_updatePlan s p.number (f := Plan.updatePass i f) (fun _ => rfl) n
  refine ⟨fun _ _ => rfl, rfl, fun n => ?_, fun n hn => ?_⟩
  · rw [State.updatePass, hface]
    split
    · rw [Option.map_map, State.planFace?, Option.map_map]; rfl
    · rfl
  · rw [State.updatePass, hface, if_neg]
    rintro rfl
    exact hn ⟨hhead, p.hasActive, by rw [State.planFace?, hplan, Option.map_some, Plan.face, hc]⟩

/-- The head plan of the saw is CUTTING. -/
def HeadCutting (s : State) (w : Saw) : Prop := ∃ a, s.headFace? w = some (.cutting, a)

theorem HeadCutting.state {p : Plan} (h : HeadCutting s w) (hp : s.headPlan? w = some p) : p.state = .cutting := by
  obtain ⟨p', hp', hx⟩ := headFace?_cutting.1 h
  cases hp.symm.trans hp'
  exact hx

theorem Turned.headCutting (k : Turned w s t) (h : HeadCutting s w) : HeadCutting t w := k.cutting h

theorem Turned.stagePass (h : HeadCutting s w) : Turned w s (s.stagePass w) := by
  unfold State.stagePass
  split
  · exact .refl w s
  next p hp =>
  split
  · exact .refl w s
  next q _ =>
  have hstaged (u : State) (hu : u.headPlan? w = some p) := Turned.updatePass (i := q.index)
    (f := fun q => { q with state := .staged }) hu (h.state hp)
  refine .after (hstaged _ ?_) (.after ((Quiet.send ..).turned w) (.updateSaw s w fun _ => rfl))
  refine Eq.trans (b := s.headPlan? w) (headPlan?_congr ?_ rfl) hp
  rw [State.saw_send, State.saw_updateSaw_same]

theorem Turned.refill (h : HeadCutting s w) : Turned w s (s.refill w) := by
  unfold State.refill
  split
  · exact .stagePass h
  · exact .refl w s

theorem Turned.grantGo (h : HeadCutting s w) : Turned w s (s.grantGo w) := by
  unfold State.grantGo
  refine .after (.setSawState ..) (.after ((Quiet.openSegment ..).turned w)
    (.after (.updateSaw _ w (f := fun r => { r with passTime := 0 }) fun _ => rfl) ?_))
  split
  · next o rest p ho hp =>
    have hgo (u : State) (hu : u.headPlan? w = some p) := Turned.updatePass (i := o.index)
      (f := fun q => { q with state := .active }) hu (h.state hp)
    exact .after (hgo _ hp) ((Quiet.send ..).turned w)
  · exact .refl w s

theorem Turned.tagActive (s : State) (w : Saw) (q : Pass) : Turned w s (s.tagActive w q).2 := by
  unfold State.tagActive
  split
  · exact .refl w s
  · dsimp only
    exact .updateSaw s w fun _ => rfl

theorem Turned.resumeCut (h : HeadCutting s w) : Turned w s (s.resumeCut w) := by
  unfold State.resumeCut
  have hsent : Turned w s (match s.activePass? w with | some (p, q) => s.sendResume w p q | none => s) := by
    split
    · exact .after ((Quiet.send ..).turned w) (.tagActive ..)
    · exact .refl w s
  have hopened := Turned.after ((Quiet.openSegment _ w).turned w) hsent
  exact .after (.setSawState ..) (.after (.updateSaw _ w (f := fun r => { r with context := none }) fun _ => rfl)
    (.after (.refill (hopened.headCutting h)) hopened))

theorem Turned.enterCut (h : HeadCutting s w) : Turned w s (s.enterCut w) := by
  unfold State.enterCut
  split
  · exact .resumeCut h
  · exact .grantGo h

end Operations

end Sys2Proof.Machine
end

section
/-! PROOFS. The working saws through an admission pass (R177, R178, R120): an entry of the line waits or is held, enters its cut,
and may fault there. -/

namespace Sys2Proof.Machine

/-! ## How a saw stands -/

section Standing

variable {r : SawRec} {g : Option (PlanState × Bool)} {s : State} {w : Saw}

theorem SawFit.context_none (h : SawFit r g) (hheld : r.state ≠ .held) (hfault : r.state ≠ .faulted) : r.context = none := by
  have hno : ¬ r.context.isSome = true := fun hc => (h.context.1 hc).elim hheld hfault
  simpa using hno

theorem LinkFit.up (h : LinkFit r) (hoff : r.state ≠ .offline) (hfault : r.state ≠ .faulted) : r.link ≠ .down := fun hl =>
  (h.down hl).elim hoff hfault

/-- A saw without a context whose head plan is CUTTING. -/
theorem SawFit.busy (hc : r.context = none) (hheld : r.state ≠ .held) (hfault : r.state ≠ .faulted)
    (hg : ∃ a, g = some (.cutting, a)) : SawFit r g :=
  ⟨fun _ => hg, by simp [hc, hheld, hfault], fun hx => absurd hx hheld⟩

/-- A saw OFFLINE, IDLE or LOADING without a context. -/
theorem SawFit.resting (hc : r.context = none) (hx : r.state = .offline ∨ r.state = .idle ∨ r.state = .loading) : SawFit r g := by
  refine ⟨fun hw => ?_, ?_, fun hh => ?_⟩
  · unfold SawRec.AtWork at hw
    rcases hx with hx | hx | hx <;> simp [hx, hc] at hw
  · rcases hx with hx | hx | hx <;> simp [hx, hc]
  · rcases hx with hx | hx | hx <;> simp [hx] at hh

/-- A FAULTED saw with its context. -/
theorem SawFit.faulted {c : Context} (hx : r.state = .faulted) (hc : r.context = some c)
    (hg : c.part.isSome = true → ∃ a, g = some (.cutting, a)) : SawFit r g := by
  refine ⟨fun hw => ?_, by simp [hc, hx], fun hh => nomatch hx.symm.trans hh⟩
  unfold SawRec.AtWork at hw
  simp only [hx, hc, reduceCtorEq, false_or, Option.bind_some] at hw
  exact hg hw

theorem LinkFit.of_faulted (hx : r.state = .faulted) : LinkFit r :=
  ⟨fun h => (nomatch hx.symm.trans h), fun _ => .inr hx⟩

theorem LinkFit.of_up (hl : r.link ≠ .down) (hx : r.state ≠ .offline) : LinkFit r :=
  ⟨fun h => absurd h hx, fun h => absurd h hl⟩

theorem Working.headCutting {E : Saw → Prop} (h : Working E s) (hw : (s.saw w).AtWork) : HeadCutting s w := (h.fit w).working hw

end Standing

/-! ## The line -/

/-- No saw stands in the line twice, and a saw in the line is WAITING or HELD. -/
structure Lined (s : State) : Prop where
  once : (s.wau.line.map LineEntry.saw).Nodup
  waits : ∀ e ∈ s.wau.line, s.states e.saw = .waiting ∨ s.states e.saw = .held

section Line

variable {s t : State} {w : Saw}

theorem Agree.lined (h : Agree (fun _ => False) s) : Lined s := by
  refine ⟨h.lineNodup, fun e he => ?_⟩
  obtain ⟨v, k⟩ := e
  cases k with
  | started => exact .inl ((h.started v id).1 he)
  | held => exact .inr ((h.held v id).1 he)

theorem Lined.congr (h : Lined s) (hline : t.wau.line = s.wau.line) (hs : ∀ v, t.states v = s.states v) : Lined t :=
  ⟨by rw [hline]; exact h.once, by simpa only [hline, hs] using h.waits⟩

/-- One saw outside the line takes another state. -/
theorem Lined.turned (h : Lined s) (hline : t.wau.line = s.wau.line) (hs : ∀ v, v ≠ w → t.states v = s.states v)
    (hout : ∀ e ∈ s.wau.line, e.saw ≠ w) : Lined t := by
  refine ⟨by rw [hline]; exact h.once, fun e he => ?_⟩
  rw [hline] at he
  rw [hs _ (hout e he)]
  exact h.waits e he

/-- A saw that neither waits nor is held stands outside the line. -/
theorem Lined.outside (h : Lined s) (hwait : s.states w ≠ .waiting) (hheld : s.states w ≠ .held) :
    ∀ e ∈ s.wau.line, e.saw ≠ w := fun e he hw => (h.waits e he).elim (hw ▸ hwait) (hw ▸ hheld)

/-- The line without some of its entries. -/
theorem Lined.sublist (h : Lined s) (hline : t.wau.line.Sublist s.wau.line) (hs : ∀ v, t.states v = s.states v) : Lined t :=
  ⟨h.once.sublist (hline.map _), fun e he => by rw [hs]; exact h.waits e (hline.subset he)⟩

end Line

/-! ## Entering a cut (R103, R129, R177) -/

section Entering

variable {E : Saw → Prop} {s : State} {w : Saw}

theorem resumeCut_context (s : State) (w : Saw) : ((s.resumeCut w).saw w).context = none := by
  unfold State.resumeCut
  simp only [State.setSawState, State.saw_updateSaw_same]

theorem grantGo_context (s : State) (w : Saw) : ((s.grantGo w).saw w).context = (s.saw w).context := by
  unfold State.grantGo State.openSegment
  simp only [State.setSawState, State.saw_updateSaw_same]
  split <;> rfl

/-- The states of a saw at work that is not HELD. -/
def SawState.inHand (x : SawState) : Prop := x = .primed ∨ x = .waiting ∨ x = .cutting ∨ x = .holding

/-- A saw with a CUTTING head plan and without a context is at work. -/
theorem Working.works {t : State} (h : Working E s) (hq : QueueLaw s) (ht : Turned w s t) (hx : (t.states w).inHand)
    (hc : (t.saw w).context = none) (hhead : HeadCutting s w) (hlink : ¬ E w → (t.saw w).link ≠ .down) : Working E t := by
  have hno (x : SawState) (hbad : ¬ x.inHand) : (t.saw w).state ≠ x := fun he => hbad (he ▸ hx)
  exact h.turned hq ht (.busy hc (hno _ (by simp [SawState.inHand])) (hno _ (by simp [SawState.inHand])) (ht.headCutting hhead))
    fun hw => .of_up (hlink hw) (hno _ (by simp [SawState.inHand]))

/-- A saw that enters its cut without a context stands CUTTING. -/
theorem Working.entered {t : State} (h : Working E s) (hq : QueueLaw s) (hk : Kept s t) (ht : Turned w s t)
    (hx : t.states w = .cutting) (hc : (t.saw w).context = none) (hhead : HeadCutting s w)
    (hlink : ¬ E w → (s.saw w).link ≠ .down) : Working E t :=
  h.works hq ht (.inr (.inr (.inl hx))) hc hhead fun hw => (hk.link w).trans_ne (hlink hw)

/-- A saw of the line enters its cut: a HELD one has its ACTIVE pass to resume (R113, R177). -/
theorem Working.enterCut (h : Working E s) (hq : QueueLaw s) (hx : s.states w = .waiting ∨ s.states w = .held) :
    Working E (s.enterCut w) := by
  have hwork : (s.saw w).AtWork := hx.elim (fun hx => .inr (.inl hx)) fun hx => .inr (.inr (.inr (.inr (.inl hx))))
  have hhead := h.headCutting hwork
  refine h.entered hq (.enterCut s w) (.enterCut hhead) (by simp) ?_ hhead fun hw => (h.link w hw).up ?_ ?_
  · unfold State.enterCut
    split
    · exact resumeCut_context s w
    · next hno =>
      rw [grantGo_context]
      have hwait : (s.saw w).state = .waiting := hx.resolve_right fun hheld =>
        hno (headFace?_active.1 ((h.fit w).held hheld))
      exact (h.fit w).context_none (by rw [hwait]; exact nofun) (by rw [hwait]; exact nofun)
  all_goals
    intro hbad
    rcases hx with hx | hx <;> cases hx.symm.trans hbad

end Entering

/-! ## A fault in a cut, and the pass (R120, R121, R178) -/

/-- A function that keeps the working saws and their line. -/
def KeepsWork (pass : State → State) : Prop := ∀ E s, QueueLaw s → Lined s → Working E s → Lined (pass s) ∧ Working E (pass s)

section Pass

variable {E : Saw → Prop} {s : State} {w : Saw} {pass : State → State}

theorem leaveWater_working (hp : KeepsWork pass) (hq : QueueLaw s) (hl : Lined s) (h : Working E s) (w : Saw) :
    Lined (s.leaveWater pass w) ∧ Working E (s.leaveWater pass w) := by
  unfold State.leaveWater
  split
  · exact hp E _ (hq.of_blocks rfl rfl) (hl.congr rfl fun _ => rfl) (h.quiet (.withWau ..))
  · exact ⟨hl.congr rfl fun _ => rfl, h.quiet (.withWau ..)⟩
  · exact ⟨hl, h⟩

/-- A context is written and the saw is FAULTED: a pass part is of a CUTTING plan. -/
theorem Working.faults {t : State} (h : Working E s) (hq : QueueLaw s) {k : ContextKind} {c : Option Cause} {n : Nat}
    (ht : Turned w s t) (hx : (t.saw w).state = .faulted)
    (hc : (t.saw w).context = some ⟨k, c, s.passPart? w, (s.saw w).passTime, n⟩) : Working E t :=
  h.turned hq ht (.faulted hx hc fun hpart => ht.headCutting (h.cutting_of_active hq (passPart?_active hpart))) fun _ =>
    .of_faulted hx

/-- The blade faults, the context is written and the saw is FAULTED, outside the line. -/
theorem Working.struck (h : Working E s) (hq : QueueLaw s) (hl : Lined s)
    (hout : ∀ e ∈ s.wau.line, e.saw ≠ w) (c : Cause) :
    Lined ((((s.faultBlade w c).writeContext w .fault (some c) 1).setSawState w .faulted).raise .sawFault) ∧
    Working E ((((s.faultBlade w c).writeContext w .fault (some c) 1).setSawState w .faulted).raise .sawFault) := by
  have hblade : Quiet s (s.faultBlade w c) := .faultBlade ..
  have hturned : Turned w (s.faultBlade w c)
      ((((s.faultBlade w c).writeContext w .fault (some c) 1).setSawState w .faulted).raise .sawFault) :=
    .after ((Quiet.raise ..).turned w) (.after (.setSawState ..) (.writeContext ..))
  refine ⟨hl.turned (w := w) (by simp) (fun v hv => ?_) hout,
    (h.quiet hblade).faults ((SameQueues.of_kept (.faultBlade ..)).law hq)
      (k := .fault) (c := some c) (n := 1) hturned ?_ ?_⟩
  · exact congrArg (fun f => f.1) ((hturned.saw v hv).trans (hblade.saw v))
  · simp [State.setSawState]
  · simp [State.setSawState, State.writeContext]

/-- The head plan of a saw stays CUTTING under the shared operations. -/
theorem HeadCutting.kept {t : State} (hk : Kept s t) (h : HeadCutting s w) : HeadCutting t w := by
  obtain ⟨plan, hplan, hx⟩ := headFace?_cutting.1 h
  obtain ⟨hqueue, hrecord⟩ := headPlan?_some hplan
  obtain ⟨plan', hplan', hkeeps⟩ := hk.plan' hrecord
  exact headFace?_cutting.2 ⟨plan', headPlan?_of_head (by rw [hk.queue]; exact hqueue) hplan', (Plan.kept_state hkeeps).trans hx⟩

/-- The accounts of a fault in the cut are closed. -/
theorem Quiet.faultAccounts (s : State) (w : Saw) (p : Nat) :
    Quiet s (((s.updateSaw w fun r => { r with holdTimer := none }).reportReached w p).closeSegment w p) :=
  .after (.closeSegment ..) (.after (.reportReached ..) (.stopTimer s w))

theorem Kept.faultAccounts (s : State) (w : Saw) (p : Nat) :
    Kept s (((s.updateSaw w fun r => { r with holdTimer := none }).reportReached w p).closeSegment w p) :=
  ((Kept.updateSaw s w (f := fun r => { r with holdTimer := none }) fun _ => rfl).trans (.reportReached ..)).trans
    (.closeSegment ..)

theorem faultInCut_working (hp : KeepsWork pass) (hk : ∀ s, Kept s (pass s)) (hshort : ShortensLine pass) (hq : QueueLaw s)
    (hl : Lined s) (h : Working E s) (hout : ∀ e ∈ s.wau.line, e.saw ≠ w) (p : Nat) (c : Cause) :
    Lined (s.faultInCut pass w p c) ∧ Working E (s.faultInCut pass w p c) := by
  have hquiet := Quiet.faultAccounts s w p
  have hkept := Kept.faultAccounts s w p
  have hline : (((s.updateSaw w fun r => { r with holdTimer := none }).reportReached w p).closeSegment w p).wau.line =
    s.wau.line := by simp
  unfold State.faultInCut
  dsimp only
  generalize ((s.updateSaw w fun r => { r with holdTimer := none }).reportReached w p).closeSegment w p = closed at *
  obtain ⟨hlined, hwork⟩ := leaveWater_working hp ((SameQueues.of_kept hkept).law hq)
    (hl.congr hline fun v => congrArg (fun f => f.1) (hquiet.saw v)) (h.quiet hquiet) w
  have hleft : Kept s (closed.leaveWater pass w) := hkept.trans (.leaveWater hk closed w)
  exact hwork.struck ((SameQueues.of_kept hleft).law hq) hlined
    (fun e he => hout e (hline ▸ (leaveWater_line hshort closed w).subset he)) c

theorem settleInterlock_working (hp : KeepsWork pass) (hk : ∀ s, Kept s (pass s)) (hshort : ShortensLine pass) (hq : QueueLaw s)
    (hl : Lined s) (h : Working E s) (hx : s.states w = .cutting) :
    Lined (s.settleInterlock pass w) ∧ Working E (s.settleInterlock pass w) := by
  unfold State.settleInterlock
  split
  · exact ⟨hl, h⟩
  · exact faultInCut_working hp hk hshort hq hl h
      (hl.outside (by rw [hx]; exact nofun) (by rw [hx]; exact nofun)) _ _

theorem admissionPass_working (n : Nat) : KeepsWork (admissionPass n) := by
  induction n with
  | zero => exact fun E s _ hl h => ⟨hl, h⟩
  | succ n ih =>
    intro E s hq hl h
    unfold admissionPass
    split
    · exact ⟨hl, h⟩
    next e es he =>
    split
    case isFalse => exact ⟨hl, h⟩
    dsimp only
    set popped := (s.withWau fun a => { a with line := es }).admitSaw e.saw with hpopped
    have hquiet : Quiet s popped := .after (.withWau ..) (.withWau ..)
    have hkept : Kept s popped := (Kept.withWau ..).trans (.withWau ..)
    have hx : popped.states e.saw = .waiting ∨ popped.states e.saw = .held := hl.waits e (he ▸ .head _)
    have hqueue := (SameQueues.of_kept hkept).law hq
    have hentered := (h.quiet hquiet).enterCut hqueue hx
    have honce := hl.once
    rw [he, List.map_cons, List.nodup_cons] at honce
    have hrest : ∀ f ∈ es, f.saw ≠ e.saw := fun f hf hfe => honce.1 (hfe ▸ List.mem_map_of_mem hf)
    have hline : (popped.enterCut e.saw).wau.line = es := enterCut_admitted_line ..
    have hlined : Lined (popped.enterCut e.saw) := by
      refine ⟨by rw [hline]; exact honce.2, fun f hf => ?_⟩
      rw [hline] at hf
      rw [State.states_enterCut, if_neg (hrest f hf)]
      exact hl.waits f (he ▸ .tail _ hf)
    have hqueue' := (SameQueues.of_kept (hkept.trans (Kept.enterCut popped e.saw))).law hq
    obtain ⟨hsettledLine, hsettled⟩ := settleInterlock_working ih (Kept.admissionPass n) (admissionPass_line n) hqueue' hlined
      hentered (w := e.saw) (by simp)
    exact ih E _ ((SameQueues.of_kept (.settleInterlock (Kept.admissionPass n) _ _)).law hqueue') hsettledLine hsettled

theorem runPass_working : KeepsWork State.runPass := fun E s => admissionPass_working _ E s

theorem runPass_shortens : ShortensLine State.runPass := fun s => admissionPass_line _ s

/-- A removal from the line, with the pass that follows (R183). -/
theorem removeFromLine_working (hq : QueueLaw s) (hl : Lined s) (h : Working E s) (w : Saw) :
    Lined (s.removeFromLine w) ∧ Working E (s.removeFromLine w) := by
  unfold State.removeFromLine
  split
  · exact runPass_working E _ (hq.of_blocks rfl rfl) (hl.sublist List.filter_sublist fun _ => rfl) (h.quiet (.withWau ..))
  · exact ⟨hl, h⟩

end Pass

end Sys2Proof.Machine
end

section
/-! PROOFS. The working saws under the requests about plans (R50 to R61): a plan outside the queues moves no saw, a plan released
joins one, and a plan withdrawn leaves one saw to go on. -/

namespace Sys2Proof.Machine

/-- Every saw stands with its head plan and its link, and no plan before CUTTING has an ACTIVE pass. -/
abbrev SawsStand (s : State) : Prop := Working (fun _ => False) s

/-! ## Plans outside the queues -/

section OffQueue

variable {E : Saw → Prop} {s t : State} {w : Saw} {number : Nat} {p : Plan}

/-- The law of the saws but for one saw. -/
structure WorkingBut (w : Saw) (E : Saw → Prop) (s : State) : Prop where
  fit : ∀ v, v ≠ w → SawFit (s.saw v) (s.headFace? v)
  link : ∀ v, v ≠ w → ¬ E v → LinkFit (s.saw v)
  fresh : ∀ n x a, s.planFace? n = some (x, a) → x.early = true → a = false

/-- One saw is moved, and plans that head no other queue. -/
theorem Working.but (h : Working E s) (w : Saw) (hs : ∀ v, v ≠ w → (t.saw v).face = (s.saw v).face)
    (hp : ∀ v, v ≠ w → ∀ n, (s.saw v).queue.head? = some n → t.planFace? n = s.planFace? n)
    (hfresh : ∀ n x a, t.planFace? n = some (x, a) → x.early = true → a = false) : WorkingBut w E t := by
  refine ⟨fun v hvw => ?_, fun v hvw hv => (h.link v hv).of_face (hs v hvw), hfresh⟩
  have hqueue : (t.saw v).queue = (s.saw v).queue := congrArg (fun f => f.2.2.2) (hs v hvw)
  have hhead : t.headFace? v = s.headFace? v := by
    rw [State.headFace?, hqueue, State.headFace?]
    cases hv : (s.saw v).queue.head? with
    | none => rfl
    | some n => exact hp v hvw n hv
  rw [hhead]
  exact (h.fit v).of_face (hs v hvw)

theorem WorkingBut.settle (h : WorkingBut w E s) (hfit : SawFit (s.saw w) (s.headFace? w)) (hlink : ¬ E w → LinkFit (s.saw w)) :
    Working E s := by
  refine ⟨fun v => ?_, fun v hv => ?_, h.fresh⟩
  all_goals by_cases hvw : v = w
  · exact hvw ▸ hfit
  · exact h.fit v hvw
  · exact hvw ▸ hlink (hvw ▸ hv)
  · exact h.link v hvw hv

/-- One saw alone is moved, in its queue too, and no plan. -/
structure Alone (w : Saw) (s t : State) : Prop where
  saw : ∀ v, v ≠ w → (t.saw v).face = (s.saw v).face
  plan : ∀ n, t.planFace? n = s.planFace? n

theorem Quiet.alone (k : Quiet s t) (w : Saw) : Alone w s t := ⟨fun v _ => k.saw v, k.plan⟩

theorem Alone.after {u : State} (k : Alone w t u) (h : Alone w s t) : Alone w s u :=
  ⟨fun v hv => (k.saw v hv).trans (h.saw v hv), fun n => (k.plan n).trans (h.plan n)⟩

theorem Alone.updateSaw (s : State) (w : Saw) (f : SawRec → SawRec) : Alone w s (s.updateSaw w f) :=
  ⟨fun v hv => by rw [State.saw_updateSaw_ne _ _ hv], fun _ => rfl⟩

theorem Alone.setSawState (s : State) (w : Saw) (x : SawState) : Alone w s (s.setSawState w x) := .updateSaw s w _

theorem Alone.writeContext (s : State) (w : Saw) (k : ContextKind) (c : Option Cause) (n : Nat) :
    Alone w s (s.writeContext w k c n) := by
  unfold State.writeContext
  exact .updateSaw s w _

theorem Working.but_self (h : Working E s) (w : Saw) : WorkingBut w E s := ⟨fun v _ => h.fit v, fun v _ => h.link v, h.fresh⟩

theorem WorkingBut.alone (h : WorkingBut w E s) (k : Alone w s t) : WorkingBut w E t := by
  refine ⟨fun v hvw => ?_, fun v hvw hv => (h.link v hvw hv).of_face (k.saw v hvw), fun n x a ha => h.fresh n x a (k.plan n ▸ ha)⟩
  have hqueue : (t.saw v).queue = (s.saw v).queue := congrArg (fun f => f.2.2.2) (k.saw v hvw)
  have hhead : t.headFace? v = s.headFace? v := by
    rw [State.headFace?, hqueue, show t.planFace? = s.planFace? from funext k.plan]
    rfl
  rw [hhead]
  exact (h.fit v hvw).of_face (k.saw v hvw)

theorem Working.alone (h : Working E s) (k : Alone w s t) (hfit : SawFit (t.saw w) (t.headFace? w))
    (hlink : ¬ E w → LinkFit (t.saw w)) : Working E t := ((h.but_self w).alone k).settle hfit hlink

/-- One plan is moved that stands in no queue. -/
theorem Working.restates (h : Working E s) (hs : t.sdp = s.sdp) (hout : ∀ v, number ∉ (s.saw v).queue)
    (hother : ∀ n, n ≠ number → t.planFace? n = s.planFace? n)
    (hnew : ∀ x a, t.planFace? number = some (x, a) → x.early = true → a = false) : Working E t := by
  have hsaw (v : Saw) : t.saw v = s.saw v := by rw [State.saw, hs]; rfl
  have hhead (v : Saw) : t.headFace? v = s.headFace? v := by
    rw [State.headFace?, hsaw, State.headFace?]
    cases hv : (s.saw v).queue.head? with
    | none => rfl
    | some n => exact hother n fun hn => hout v (hn ▸ List.mem_of_head? hv)
  refine ⟨fun v => by rw [hsaw, hhead]; exact h.fit v, fun v hv => by rw [hsaw]; exact h.link v hv, fun n x a ha hx => ?_⟩
  by_cases hn : n = number
  · exact hnew x a (hn ▸ ha) hx
  · exact h.fresh n x a (hother n hn ▸ ha) hx

theorem unqueued_of_absent (hq : QueueLaw s) (hp : s.plan? number = none) (v : Saw) : number ∉ (s.saw v).queue := fun hv => by
  obtain ⟨p, hplan, -⟩ := hq.queued v number hv
  cases hplan.symm.trans hp

theorem unqueued_of_state (hq : QueueLaw s) (hp : s.plan? number = some p) (hr : p.state ≠ .released) (hc : p.state ≠ .cutting)
    (v : Saw) : number ∉ (s.saw v).queue := fun hv => by
  obtain ⟨p', hplan, -, hlive⟩ := hq.queued v number hv
  cases hplan.symm.trans hp
  exact hlive.elim hr hc

theorem planFace?_insertBy (hfree : s.plan? p.number = none) (n : Nat) :
    (s.withPlans (insertBy Plan.number p)).planFace? n = if n = p.number then some p.face else s.planFace? n := by
  unfold State.planFace?
  have hplan : (s.withPlans (insertBy Plan.number p)).plan? n = if n = p.number then some p else s.plan? n := by
    split
    · next hn => exact hn ▸ findBy_insertBy_self hfree
    · next hn => exact findBy_insertBy_ne hn
  rw [hplan]
  split <;> rfl

theorem planFace?_removeBy (s : State) (number n : Nat) :
    (s.withPlans (removeBy Plan.number number)).planFace? n = if n = number then none else s.planFace? n := by
  show (findBy Plan.number n (removeBy Plan.number number s.pln.plans)).map Plan.face = _
  rw [findBy_removeBy]
  split <;> rfl

theorem hasActive_false (h : ∀ q ∈ p.passes, q.state ≠ .active) : p.hasActive = false := by
  simpa [Plan.hasActive, Plan.activePass?] using h

end OffQueue

section Requests

variable {s : State}

theorem createPlan_saws (hq : QueueLaw s) (h : SawsStand s) (number job slab kerf : Nat) (strips : List Strip) :
    SawsStand (createPlan number job slab kerf strips s).2 := by
  unfold createPlan
  split
  · exact h
  split
  case h_2 => exact h
  iterate 3 (split; exact h)
  split
  · exact h
  next hfree =>
  have hfree : s.plan? number = none := by simpa using hfree
  have hface (n : Nat) := planFace?_insertBy (p := newPlan number job slab kerf strips) hfree n
  refine h.restates (number := number) rfl (unqueued_of_absent hq hfree) (fun n hn => ?_) fun x a ha _ => ?_
  · exact (hface n).trans (if_neg hn)
  · cases ((hface number).trans (if_pos rfl)).symm.trans ha
    rfl

/-- A plan outside the queues is rewritten. -/
theorem Working.rewrites {t : State} {number : Nat} {p : Plan} (h : SawsStand s) (hq : QueueLaw s) (hp : s.plan? number = some p)
    (hr : p.state ≠ .released) (hc : p.state ≠ .cutting) {f : Plan → Plan} (hk : ∀ x, (f x).number = x.number)
    (hs : t.sdp = s.sdp) (ht : t.pln = (s.updatePlan number f).pln) (hf : (f p).state.early = true → (f p).hasActive = false) :
    SawsStand t := by
  have hface (n : Nat) := (planFace?_congr ht n).trans (planFace?_updatePlan s number hk n)
  refine h.restates (number := number) hs (unqueued_of_state hq hp hr hc) (fun n hn => (hface n).trans (if_neg hn))
    fun x a ha hx => ?_
  have hnew := ((hface number).trans (if_pos rfl)).symm.trans ha
  rw [hp] at hnew
  cases hnew
  exact hf hx

theorem revisePlan_saws (hq : QueueLaw s) (h : SawsStand s) (number kerf : Nat) (strips : List Strip) :
    SawsStand (revisePlan number kerf strips s).2 := by
  unfold revisePlan
  iterate 2 (split; exact h)
  next p hp =>
  split
  · next hx =>
    split
    · exact h
    · exact h.rewrites hq hp (by simp [hx]) (by simp [hx]) (f := Plan.revise kerf strips) (fun _ => rfl) rfl rfl fun _ => rfl
  · next hx =>
    split
    · exact h
    · exact h.rewrites hq hp (by simp [hx]) (by simp [hx]) (f := Plan.revise kerf strips) (fun _ => rfl) rfl rfl fun _ => rfl
  · exact h

theorem layout_fresh {i : LayoutInput} {d : Derived} (h : layout i = .ok d) : ∀ q ∈ d.passes, q.state = .pending := by
  unfold layout at h
  split at h
  · cases h
  split at h
  · cases h
  · cases h
    exact fun q hq => (passList_fresh i q hq).1

theorem checkPlan_saws (hq : QueueLaw s) (h : SawsStand s) (number : Nat) : SawsStand (checkPlan number s).2 := by
  unfold checkPlan
  split
  · exact h
  next p hp =>
  split
  · exact h
  next hx =>
  have hdraft : p.state = .draft := not_not.1 hx
  iterate 5 (split; exact h)
  next d hd =>
  obtain rfl : p.number = number := (findBy_some hp).2
  refine h.rewrites hq hp (by simp [hdraft]) (by simp [hdraft])
    (f := fun p => { p with derived := some d, state := .checked }) (fun _ => rfl) rfl rfl fun _ => ?_
  exact hasActive_false fun q hqp => by rw [layout_fresh hd q hqp]; exact nofun

theorem retirePlan_saws (hq : QueueLaw s) (h : SawsStand s) (number : Nat) : SawsStand (retirePlan number s).2 := by
  unfold retirePlan
  split
  · exact h
  next p hp =>
  split
  case isFalse => exact h
  next he =>
  refine h.restates (number := number) rfl (unqueued_of_state hq hp ?_ ?_) (fun n hn => ?_) fun x a ha _ => ?_
  · intro hx; simp [hx, PlanState.ended] at he
  · intro hx; simp [hx, PlanState.ended] at he
  · exact (planFace?_removeBy s number n).trans (if_neg hn)
  · exact nomatch ((planFace?_removeBy s number number).trans (if_pos rfl)).symm.trans ha

theorem cancelDraft_number (listed : List Nat) (p : Plan) : (p.cancelDraft listed).number = p.number := by
  unfold Plan.cancelDraft
  split <;> rfl

/-- CLOSE JOB cancels drafts alone: a plan in a queue is no draft (R195). -/
theorem closeJob_saws (hq : QueueLaw s) (h : SawsStand s) (number : Nat) : SawsStand (closeJob number s).2 := by
  unfold closeJob
  iterate 3 (split; exact h)
  next j _ _ _ =>
  dsimp only [performed]
  set t := ((s.withPlans (List.map (Plan.cancelDraft j.plans))).updateJob number _)
  have hface (n : Nat) : t.planFace? n = (s.plan? n).map fun p => (p.cancelDraft j.plans).face := by
    show (findBy Plan.number n (s.pln.plans.map (Plan.cancelDraft j.plans))).map Plan.face = _
    rw [findBy_map (cancelDraft_number _), Option.map_map]
    rfl
  have hlive {n : Nat} {p : Plan} (hp : s.plan? n = some p) (hx : p.state ≠ .draft) : t.planFace? n = s.planFace? n := by
    have hkept : p.cancelDraft j.plans = p := by simp [Plan.cancelDraft, hx]
    rw [hface, State.planFace?, hp, Option.map_some, Option.map_some, hkept]
  have hhead (v : Saw) : t.headFace? v = s.headFace? v := by
    show (s.saw v).queue.head?.bind t.planFace? = (s.saw v).queue.head?.bind s.planFace?
    cases hv : (s.saw v).queue.head? with
    | none => rfl
    | some n =>
      obtain ⟨p, hp, -, hx⟩ := hq.queued v n (List.mem_of_head? hv)
      exact hlive hp (by rcases hx with hx | hx <;> simp [hx])
  refine ⟨fun v => by rw [hhead]; exact h.fit v, h.link, fun n x a ha hx => ?_⟩
  rw [hface] at ha
  obtain ⟨p, hp, hpx⟩ := Option.map_eq_some_iff.1 ha
  refine h.fresh n x a ?_ hx
  rw [State.planFace?, hp, Option.map_some, ← hpx]
  unfold Plan.cancelDraft at hpx ⊢
  split
  · next hd =>
    rw [if_pos hd] at hpx
    cases hpx
    cases hx
  · rfl

end Requests

/-! ## Loading and going on (R93, R97) -/

section Loading

variable {E : Saw → Prop} {s t : State} {w : Saw} {number : Nat} {p : Plan}

/-- A saw without a context is left IDLE or LOADING with its link up. -/
theorem WorkingBut.rests (h : WorkingBut w E s) (hx : s.states w = .idle ∨ s.states w = .loading)
    (hc : (s.saw w).context = none) (hl : ¬ E w → (s.saw w).link ≠ .down) : Working E s := by
  refine h.settle (.resting hc (.inr hx)) fun hw => .of_up (hl hw) fun hoff => ?_
  rcases hx with hx | hx <;> exact nomatch hx.symm.trans hoff

theorem Working.loadHead (h : Working E s) (w : Saw) : Working E (s.loadHead w) := by
  unfold State.loadHead
  split
  case isFalse => exact h
  next hidle =>
  obtain ⟨hlink, hidle⟩ := hidle
  split
  · exact h
  split
  case isFalse => exact h
  split
  · exact h
  next p _ _ _ r _ =>
  have hc : (s.saw w).context = none := (h.fit w).context_none (by rw [hidle]; exact nofun) (by rw [hidle]; exact nofun)
  have halone : Alone w s ((s.send w (loadFrame p r)).updateSaw w fun x =>
      { x with pendingLoad := some p.number, state := .loading }) :=
    .after (.updateSaw _ w _) ((Quiet.send ..).alone w)
  refine ((h.but_self w).alone halone).rests (.inr (by simp [State.states])) ?_ fun _ => ?_
  · simpa using hc
  · simp [hlink]

/-- A saw without a context and with its link up goes on, whatever its state was (R97). -/
theorem WorkingBut.goOn (h : WorkingBut w E s) (hc : (s.saw w).context = none) (hl : ¬ E w → (s.saw w).link ≠ .down) :
    Working E (s.goOn w) := by
  refine Working.loadHead ((h.alone (.setSawState s w .idle)).rests (.inl (by simp)) ?_ fun hw => ?_) w
  · simpa [State.setSawState] using hc
  · simpa [State.setSawState] using hl hw

theorem Quiet.unload (s : State) (w : Saw) (n : Nat) : Quiet s (s.unload w n) := by
  unfold State.unload
  split
  · exact .after (.updateSaw _ w fun _ => rfl) (.send ..)
  · exact .refl s

theorem cancelLoad_saws (h : SawsStand s) (w : Saw) (n : Nat) : SawsStand (s.cancelLoad w n) := by
  unfold State.cancelLoad
  split
  case isFalse => exact h
  have hcleared := h.quiet (.after (.updateSaw _ w (f := fun r => { r with pendingLoad := none }) fun _ => rfl)
    (Quiet.unload s w n))
  dsimp only
  generalize (s.unload w n).updateSaw w (fun r => { r with pendingLoad := none }) = cleared at *
  split
  · next hx =>
    refine (hcleared.but_self w).goOn ((hcleared.fit w).context_none ?_ ?_) fun hw => (hcleared.link w hw).up ?_ ?_
    all_goals rw [hx]; exact nofun
  · exact hcleared

/-- A saw whose head plan is not CUTTING is neither at work nor HELD. -/
theorem SawFit.idleness {r : SawRec} {g g' : Option (PlanState × Bool)} (h : SawFit r g) (hg : ∀ a, g ≠ some (.cutting, a)) :
    SawFit r g' := by
  have hno : ¬ r.AtWork := fun hw => (h.working hw).elim hg
  exact ⟨fun hw => absurd hw hno, h.context, fun hh => absurd (.inr (.inr (.inr (.inr (.inl hh))))) hno⟩

/-- An ACTIVE pass or work needs a head: a saw keeps its fit when its head stays. -/
theorem SawFit.joined {r : SawRec} {g g' : Option (PlanState × Bool)} (h : SawFit r g) (hg : g ≠ none → g' = g) : SawFit r g' := by
  cases g with
  | none => exact h.idleness fun _ => nofun
  | some f => rw [hg nofun]; exact h

theorem releasePlan_saws (hq : QueueLaw s) (h : SawsStand s) (number saw : Nat) : SawsStand (releasePlan number saw s).2 := by
  unfold releasePlan
  split
  · exact h
  next w _ =>
  split
  · exact h
  next p hp =>
  split
  · exact h
  next hx =>
  have hchecked : p.state = .checked := not_not.1 hx
  split
  · exact h
  next hroom =>
  split
  · exact h
  iterate 3 (split; exact h)
  show SawsStand ((s.planReleased number w).loadHead w)
  have hout := unqueued_of_state hq hp (by simp [hchecked]) (by simp [hchecked])
  have hface (n : Nat) : (s.planReleased number w).planFace? n = if n = number then some (.released, p.hasActive)
      else s.planFace? n := by
    refine (planFace?_updatePlan s number (f := fun p => { p with state := .released, saw := some w }) (fun _ => rfl) n).trans ?_
    rw [show s.plan? n = _ from rfl]
    split
    · next hn => rw [hn, hp]; rfl
    · rfl
  have hfresh : p.hasActive = false :=
    h.fresh number p.state p.hasActive (by rw [State.planFace?, hp]; rfl) (by rw [hchecked]; rfl)
  have hsaw (v : Saw) : (s.planReleased number w).saw v =
      if v = w then { s.saw w with queue := (s.saw w).queue ++ [number] } else s.saw v :=
    State.saw_updateSaw _ w v fun r => { r with queue := r.queue ++ [number] }
  have hhead {v : Saw} {n : Nat} (hn : (s.saw v).queue.head? = some n) : (s.planReleased number w).planFace? n = s.planFace? n := by
    rw [hface, if_neg]
    rintro rfl
    exact hout v (List.mem_of_head? hn)
  have hreleased : SawsStand (s.planReleased number w) := by
    refine (h.but w (fun v hv => by rw [hsaw, if_neg hv]) (fun v hv n hn => hhead hn) fun n x a ha hx => ?_).settle ?_ fun hw => ?_
    · rw [hface] at ha
      split at ha
      · cases ha
        exact hfresh
      · exact h.fresh n x a ha hx
    · have hown := (h.fit w).joined (g' := (s.planReleased number w).headFace? w) fun hg => ?_
      · exact hown.congr (by rw [hsaw, if_pos rfl]) (by rw [hsaw, if_pos rfl])
      · obtain ⟨f, hf⟩ := Option.ne_none_iff_exists'.1 hg
        obtain ⟨n, hn, -⟩ := Option.bind_eq_some_iff.1 hf
        rw [State.headFace?, State.headFace?, hsaw, if_pos rfl, List.head?_append, hn]
        exact hhead hn
    · exact (h.link w hw).congr (by rw [hsaw, if_pos rfl]) (by rw [hsaw, if_pos rfl])
  exact hreleased.loadHead w

/-! ## Withdrawing a plan (R49, R57, R59) -/

theorem head?_filter_ne {l : List Nat} {n m : Nat} (h : l.head? = some m) (hne : m ≠ n) :
    (l.filter fun x => x != n).head? = some m := by
  cases l with
  | nil => cases h
  | cons x xs =>
    cases h
    rw [List.filter_cons, if_pos (by simpa using hne)]
    rfl

theorem leaveQueue_planFace? (s : State) (w : Saw) (number n : Nat) : (s.leaveQueue w number).planFace? n = s.planFace? n := by
  refine (planFace?_updatePlan (s.updateSaw w fun r => { r with queue := r.queue.filter fun m => m != number }) number
    (f := fun p => { p with saw := none }) (fun _ => rfl) n).trans ?_
  split
  · next hn => rw [hn]; rfl
  · rfl

theorem Alone.leaveQueue (s : State) (w : Saw) (n : Nat) : Alone w s (s.leaveQueue w n) :=
  ⟨fun v hv => by rw [leaveQueue_saw, if_neg hv], leaveQueue_planFace? s w n⟩

/-- A plan heads no queue but that of the saw it names. -/
theorem head?_of_placed (hq : QueueLaw s) (hp : s.plan? number = some p) (hw : p.saw = some w) {v : Saw} (hv : v ≠ w) :
    (s.saw v).queue.head? ≠ some number := fun hhead => by
  obtain ⟨p', hp', hsaw, -⟩ := hq.queued v number (List.mem_of_head? hhead)
  cases hp.symm.trans hp'
  exact hv (Option.some.inj (hsaw.symm.trans hw))

/-- The plan of a saw takes a state from which nothing early comes. -/
theorem Working.ends (h : Working E s) (hq : QueueLaw s) (hp : s.plan? number = some p) (hw : p.saw = some w)
    {f : PlanState × Bool} (hs : ∀ v, v ≠ w → (t.saw v).face = (s.saw v).face)
    (ht : ∀ n, t.planFace? n = if n = number then some f else s.planFace? n)
    (hf : f.1.early = true → f.2 = false) : WorkingBut w E t := by
  refine h.but w hs (fun v hv n hn => ?_) fun n x a ha hx => ?_
  · rw [ht, if_neg]
    rintro rfl
    exact head?_of_placed hq hp hw hv hn
  · rw [ht] at ha
    split at ha
    · cases ha
      exact hf hx
    · exact h.fresh n x a ha hx

end Loading

end Sys2Proof.Machine
end

section
/-! PROOFS. The working saws when a plan is cancelled or abandoned (R57, R59, R96, R130), and when a plan is loaded (R94). -/

namespace Sys2Proof.Machine

section Withdrawing

variable {E : Saw → Prop} {s t : State} {w : Saw} {number : Nat} {p : Plan}

theorem planFace?_of_plan (hp : s.plan? number = some p) : s.planFace? number = some p.face := by rw [State.planFace?, hp]; rfl

/-- One plan takes another state. -/
theorem planFace?_restate (hp : s.plan? number = some p) (x : PlanState) (n : Nat) :
    (s.updatePlan number fun p => { p with state := x }).planFace? n =
      if n = number then some (x, p.hasActive) else s.planFace? n := by
  rw [planFace?_updatePlan s number (f := fun p => { p with state := x }) (fun _ => rfl) n]
  split
  · next hn => rw [hn, hp]; rfl
  · rfl

/-- A plan that is not CUTTING leaves the queue of its saw: at work, the saw has another head. -/
theorem Working.leaves (h : Working E s) (hp : s.plan? number = some p)
    (hc : p.state ≠ .cutting) (ht : ∀ n, n ≠ number → t.planFace? n = s.planFace? n)
    (hsaw : t.saw w = { s.saw w with queue := (s.saw w).queue.filter fun m => m != number }) :
    SawFit (t.saw w) (t.headFace? w) := by
  refine SawFit.congr (r := s.saw w) ?_ (by rw [hsaw]) (by rw [hsaw])
  cases hn : (s.saw w).queue.head? with
  | none => exact (h.fit w).idleness fun a ha => by rw [State.headFace?, hn] at ha; cases ha
  | some n =>
    by_cases hne : n = number
    · refine (h.fit w).idleness fun a ha => ?_
      rw [State.headFace?, hn, hne] at ha
      exact hc (congrArg Prod.fst (Option.some.inj ((planFace?_of_plan hp).symm.trans ha)))
    · have hhead : t.headFace? w = s.headFace? w := by
        rw [State.headFace?, hsaw, head?_filter_ne hn hne, State.headFace?, hn]
        exact ht n hne
      rw [hhead]
      exact h.fit w

theorem Quiet.undoCheck (s : State) (p : Plan) : Quiet s (s.undoCheck p) := .of_blocks rfl rfl

theorem cancelPlan_saws (hq : QueueLaw s) (h : SawsStand s) (number : Nat) : SawsStand (cancelPlan number s).2 := by
  unfold cancelPlan
  split
  · exact h
  next p hp =>
  dsimp only
  split
  case h_1 hx =>
    exact h.rewrites hq hp (by simp [hx]) (by simp [hx]) (f := fun p => { p with state := .cancelled }) (fun _ => rfl) rfl rfl nofun
  case h_2 hx =>
    exact h.rewrites hq hp (by simp [hx]) (by simp [hx]) (f := fun p => { p with state := .cancelled }) (fun _ => rfl) rfl rfl nofun
  case h_4 => exact h
  next hx =>
  obtain ⟨w, hw, -⟩ := hq.saw_of_live hp (.inl hx)
  rw [hw]
  show SawsStand (((s.cancelled p number).leaveQueue w number).cancelLoad w number)
  have hcancelled (n : Nat) : (s.cancelled p number).planFace? n = if n = number then some (.cancelled, p.hasActive)
      else s.planFace? n := planFace?_restate (s := s.undoCheck p) hp .cancelled n
  have hface (n : Nat) := (leaveQueue_planFace? (s.cancelled p number) w number n).trans (hcancelled n)
  have hsaw := leaveQueue_saw (s.cancelled p number) w number
  have hleft : WorkingBut w (fun _ => False) ((s.cancelled p number).leaveQueue w number) :=
    h.ends hq hp hw (fun v hv => by rw [hsaw, if_neg hv]; rfl) hface nofun
  refine cancelLoad_saws (hleft.settle (h.leaves hp (by simp [hx]) (fun n hn => (hface n).trans (if_neg hn)) ?_) fun hE => ?_) w
    number
  · rw [hsaw, if_pos rfl]
    rfl
  · refine (h.link w hE).congr ?_ ?_
    all_goals rw [hsaw, if_pos rfl]; rfl

/-- The saw goes on by its link (R130). -/
theorem WorkingBut.goOnByLink (h : WorkingBut w E s) (hc : (s.saw w).context = none) : Working E (s.goOnByLink w) := by
  unfold State.goOnByLink
  split
  · next hl => exact h.goOn hc fun _ => by rw [hl]; exact nofun
  · next hl =>
    refine (h.alone (.setSawState s w .offline)).settle (.resting ?_ (.inl ?_)) fun _ => ⟨fun _ => ?_, fun _ => .inl ?_⟩
    all_goals simp [State.setSawState, hc, hl]

theorem hasActive_giveBackAll (p : Plan) : p.giveBackAll.hasActive = p.hasActive := by
  have hpasses : p.giveBackAll.passes = p.passes.map Pass.giveBack := by
    unfold Plan.giveBackAll Plan.passes
    cases p.derived <;> rfl
  have hstate (q : Pass) : q.giveBack.state = .active ↔ q.state = .active := by
    obtain ⟨i, k, n, c, l, x, d⟩ := q
    cases x <;> simp [Pass.giveBack]
  rw [Plan.hasActive, Plan.activePass?, hpasses, find?_active_map hstate, Option.isSome_map]
  rfl

theorem Quiet.writeOff (s : State) (p : Plan) : Quiet s (s.writeOff p) := by
  have hgiven : Quiet s (s.updatePlan p.number Plan.giveBackAll) :=
    .updatePlan s _ (fun _ => rfl) fun x => Prod.ext rfl (hasActive_giveBackAll x)
  refine .after (.of_blocks ?_ ?_) hgiven
  · simp [State.writeOff]
  · simp [State.writeOff]

theorem Lined.of_blocks (h : Lined s) (hw : t.wau = s.wau) (hs : t.sdp = s.sdp) : Lined t :=
  h.congr (by rw [hw]) (State.states_of_saws hs)

theorem abandonPlan_saws (hq : QueueLaw s) (hl : Lined s) (h : SawsStand s) (number : Nat) :
    SawsStand (abandonPlan number s).2 := by
  unfold abandonPlan
  split
  · exact h
  next p hp =>
  split
  · exact h
  next hx =>
  have hcutting : p.state = .cutting := not_not.1 (not_or.1 hx).1
  obtain ⟨w, hw, hstanding⟩ := hq.saw_of_live hp (.inr hcutting)
  rw [hw]
  dsimp only [performed, Option.elim]
  have hwritten := (SameQueues.writeOff s p).law hq
  obtain ⟨-, hremoved⟩ := removeFromLine_working hwritten (hl.of_blocks (by simp) (by simp)) (h.quiet (.writeOff s p)) w
  have hkept : Kept (s.writeOff p) ((s.writeOff p).removeFromLine w) := .removeFromLine ..
  have hqueue := (SameQueues.of_kept hkept).law hwritten
  have hsame : SameQueues s ((s.writeOff p).removeFromLine w) := .after (.of_kept hkept) (.writeOff s p)
  obtain ⟨p', hp', -, -, hsaw'⟩ := standing?_eq_some.1 ((hsame.standing number).trans hstanding)
  unfold State.clearSaw
  dsimp only
  generalize (s.writeOff p).removeFromLine w = removed at *
  have hcleared : Alone w removed ((removed.updateSaw w fun r =>
      { r with context := none, outstanding := [], pendingLoad := none, passTime := 0 }).unload w number) :=
    .after ((Quiet.unload ..).alone w) (.updateSaw ..)
  have hcontext : (((removed.updateSaw w fun r =>
      { r with context := none, outstanding := [], pendingLoad := none, passTime := 0 }).unload w number).saw w).context = none := by
    have hface := (Quiet.unload (removed.updateSaw w fun r =>
      { r with context := none, outstanding := [], pendingLoad := none, passTime := 0 }) w number).saw w
    exact (congrArg (fun f => f.2.1) hface).trans (by rw [State.saw_updateSaw_same])
  generalize (removed.updateSaw w fun r =>
    { r with context := none, outstanding := [], pendingLoad := none, passTime := 0 }).unload w number = cleared at *
  have hended : WorkingBut w (fun _ => False) (cleared.updatePlan number fun p => { p with state := .abandoned }) := by
    refine hremoved.ends hqueue hp' hsaw' (f := (.abandoned, p'.hasActive)) hcleared.saw (fun n => ?_) nofun
    rw [planFace?_updatePlan cleared number (f := fun p => { p with state := .abandoned }) (fun _ => rfl), ← hcleared.plan]
    split
    · next hn =>
      obtain ⟨x, hx, hface⟩ := Option.map_eq_some_iff.1 ((hcleared.plan number).trans (planFace?_of_plan hp'))
      rw [hn, hx, Option.map_some, show p'.hasActive = x.hasActive from (congrArg Prod.snd hface).symm]
      rfl
    · rfl
  refine (hended.alone (.leaveQueue _ w number)).goOnByLink ?_
  rw [leaveQueue_saw, if_pos rfl]
  exact hcontext

end Withdrawing

/-! ## LOADED (R62, R94) -/

section Loaded

variable {s : State} {w : Saw} {plan : Nat}

theorem checkLoaded_none (h : checkLoaded w plan s = none) : (s.saw w).pendingLoad = some plan ∧ (s.saw w).state = .loading := by
  unfold checkLoaded at h
  split at h
  · cases h
  next hp =>
  split at h
  · cases h
  next hx =>
  exact ⟨not_not.1 hp, not_not.1 hx⟩

theorem reportLoad_law (h : QueueLaw s) (hn : (s.saw w).queue.head? = some plan) : QueueLaw (s.reportLoad plan) := by
  unfold State.reportLoad
  split
  · split
    · exact (SameQueues.of_steady (.putOnSaw ..) (by simp)).law (h.cut hn)
    · exact h
  · exact h

/-- The head plan reported loaded is CUTTING (R62). -/
theorem reportLoad_face (h : QueueLaw s) (hn : (s.saw w).queue.head? = some plan) :
    ∃ a, ∀ n, (s.reportLoad plan).planFace? n = if n = plan then some (.cutting, a) else s.planFace? n := by
  obtain ⟨p, hp, -, hlive⟩ := h.queued w plan (List.mem_of_head? hn)
  refine ⟨p.hasActive, fun n => ?_⟩
  simp only [State.reportLoad, hp]
  rcases hlive with hx | hx
  · simp only [hx]
    exact (planFace?_congr (by simp) n).trans (planFace?_restate hp .cutting n)
  · simp only [hx]
    split
    · next he => rw [he, planFace?_of_plan hp, Plan.face, hx]
    · rfl

theorem stagePass_context (s : State) (w : Saw) : ((s.stagePass w).saw w).context = (s.saw w).context := by
  unfold State.stagePass
  split
  · rfl
  split
  · rfl
  · simp [State.saw, State.updatePass, State.updatePlan, State.withPlans, State.send, State.updateSaw]

theorem refill_context (s : State) (w : Saw) : ((s.refill w).saw w).context = (s.saw w).context := by
  unfold State.refill
  split
  · exact stagePass_context s w
  · rfl

theorem loaded_saws (hq : QueueLaw s) (h : SawsStand s) (hc : checkLoaded w plan s = none) : SawsStand (loaded w plan s) := by
  obtain ⟨hload, hx⟩ := checkLoaded_none hc
  have hhead := hq.load w plan hload
  have hcontext : (s.saw w).context = none := (h.fit w).context_none (by rw [hx]; exact nofun) (by rw [hx]; exact nofun)
  have hlink : (s.saw w).link ≠ .down := (h.link w id).up (by rw [hx]; exact nofun) (by rw [hx]; exact nofun)
  have hcleared := (SameQueues.clearLoad s w).law hq
  have hquiet : Quiet s (s.updateSaw w fun r => { r with pendingLoad := none }) := .updateSaw s w fun _ => rfl
  have hsaws := h.quiet hquiet
  have hrecord : (s.updateSaw w fun r => { r with pendingLoad := none }).saw w = { s.saw w with pendingLoad := none } :=
    State.saw_updateSaw_same s w fun r => { r with pendingLoad := none }
  unfold loaded
  dsimp only
  generalize (s.updateSaw w fun r => { r with pendingLoad := none }) = cleared at *
  have hhead' : (cleared.saw w).queue.head? = some plan := by rw [hrecord]; exact hhead
  obtain ⟨p, hp, hsaw, -⟩ := hcleared.queued w plan (List.mem_of_head? hhead')
  obtain ⟨a, hface⟩ := reportLoad_face hcleared hhead'
  have hsame (v : Saw) : (cleared.reportLoad plan).saw v = cleared.saw v := by simp [State.saw]
  have hqueue := reportLoad_law hcleared hhead'
  have hreported : SawsStand (cleared.reportLoad plan) := by
    refine (hsaws.ends hcleared hp hsaw (fun v _ => by rw [hsame]) hface nofun).settle ?_ fun hE => ?_
    · refine .resting ?_ (.inr (.inr ?_))
      · rw [hsame, hrecord]; exact hcontext
      · rw [hsame, hrecord]; exact hx
    · rw [hsame]
      exact hsaws.link w hE
  have hcutting : HeadCutting (cleared.reportLoad plan) w :=
    ⟨a, by rw [State.headFace?, hsame, hhead']; exact (hface plan).trans (if_pos rfl)⟩
  have hrecord' : (cleared.reportLoad plan).saw w = { s.saw w with pendingLoad := none } := (hsame w).trans hrecord
  generalize cleared.reportLoad plan = reported at *
  have hfilled : Turned w reported ((reported.refill w).refill w) :=
    .after (.refill ((Turned.refill hcutting).headCutting hcutting)) (.refill hcutting)
  have hkept : Kept reported ((reported.refill w).refill w) := (Kept.refill reported w).trans (.refill ..)
  refine hreported.works hqueue (.after (.setSawState _ w .primed) hfilled) (.inl (by simp)) ?_ hcutting fun _ => ?_
  · simp only [State.setSawState, State.saw_updateSaw_same, refill_context, hrecord', hcontext]
  · simp only [State.setSawState, State.saw_updateSaw_same]
    rw [hkept.link, hrecord']
    exact hlink

end Loaded

end Sys2Proof.Machine
end

section
/-! PROOFS. The working saws under START, the resumption, DONE and the link (R90, R91, R103, R109, R122, R127). -/

namespace Sys2Proof.Machine

/-! ## START and the resumption -/

section Starting

variable {s t : State} {w : Saw}

theorem Lined.of_nil (h : s.wau.line = []) : Lined s := ⟨by rw [h]; exact List.nodup_nil, by rw [h]; exact nofun⟩

theorem checkStart_primed {tag : Nat} (h : checkStart w tag s = none) : (s.saw w).state = .primed := by
  unfold checkStart at h
  dsimp only at h
  split at h
  · cases h
  · next hx => exact not_not.1 hx

/-- A saw admitted with the line empty enters its cut and meets its interlock. -/
theorem entered_settled (hq : QueueLaw t) (hline : t.wau.line = []) (h : SawsStand t) (hx : t.states w = .cutting) :
    SawsStand (t.settleInterlock State.runPass w) :=
  (settleInterlock_working runPass_working Kept.runPass runPass_shortens hq (.of_nil hline) h hx).2

theorem start_saws (hq : QueueLaw s) (h : SawsStand s) {tag : Nat} (hc : checkStart w tag s = none) :
    SawsStand (start w tag s) := by
  have hx := checkStart_primed hc
  have hhead := h.headCutting (.inl hx)
  have hlink := (h.link w id).up (by rw [hx]; exact nofun) (by rw [hx]; exact nofun)
  have hcontext := (h.fit w).context_none (by rw [hx]; exact nofun) (by rw [hx]; exact nofun)
  unfold start
  split
  · next hfits =>
    have hempty : s.wau.line = [] := List.isEmpty_iff.1 (Bool.and_eq_true_iff.1 hfits).1
    have hadmitted : Quiet s (s.admitSaw w) := .withWau ..
    have hkept : Kept s ((s.admitSaw w).grantGo w) := (Kept.admitSaw s w).trans (.grantGo ..)
    have hentered : SawsStand ((s.admitSaw w).grantGo w) := by
      refine h.entered hq hkept (.after (.grantGo ((hadmitted.turned w).headCutting hhead)) (hadmitted.turned w)) (by simp) ?_ hhead
        fun _ => hlink
      rw [grantGo_context]
      exact hcontext
    exact entered_settled ((SameQueues.of_kept hkept).law hq) (by simpa [State.admitSaw, Admission.admitSaw] using hempty)
      hentered (by simp)
  · refine h.works hq (.after (.setSawState _ w .waiting) ((Quiet.after (.send ..) (.withWau s _)).turned w)) (.inr (.inl (by simp)))
      ?_ hhead fun _ => ?_
    all_goals simp only [State.setSawState, State.saw_updateSaw_same]
    · exact hcontext
    · exact hlink

theorem seekResume_saws (hq : QueueLaw s) (h : SawsStand s) (hhead : HeadCutting s w) (hlink : (s.saw w).link ≠ .down) :
    SawsStand ((s.updateSaw w fun r => { r with context := none }).seekResume w) := by
  have hcleared : Turned w s (s.updateSaw w fun r => { r with context := none }) := .updateSaw s w fun _ => rfl
  have hkept := Kept.clearContext s w
  have hcontext : ((s.updateSaw w fun r => { r with context := none }).saw w).context = none := by rw [State.saw_updateSaw_same]
  generalize (s.updateSaw w fun r => { r with context := none }) = cleared at *
  unfold State.seekResume
  split
  · next hfits =>
    have hempty : cleared.wau.line = [] := List.isEmpty_iff.1 (Bool.and_eq_true_iff.1 hfits).1
    have hadmitted : Turned w s (cleared.admitSaw w) := .after ((Quiet.withWau ..).turned w) hcleared
    have hresumed : Kept s ((cleared.admitSaw w).resumeCut w) := (hkept.trans (.admitSaw ..)).trans (.resumeCut ..)
    have hentered : SawsStand ((cleared.admitSaw w).resumeCut w) :=
      h.entered hq hresumed (.after (.resumeCut (hadmitted.headCutting hhead)) hadmitted) (by simp) (resumeCut_context ..) hhead
        fun _ => hlink
    exact entered_settled ((SameQueues.of_kept hresumed).law hq) (by simpa [State.admitSaw, Admission.admitSaw] using hempty)
      hentered (by simp)
  · refine h.works hq (.after (.setSawState _ w .waiting) (.after ((Quiet.withWau ..).turned w) hcleared)) (.inr (.inl (by simp)))
      ?_ hhead fun _ => ?_
    all_goals simp only [State.setSawState, State.saw_updateSaw_same]
    · exact hcontext
    · rw [State.saw_withWau, hkept.link]
      exact hlink

theorem resumeNormal_saws (hq : QueueLaw s) (h : SawsStand s) (hlink : (s.saw w).link ≠ .down) :
    SawsStand ((s.updateSaw w fun r => { r with context := none }).resumeNormal w) := by
  have hcleared : Turned w s (s.updateSaw w fun r => { r with context := none }) := .updateSaw s w fun _ => rfl
  have halone : Alone w s (s.updateSaw w fun r => { r with context := none }) := .updateSaw ..
  have hkept := Kept.clearContext s w
  have hcontext : ((s.updateSaw w fun r => { r with context := none }).saw w).context = none := by rw [State.saw_updateSaw_same]
  have hplan : (s.updateSaw w fun r => { r with context := none }).headPlan? w = s.headPlan? w :=
    headPlan?_congr (by rw [State.saw_updateSaw_same]) rfl
  generalize (s.updateSaw w fun r => { r with context := none }) = cleared at *
  have hlink' : (cleared.saw w).link ≠ .down := by rw [hkept.link]; exact hlink
  unfold State.resumeNormal
  split
  · next hready =>
    have hhead : HeadCutting s w := by
      rw [hplan] at hready
      cases hp : s.headPlan? w with
      | none => simp [hp] at hready
      | some p => exact headFace?_cutting.2 ⟨p, hp, by simpa [hp] using (Bool.and_eq_true_iff.1 hready).1⟩
    refine h.works hq (.after (.setSawState cleared w .primed) hcleared) (.inl (by simp)) ?_ hhead fun _ => ?_
    all_goals simp only [State.setSawState, State.saw_updateSaw_same]
    · exact hcontext
    · exact hlink'
  · exact ((h.but_self w).alone halone).goOn hcontext fun _ => hlink'

theorem resumeSaw_saws (hq : QueueLaw s) (h : SawsStand s) (saw : Nat) : SawsStand (resumeSaw saw s).2 := by
  unfold resumeSaw
  split
  · exact h
  next w _ =>
  dsimp only
  split
  · exact h
  next c hc =>
  split
  · exact h
  next hready =>
  obtain ⟨-, hlink⟩ := not_or.1 hready
  iterate 2 (split; exact h)
  dsimp only [performed, State.resumeSaw]
  split
  · next hpart =>
    exact seekResume_saws hq h (h.headCutting (.inr (.inr (.inr (.inr (.inr (by simpa [hc] using hpart))))))) hlink
  · exact resumeNormal_saws hq h hlink

end Starting

end Sys2Proof.Machine
end

section
/-! PROOFS. The working saws under DONE (R109, R110, R119): the pass over, the water given up, and the saw's way on. -/

namespace Sys2Proof.Machine

section Done

variable {E : Saw → Prop} {s t : State} {w : Saw} {p : Plan} {q : Pass}

theorem checkDone_inCut {tag : Nat} (h : checkDone w tag s = none) :
    (s.saw w).state = .cutting ∨ (s.saw w).state = .holding := by
  unfold checkDone at h
  dsimp only at h
  iterate 2 (split at h; cases h)
  split at h
  · cases h
  · next hx => exact SawState.inCut_iff.1 (by simpa using hx)

theorem Quiet.finishStrips (s : State) (n : Nat) : Quiet s (s.finishStrips n) := by
  unfold State.finishStrips
  split
  · exact .refl s
  next p _ =>
  have hcounted := Quiet.updatePlan s n (f := fun x => { x with
    finished := (settleStrips p.passes 1 p.strips p.finished).1
    piecesFinished := x.piecesFinished + (settleStrips p.passes 1 p.strips p.finished).2 }) (fun _ => rfl) fun _ => rfl
  exact .after (.of_blocks (by simp) (by simp)) hcounted

theorem Turned.reportDone (hp : s.headPlan? w = some p) (hc : p.state = .cutting) (i : Nat) :
    Turned w s (s.reportDone p.number i) := by
  unfold State.reportDone
  exact .after ((Quiet.finishStrips ..).turned w) (.updatePass hp hc i _)

theorem Turned.passEnded (hp : s.headPlan? w = some p) (hc : p.state = .cutting) : Turned w s (s.passEnded w p q) := by
  unfold State.passEnded
  have hover : Turned w s ((s.cutClosed w q).updateSaw w (SawRec.passOver q.index)) :=
    .after (.updateSaw _ w fun _ => rfl) ((Quiet.after (.closeSegment ..) (.stopTimer s w)).turned w)
  refine .after (.reportDone ((headPlan?_congr hover.queue ?_).trans hp) hc _) hover
  exact cutClosed_pln

/-- A saw whose pass is over has given its water up, and is at work as it was. -/
theorem passGiven_saws (hq : QueueLaw s) (hw : WaterLaw s) (hl : Lined s) (h : SawsStand s) (ha : s.activePass? w = some (p, q))
    (hx : (s.saw w).state = .cutting ∨ (s.saw w).state = .holding) :
    SawsStand ((s.passEnded w p q).waterGivenUp w) ∧ (((s.passEnded w p q).waterGivenUp w).saw w).context = none ∧
      (((s.passEnded w p q).waterGivenUp w).saw w).link ≠ .down := by
  have hhead : HeadCutting s w := h.headCutting (hx.elim (fun hx => .inr (.inr (.inl hx))) fun hx => .inr (.inr (.inr (.inl hx))))
  have hno {x : SawState} (hcut : x ≠ .cutting) (hhold : x ≠ .holding) : (s.saw w).state ≠ x := fun he =>
    hx.elim (fun hx => hcut (he.symm.trans hx)) fun hx => hhold (he.symm.trans hx)
  have hcontext := (h.fit w).context_none (hno nofun nofun) (hno nofun nofun)
  have hlink := (h.link w id).up (hno nofun nofun) (hno nofun nofun)
  obtain ⟨hp, -⟩ := activePass?_some ha
  have hsaw := passEnded_saw (s := s) (w := w) (p := p) (q := q)
  rw [cutClosed_saw] at hsaw
  have hended : SawsStand (s.passEnded w p q) := by
    refine h.works hq (.passEnded hp (hhead.state hp)) ?_ (by rw [hsaw]; exact hcontext) hhead fun _ => by rw [hsaw]; exact hlink
    rw [passEnded_states]
    exact .inr (.inr hx)
  have hrecord := passEnded_waterGivenUp_saw (p := p) (q := q) (lineApart_of_laws hq hw hp hx)
  refine ⟨?_, by rw [hrecord]; exact hcontext, by rw [hrecord]; exact hlink⟩
  rw [← leaveWater_eq_waterGivenUp (s := s.passEnded w p q) (by rw [passEnded_state]; exact hx)]
  exact (leaveWater_working runPass_working ((SameQueues.of_kept passEnded_kept).law hq)
    (hl.congr (by rw [passEnded_wau]) passEnded_states) hended w).2

theorem Quiet.settleRemnant (s : State) (p : Plan) (d : Derived) : Quiet s (s.settleRemnant p d) := by
  unfold State.settleRemnant
  split
  · exact .of_blocks (by simp) (by simp)
  · next part _ =>
    dsimp only
    split
    · next n _ =>
      have hcreated : Quiet s (s.createRemnant p.slab part).2 := .of_blocks (by simp) (by simp)
      have hgiven := Quiet.updatePlan (s.createRemnant p.slab part).2 p.number (f := fun p => { p with remnantGiven := some n })
        (fun _ => rfl) fun _ => rfl
      exact .after (.of_blocks (by simp) (by simp)) (.after hgiven hcreated)
    · exact .of_blocks (by simp) (by simp)

/-- The completion chain leaves the saw to go on, its plan DONE and off the queue (R64, R97). -/
theorem complete_saws (hq : QueueLaw s) (h : SawsStand s) (hp : s.plan? p.number = some p) (hw : p.saw = some w)
    (hc : (s.saw w).context = none) (hl : (s.saw w).link ≠ .down) : SawsStand (s.complete w p) := by
  unfold State.complete
  dsimp only
  have hsettled : Quiet (s.updatePlan p.number fun p => { p with state := .done })
      (p.derived.elim (((s.updatePlan p.number fun p => { p with state := .done }).consume p.slab).raise .planDone)
        fun d => ((s.updatePlan p.number fun p => { p with state := .done }).consume p.slab).settleRemnant p d) := by
    have hconsumed : Quiet (s.updatePlan p.number fun p => { p with state := .done })
      ((s.updatePlan p.number fun p => { p with state := .done }).consume p.slab) := .of_blocks rfl rfl
    cases p.derived with
    | none => exact .after (.raise ..) hconsumed
    | some d => exact .after (.settleRemnant ..) hconsumed
  generalize p.derived.elim _ _ = settled at hsettled ⊢
  have hended : WorkingBut w (fun _ => False) settled :=
    h.ends hq hp hw (fun v _ => hsettled.saw v) (fun n => (hsettled.plan n).trans (planFace?_restate hp .done n)) nofun
  have hface : (((settled.leaveQueue w p.number).unload w p.number).saw w).face.1 = (settled.saw w).face.1 ∧
      (((settled.leaveQueue w p.number).unload w p.number).saw w).context = (settled.saw w).context ∧
      (((settled.leaveQueue w p.number).unload w p.number).saw w).link = (settled.saw w).link := by
    have hunload := (Quiet.unload (settled.leaveQueue w p.number) w p.number).saw w
    simp only [SawRec.face, Prod.mk.injEq] at hunload ⊢
    obtain ⟨hstate, hcontext, hlink, -⟩ := hunload
    rw [hstate, hcontext, hlink, leaveQueue_saw, if_pos rfl]
    exact ⟨rfl, rfl, rfl⟩
  have hkept := hsettled.saw w
  simp only [SawRec.face, Prod.mk.injEq] at hkept
  refine (hended.alone (.after ((Quiet.unload ..).alone w) (.leaveQueue ..))).goOn ?_ fun _ => ?_
  · rw [hface.2.1, hkept.2.1]
    exact hc
  · rw [hface.2.2, hkept.2.2.1]
    exact hl

theorem done_saws (hq : QueueLaw s) (hw : WaterLaw s) (hl : Lined s) (h : SawsStand s) {tag : Nat}
    (hc : checkDone w tag s = none) : SawsStand (done w s) := by
  have hx := checkDone_inCut hc
  cases ha : s.activePass? w with
  | none => rw [done, ha]; exact h
  | some pq =>
    obtain ⟨p, q⟩ := pq
    obtain ⟨hgiven, hcontext, hlink⟩ := passGiven_saws hq hw hl h ha hx
    obtain ⟨hp, -⟩ := activePass?_some ha
    have hkept : Kept s ((s.passEnded w p q).waterGivenUp w) := by
      rw [← finishPass_eq hx]
      exact .finishPass s w p q
    have hhead : HeadCutting s w :=
      h.headCutting (hx.elim (fun hx => .inr (.inr (.inl hx))) fun hx => .inr (.inr (.inr (.inl hx))))
    have hqueue := (SameQueues.of_kept hkept).law hq
    obtain ⟨hnumber, hplan⟩ := headPlan?_some hp
    obtain ⟨p', hp', hkeeps⟩ := hkept.plan' hplan
    have hnumber' : p'.number = p.number := (findBy_some hp').2
    rw [done_eq ha hx hp']
    have hhead' := hhead.kept hkept
    generalize (s.passEnded w p q).waterGivenUp w = given at *
    split
    · obtain ⟨p'', hplan'', hsaw, -⟩ := hqueue.queued w p.number (by rw [hkept.queue]; exact List.mem_of_head? hnumber)
      cases hp'.symm.trans hplan''
      exact complete_saws hqueue hgiven (by rw [hnumber']; exact hp') hsaw hcontext hlink
    · refine hgiven.works hqueue (.after (.setSawState _ w .primed) (.stagePass hhead')) (.inl (by simp)) ?_ hhead' fun _ => ?_
      all_goals simp only [State.setSawState, State.saw_updateSaw_same]
      · rw [stagePass_context]
        exact hcontext
      · rw [(Kept.stagePass given w).link]
        exact hlink

end Done

end Sys2Proof.Machine
end

section
/-! PROOFS. The working saws under the link: silence, HELLO and the wake of a saw (R90, R91, R122, R126). -/

namespace Sys2Proof.Machine

section Link

variable {E : Saw → Prop} {s t : State} {w : Saw}

/-- The law of the saws but for the link of one saw, or but for that saw. -/
theorem Working.but_link (h : Working (fun v => v = w) s) : WorkingBut w (fun _ => False) s :=
  ⟨fun v _ => h.fit v, fun v hv _ => h.link v hv, h.fresh⟩

theorem Working.linked (h : Working (fun v => v = w) s) (hl : LinkFit (s.saw w)) : SawsStand s := h.but_link.settle (h.fit w) fun _ => hl

/-- The link of a saw goes DOWN under it. -/
theorem linkDown_working (h : SawsStand s) (w : Saw) : Working (fun v => v = w) (s.linkDown w) := by
  have hsaw (v : Saw) : ((s.linkDown w).saw v).state = (s.saw v).state ∧ ((s.linkDown w).saw v).context = (s.saw v).context ∧
      (v ≠ w → ((s.linkDown w).saw v).link = (s.saw v).link) := by
    by_cases hv : v = w
    · subst hv
      rw [linkDown_saw]
      exact ⟨rfl, rfl, fun hne => absurd rfl hne⟩
    · rw [show (s.linkDown w).saw v = s.saw v from State.saw_updateSaw_ne s (fun r => { r with link := .down }) hv]
      exact ⟨rfl, rfl, fun _ => rfl⟩
  have hhead (v : Saw) : (s.linkDown w).headFace? v = s.headFace? v := by
    rw [State.headFace?, linkDown_queue]
    rfl
  refine ⟨fun v => ?_, fun v hv => ?_, h.fresh⟩
  · obtain ⟨hstate, hcontext, -⟩ := hsaw v
    rw [hhead]
    exact (h.fit v).congr hstate hcontext
  · obtain ⟨hstate, -, hlink⟩ := hsaw v
    exact (h.link v id).congr hstate (hlink hv)

/-- A saw without a context goes OFFLINE with its link DOWN. -/
theorem goOffline_saws (h : Working (fun v => v = w) s) (hc : (s.saw w).context = none) (hl : (s.saw w).link = .down) :
    SawsStand (s.goOffline w) := by
  have hquiet := Quiet.dropWindow s w
  have hface := hquiet.saw w
  simp only [SawRec.face, Prod.mk.injEq] at hface
  unfold State.goOffline
  refine ((h.quiet hquiet).but_link.alone (.updateSaw _ w _)).settle (.resting ?_ (.inl ?_)) fun _ => ⟨fun _ => ?_, fun _ => .inl ?_⟩
  all_goals rw [State.saw_updateSaw_same]
  · exact hface.2.1.trans hc
  · exact hface.2.2.1.trans hl

/-- A saw in a cut is FAULTED with a LINK context. -/
theorem linkContext_saws (h : Working (fun v => v = w) s) (hq : QueueLaw s) : SawsStand (s.linkContext w) := by
  have hwritten := Turned.writeContext s w .link (some .linkLost) 1
  have hquiet := Quiet.dropWindow (s.writeContext w .link (some .linkLost) 1) w
  have hface := hquiet.saw w
  simp only [SawRec.face, Prod.mk.injEq] at hface
  have hstate : ((s.linkContext w).saw w).state = .faulted := by simp [State.linkContext, State.setSawState]
  refine (h.faults hq (k := .link) (c := some .linkLost) (n := 1) (.after (.setSawState ..) (.after (hquiet.turned w) hwritten))
    hstate ?_).linked (.of_faulted hstate)
  simp only [State.setSawState, State.saw_updateSaw_same]
  refine hface.2.1.trans ?_
  unfold State.writeContext
  rw [State.saw_updateSaw_same]

theorem stopCut_working (hq : QueueLaw s) (hl : Lined s) (h : Working E s) (w : Saw) : Working E (s.stopCut w) := by
  unfold State.stopCut
  dsimp only
  have hquiet (p : Nat) : Quiet s ((s.updateSaw w fun r => { r with holdTimer := none }).closeSegment w p) :=
    .after (.closeSegment ..) (.stopTimer s w)
  have hkept (p : Nat) : Kept s ((s.updateSaw w fun r => { r with holdTimer := none }).closeSegment w p) :=
    (Kept.stopTimer s w).trans (.closeSegment ..)
  exact (leaveWater_working runPass_working ((SameQueues.of_kept (hkept _)).law hq)
    (hl.congr (by simp) fun v => congrArg (fun f => f.1) ((hquiet _).saw v)) (h.quiet (hquiet _)) w).2

theorem loseLink_saws (hq : QueueLaw s) (hl : Lined s) (h : SawsStand s) (w : Saw) : SawsStand (s.loseLink w) := by
  have hdown := linkDown_working h w
  have hqueue : QueueLaw (s.linkDown w) := (SameQueues.after (.raise ..) (.setLink ..)).law hq
  have hlined : Lined (s.linkDown w) :=
    hl.congr rfl (State.states_updateSaw_keep s w (fun r => { r with link := .down }) fun _ => rfl)
  have hlink : ((s.linkDown w).saw w).link = .down := by rw [linkDown_saw]
  unfold State.loseLink
  show SawsStand (match ((s.linkDown w).saw w).state with
    | .offline => s.linkDown w
    | .idle => (s.linkDown w).goOffline w
    | .loading => (s.linkDown w).goOffline w
    | .primed => (s.linkDown w).goOffline w
    | .waiting => ((s.linkDown w).removeFromLine w).goOffline w
    | .faulted => ((s.linkDown w).dropWindow w).updateSaw w fun r => { r with pendingLoad := none }
    | .cutting => ((s.linkDown w).stopCut w).linkContext w
    | .holding => ((s.linkDown w).stopCut w).linkContext w
    | .held => ((s.linkDown w).removeFromLine w).linkContext w)
  generalize s.linkDown w = down at *
  have hcontext {x : SawState} (hx : (down.saw w).state = x) (hheld : x ≠ .held) (hfault : x ≠ .faulted) :
      (down.saw w).context = none := (hdown.fit w).context_none (hx ▸ hheld) (hx ▸ hfault)
  have hremoved := (removeFromLine_working hqueue hlined hdown w).2
  have hrecord := removeFromLine_saw down w
  have hstopped := stopCut_working hqueue hlined hdown w
  split
  case h_1 hx => exact hdown.linked ⟨fun _ => hlink, fun _ => .inl hx⟩
  case h_2 hx | h_3 hx | h_4 hx => exact goOffline_saws hdown (hcontext hx nofun nofun) hlink
  case h_5 hx =>
    exact goOffline_saws hremoved (by rw [hrecord]; exact hcontext hx nofun nofun) (by rw [hrecord]; exact hlink)
  case h_6 hx =>
    have hquiet := Quiet.after (.updateSaw _ w (f := fun r => { r with pendingLoad := none }) fun _ => rfl) (Quiet.dropWindow down w)
    have hface := hquiet.saw w
    simp only [SawRec.face, Prod.mk.injEq] at hface
    exact (hdown.quiet hquiet).linked (.of_faulted (hface.1.trans hx))
  case h_7 | h_8 => exact linkContext_saws hstopped ((SameQueues.of_kept (.stopCut ..)).law hqueue)
  case h_9 => exact linkContext_saws hremoved ((SameQueues.of_kept (.removeFromLine ..)).law hqueue)

/-- A saw without a context and with its link up wakes (R90, R126). -/
theorem wake_saws (h : WorkingBut w (fun _ => False) s) (hc : (s.saw w).context = none) (hl : (s.saw w).link ≠ .down) :
    SawsStand (s.wake w) := by
  have hwoken := h.alone (.setSawState s w .idle)
  have hrecord : (s.setSawState w .idle).saw w = { s.saw w with state := .idle } :=
    State.saw_updateSaw_same s w fun r => { r with state := .idle }
  have hstate : (s.setSawState w .idle).states w = .idle := by simp
  unfold State.wake
  dsimp only
  generalize s.setSawState w .idle = woken at *
  split
  · next hactive =>
    have hhead : HeadCutting woken w := by
      cases hp : woken.headPlan? w with
      | none => simp [hp] at hactive
      | some p =>
        simp only [hp, Option.elim_some, Bool.and_eq_true, beq_iff_eq] at hactive
        exact headFace?_cutting.2 ⟨p, hp, hactive.1⟩
    have hturned := Turned.after (.setSawState _ w .faulted) (Turned.updateSaw woken w (f := fun r => { r with
      context := some ⟨.link, some .linkLost, (woken.passPart? w).map fun p => { p with tag := none }, r.passTime, 1⟩ })
      fun _ => rfl)
    refine (hwoken.alone (.after (.setSawState ..) (.updateSaw ..))).settle (.faulted
      (c := ⟨.link, some .linkLost, (woken.passPart? w).map fun p => { p with tag := none }, (woken.saw w).passTime, 1⟩)
      (by simp [State.setSawState]) ?_ fun _ => hturned.headCutting hhead) fun _ => .of_faulted (by simp [State.setSawState])
    simp only [State.setSawState, State.saw_updateSaw_same]
  · refine Working.loadHead (hwoken.rests (.inl hstate) ?_ fun _ => ?_) w
    all_goals rw [hrecord]
    · exact hc
    · exact hl

theorem linkUp_saws (h : SawsStand s) (w : Saw) : SawsStand (s.linkUp w) := by
  have hup : WorkingBut w (fun _ => False) (s.linkRaised w) :=
    (h.but_self w).alone (.after ((Quiet.raise ..).alone w) (.updateSaw s w _))
  have hrecord := linkRaised_saw s w
  have hhead : (s.linkRaised w).headFace? w = s.headFace? w := by rw [State.headFace?, hrecord]; rfl
  unfold State.linkUp
  show SawsStand (match ((s.linkRaised w).saw w).state with
    | .offline => (s.linkRaised w).wake w
    | _ => s.linkRaised w)
  generalize s.linkRaised w = raised at *
  split
  · next hx =>
    rw [hrecord] at hx
    refine wake_saws hup ?_ (by rw [hrecord]; exact nofun)
    rw [hrecord]
    exact (h.fit w).context_none (hx ▸ nofun) (hx ▸ nofun)
  · next hx =>
    refine hup.settle ?_ fun _ => .of_up (by rw [hrecord]; exact nofun) hx
    rw [hhead]
    exact (h.fit w).congr (by rw [hrecord]) (by rw [hrecord])

theorem hello_saws (hq : QueueLaw s) (hl : Lined s) (h : SawsStand s) (w : Saw) (maxFeed : Nat) :
    SawsStand (hello w maxFeed s) := by
  have hgreeted : Quiet s (s.greeted w maxFeed) :=
    .after (.updateSaw _ w fun _ => rfl) (.after (.send ..) (.updateSaw s w fun _ => rfl))
  cases hlink : (s.saw w).link with
  | down =>
    rw [hello_down hlink]
    exact linkUp_saws (h.quiet hgreeted) w
  | up =>
    rw [hello_up hlink]
    refine linkUp_saws (loseLink_saws ?_ ?_ (h.quiet hgreeted) w) w
    · refine SameQueues.law ?_ hq
      exact .after (.updateSaw _ w (fun _ => rfl) fun _ _ => id) (.after (.send ..) (.updateSaw s w (fun _ => rfl) fun _ _ => id))
    · exact hl.congr rfl fun v => congrArg (fun f => f.1) (hgreeted.saw v)

theorem linkSilence_saws (hq : QueueLaw s) (hl : Lined s) (h : SawsStand s) (w : Saw) : SawsStand (linkSilence w s) := by
  cases hlink : (s.saw w).link with
  | down => rw [linkSilence_down hlink]; exact h
  | up =>
    rw [linkSilence_up hlink]
    have haged : Quiet s (s.aged w) := .updateSaw s w fun _ => rfl
    refine loseLink_saws (s := s.aged w) ?_ (hl.congr rfl fun v => congrArg (fun f => f.1) (haged.saw v)) (h.quiet haged) w
    exact (SameQueues.updateSaw s w (f := fun r => { r with heartbeat := max r.heartbeat 30 }) (fun _ => rfl) fun _ _ => id).law hq

end Link

end Sys2Proof.Machine
end

section
/-! PROOFS. The working saws under HELD, the hold timer, FAULT, the interlock and the capacity (R101, R117 to R125, R173, R181). -/

namespace Sys2Proof.Machine

section Stops

variable {s t : State} {w : Saw}

theorem checkHeld_holding {tag : Nat} (h : checkHeld w tag s = none) :
    (s.saw w).state = .holding ∧ s.activeTag? w = some tag := by
  unfold checkHeld at h
  split at h
  · cases h
  next hx =>
  obtain ⟨hx, htag⟩ := not_or.1 hx
  exact ⟨not_not.1 hx, not_not.1 htag⟩

theorem activeTag?_active {tag : Nat} (h : s.activeTag? w = some tag) : ∃ x, s.headFace? w = some (x, true) := by
  refine headFace?_active.2 ?_
  unfold State.activeTag? at h
  cases ha : s.activePass? w with
  | none => simp [ha] at h
  | some x => rfl

theorem held_saws (hq : QueueLaw s) (ha : Agreed s) (h : SawsStand s) {tag : Nat} (hc : checkHeld w tag s = none) (position : Nat) :
    SawsStand (held w position s) := by
  obtain ⟨hx, htag⟩ := checkHeld_holding hc
  have hquiet := Quiet.faultAccounts s w position
  have hkept := Kept.faultAccounts s w position
  have hactive : ∃ x, (((s.updateSaw w fun r => { r with holdTimer := none }).reportReached w position).closeSegment w
      position).headFace? w = some (x, true) := by
    rw [hquiet.headFace?]
    exact activeTag?_active htag
  have hagreed : Agreed (((s.updateSaw w fun r => { r with holdTimer := none }).reportReached w position).closeSegment w
      position) := ha.congr (by simp) (fun v => congrArg (fun f => f.1) (hquiet.saw v)) (by simp)
  have hqueue := (SameQueues.of_kept hkept).law hq
  have hsaws := h.quiet hquiet
  have hstate : (((s.updateSaw w fun r => { r with holdTimer := none }).reportReached w position).closeSegment w
      position).states w = .holding := (congrArg (fun f => f.1) (hquiet.saw w)).trans hx
  unfold held
  dsimp only
  generalize ((s.updateSaw w fun r => { r with holdTimer := none }).reportReached w position).closeSegment w position =
    closed at *
  have hholding : (closed.saw w).state = .holding := hstate
  have hlink : (closed.saw w).link ≠ .down := (hsaws.link w id).up (hholding ▸ nofun) (hholding ▸ nofun)
  have hturned : Turned w closed (((closed.writeContext w .hold none 0).setSawState w .held).raise .sawHeld) :=
    .after ((Quiet.raise ..).turned w) (.after (.setSawState ..) (.writeContext ..))
  have hheld : SawsStand (((closed.writeContext w .hold none 0).setSawState w .held).raise .sawHeld) := by
    have hrecord : ((((closed.writeContext w .hold none 0).setSawState w .held).raise .sawHeld).saw w).state = .held ∧
        ((((closed.writeContext w .hold none 0).setSawState w .held).raise .sawHeld).saw w).context.isSome = true ∧
        ((((closed.writeContext w .hold none 0).setSawState w .held).raise .sawHeld).saw w).link = (closed.saw w).link := by
      simp [State.setSawState, State.writeContext]
    obtain ⟨hheldState, hsome, hsameLink⟩ := hrecord
    have hhead : (((closed.writeContext w .hold none 0).setSawState w .held).raise .sawHeld).headFace? w = closed.headFace? w := by
      rw [State.headFace?, hturned.queue]
      rfl
    refine hsaws.turned hqueue hturned ⟨fun _ => hturned.headCutting (hsaws.cutting_of_active hqueue hactive), ?_, fun _ => ?_⟩
      fun _ => .of_up (by rw [hsameLink]; exact hlink) (by rw [hheldState]; exact nofun)
    · rw [hsome, hheldState]
      simp
    · rw [hhead]
      exact hactive
  have hqueue' : QueueLaw (((closed.writeContext w .hold none 0).setSawState w .held).raise .sawHeld) :=
    (SameQueues.of_kept (((Kept.writeContext ..).trans (.setSawState ..)).trans (.raise ..))).law hqueue
  have hagreed' : Agreed ((((closed.writeContext w .hold none 0).setSawState w .held).raise .sawHeld).withWau
      (Admission.holdComplete w)) := by
    refine hagreed.holdComplete id hstate rfl (fun v => ?_) rfl
    rw [State.states_withWau, State.states_raise, State.states_setSawState, State.states_writeContext]
  exact (runPass_working _ ((((closed.writeContext w .hold none 0).setSawState w .held).raise .sawHeld).withWau
    (Admission.holdComplete w)) (hqueue'.of_blocks rfl rfl) hagreed'.lined (hheld.quiet (.withWau ..))).2

theorem holdTimerExpiry_saws (hq : QueueLaw s) (h : SawsStand s) (w : Saw) : SawsStand (holdTimerExpiry w s) := by
  unfold holdTimerExpiry
  split
  case h_2 => exact h
  dsimp only
  set ended := (s.updateSaw w fun r => { r with holdTimer := none }).withWau (Admission.endHold w) with hended
  have hquiet : Quiet s (ended.closeSegment w (ended.reached w)) :=
    .after (.closeSegment ..) (.after (.withWau ..) (.stopTimer s w))
  have hkept : Kept s (ended.closeSegment w (ended.reached w)) :=
    ((Kept.stopTimer s w).trans (.withWau ..)).trans (.closeSegment ..)
  have hsaws := h.quiet hquiet
  have hqueue := (SameQueues.of_kept hkept).law hq
  generalize ended.closeSegment w (ended.reached w) = closed at *
  refine hsaws.faults hqueue (k := .fault) (c := some .holdTimeout) (n := 1)
    (.after ((Quiet.raise ..).turned w) (.after (.setSawState ..) (.writeContext ..))) ?_ ?_
  · simp [State.setSawState]
  · simp [State.setSawState, State.writeContext]

theorem faultOutside_saws (hq : QueueLaw s) (h : SawsStand s) (w : Saw) (c : Cause) : SawsStand (s.faultOutside w c) := by
  unfold State.faultOutside
  refine h.faults hq (k := .fault) (c := some c) (n := 1)
    (.after ((Quiet.raise ..).turned w) (.after (.setSawState ..) (.writeContext ..))) ?_ ?_
  · simp [State.setSawState]
  · simp [State.setSawState, State.writeContext]

/-- A saw with a context is left FAULTED with a context of the same pass part. -/
theorem refaulted_saws (hq : QueueLaw s) (h : SawsStand s) (k : Turned w s t) {c c' : Context} (hc : (s.saw w).context = some c)
    (hpart : c'.part = c.part) (hc' : (t.saw w).context = some c') (hx : (t.saw w).state = .faulted) : SawsStand t := by
  refine h.turned hq k (.faulted hx hc' fun hp => k.headCutting (h.headCutting ?_)) fun _ => .of_faulted hx
  exact .inr (.inr (.inr (.inr (.inr (by rw [hc, Option.bind_some, ← hpart]; exact hp)))))

theorem fault_saws (hq : QueueLaw s) (hl : Lined s) (h : SawsStand s) (w : Saw) (tag : Option Nat) (position : Nat) (c : Cause) :
    SawsStand (fault w tag position c s) := by
  have hremoved := (removeFromLine_working hq hl h w).2
  have hqueue := (SameQueues.of_kept (Kept.removeFromLine s w)).law hq
  have inCut (hwait : s.states w ≠ .waiting) (hheld : s.states w ≠ .held) (p : Nat) : SawsStand (s.faultInCut State.runPass w p c) :=
    (faultInCut_working runPass_working Kept.runPass runPass_shortens hq hl h (hl.outside hwait hheld) p c).2
  have hno {x y : SawState} (hx : (s.saw w).state = x) (hxy : x ≠ y) : s.states w ≠ y := fun he => hxy (hx.symm.trans he)
  unfold fault
  split
  case h_1 hx => exact inCut (hno hx nofun) (hno hx nofun) _
  case h_2 hx => exact inCut (hno hx nofun) (hno hx nofun) _
  case h_3 | h_4 | h_5 => exact faultOutside_saws hq h w c
  case h_6 => exact faultOutside_saws hqueue hremoved w c
  case h_7 hx =>
    obtain ⟨x, hcontext⟩ := Option.isSome_iff_exists.1 (((h.fit w).context).2 (.inl hx))
    have hrecord : ((s.removeFromLine w).saw w).context = some x := by rw [removeFromLine_saw]; exact hcontext
    dsimp only
    refine refaulted_saws (c' := x.fault c) hqueue hremoved (.after ((Quiet.raise ..).turned w) (.after (.setSawState ..)
      (.updateSaw _ w (f := fun r => { r with context := r.context.map (Context.fault c) }) fun _ => rfl))) hrecord rfl ?_ ?_
    all_goals simp [State.setSawState, hrecord]
  case h_8 hx =>
    obtain ⟨x, hcontext⟩ := Option.isSome_iff_exists.1 (((h.fit w).context).2 (.inr hx))
    refine refaulted_saws (c' := x.faultAgain c) hq h (.after ((Quiet.raise ..).turned w)
      (.updateSaw _ w (f := fun r => { r with context := r.context.map (Context.faultAgain c) }) fun _ => rfl)) hcontext rfl ?_ ?_
    all_goals simp [hcontext, hx]
  case h_9 => exact h

theorem interlockDrop_saws (hq : QueueLaw s) (hl : Lined s) (h : SawsStand s) (w : Saw) : SawsStand (interlockDrop w s) := by
  unfold interlockDrop
  split
  case isFalse => exact h
  dsimp only
  have hquiet : Quiet s (s.updateSaw w fun r => { r with interlock := false }) := .updateSaw s w fun _ => rfl
  have hqueue := (SameQueues.setInterlock s w false).law hq
  have hlined : Lined (s.updateSaw w fun r => { r with interlock := false }) :=
    hl.congr rfl fun v => congrArg (fun f => f.1) (hquiet.saw v)
  have hsaws := h.quiet hquiet
  generalize (s.updateSaw w fun r => { r with interlock := false }) = dropped at *
  split
  · next hx =>
    have hcut := SawState.inCut_iff.1 hx
    have hno {y : SawState} (hcutting : y ≠ .cutting) (hholding : y ≠ .holding) : dropped.states w ≠ y := fun he =>
      hcut.elim (fun hx => hcutting (he.symm.trans hx)) fun hx => hholding (he.symm.trans hx)
    exact (faultInCut_working runPass_working Kept.runPass runPass_shortens hqueue hlined hsaws
      (hlined.outside (hno nofun nofun) (hno nofun nofun)) _ _).2
  · exact hsaws

end Stops

/-! ## The capacity -/

section Capacity

variable {s : State}

theorem revokeDown_saws (c : Nat) (ws : List Saw) : ∀ {s : State}, Agreed s → QueueLaw s → SawsStand s →
    SawsStand (revokeDown c ws s) := by
  induction ws with
  | nil => exact fun _ _ h => h
  | cons w ws ih =>
    intro s ha hq h
    unfold revokeDown
    split
    · exact h
    split
    case isFalse => exact ih ha hq h
    next hallot =>
    have hx : (s.saw w).state = .cutting := (ha.allotted w id).1 hallot
    have hkept : Kept s ((s.withWau (Admission.revoke w)).orderHold w) := (Kept.withWau ..).trans (.orderHold ..)
    refine ih (ha.revoke hallot rfl (fun v => by simp) rfl) ((SameQueues.of_kept hkept).law hq) ?_
    refine h.works hq (.after (.orderHold ..) ((Quiet.withWau ..).turned w)) (.inr (.inr (.inr (by simp)))) ?_
      (h.headCutting (.inr (.inr (.inl hx)))) fun _ => ?_
    · unfold State.orderHold
      simp only [State.saw_updateSaw_same, State.saw_send, State.saw_withWau]
      exact (h.fit w).context_none (hx ▸ nofun) (hx ▸ nofun)
    · rw [hkept.link]
      exact (h.link w id).up (hx ▸ nofun) (hx ▸ nofun)

theorem evaluate_saws (ha : Agreed s) (hq : QueueLaw s) (h : SawsStand s) : SawsStand s.evaluate := by
  unfold State.evaluate
  dsimp only
  generalize hseen : s.withWau (Admission.observe (s.channel .c0).offers (s.channel .c1).offers (s.channel .c2).offers) = seen
  have hagreed : Agreed seen := by
    subst hseen
    exact ⟨ha.run, ha.allotted, ha.permit, ha.ordered, ha.started, ha.held, ha.out, ha.orderNodup, ha.lineNodup, ha.granted⟩
  have hqueue : QueueLaw seen := hseen ▸ hq.of_blocks rfl rfl
  have hsaws : SawsStand seen := hseen ▸ h.quiet (.withWau ..)
  have hrevoked := revokeDown_saws seen.wau.derived seen.wau.order.reverse hagreed hqueue hsaws
  have hdown := revokeDown_agree seen.wau.derived seen.wau.order.reverse hagreed
  have hqueue' := (SameQueues.of_kept (.revokeDown seen.wau.derived seen.wau.order.reverse seen)).law hqueue
  generalize revokeDown seen.wau.derived seen.wau.order.reverse seen = revoked at *
  refine Working.quiet ?_ (.raiseIf ..)
  have hset := hrevoked.quiet (.withWau revoked fun a => { a with capacity := seen.wau.derived })
  split
  · exact (runPass_working _ (revoked.withWau fun a => { a with capacity := seen.wau.derived })
      (hqueue'.of_blocks rfl rfl) (hdown.lined.congr rfl fun _ => rfl) hset).2
  · exact hset

theorem setPlant_saws (ha : Agreed s) (hq : QueueLaw s) (h : SawsStand s) (p : Settings) : SawsStand (setPlant p s).2 :=
  evaluate_saws (s := s.withWau fun a => { a with settings := clampSettings p })
    ⟨ha.run, ha.allotted, ha.permit, ha.ordered, ha.started, ha.held, ha.out, ha.orderNodup, ha.lineNodup, ha.granted⟩
    (hq.of_blocks rfl rfl) (h.quiet (.withWau ..))

end Capacity

end Sys2Proof.Machine
end

section
/-! PROOFS. The commands that move neither a saw, a plan nor the stock, the starts, and so the working saws under every command. -/

namespace Sys2Proof.Machine

/-! ## Commands outside the work -/

/-- Neither the stock nor a plan is moved, nor a saw in its state, its context, its link or its queue. -/
structure Outside (s t : State) : Prop where
  stk : t.stk = s.stk
  pln : t.pln = s.pln
  saw : ∀ v, (t.saw v).face = (s.saw v).face

section Outside

variable {s t u : State}

theorem Outside.refl (s : State) : Outside s s := ⟨rfl, rfl, fun _ => rfl⟩

/-- Composition from the last operation back. -/
theorem Outside.after (k : Outside t u) (h : Outside s t) : Outside s u :=
  ⟨k.stk.trans h.stk, k.pln.trans h.pln, fun v => (k.saw v).trans (h.saw v)⟩

theorem Outside.of_blocks (hk : t.stk = s.stk := by simp) (hp : t.pln = s.pln := by simp) (hs : t.sdp.saws = s.sdp.saws := by simp) :
    Outside s t := ⟨hk, hp, (Quiet.of_blocks hs hp).saw⟩

theorem Outside.updateSaw (s : State) (w : Saw) {f : SawRec → SawRec} (hf : ∀ r, (f r).face = r.face) :
    Outside s (s.updateSaw w f) := ⟨rfl, rfl, (Quiet.updateSaw s w hf).saw⟩

theorem Outside.quiet (h : Outside s t) : Quiet s t := ⟨h.saw, planFace?_congr h.pln⟩

theorem Outside.eachChannel (s : State) (p : Monitor) (cs : List Chan) (f : Chan → Channel → Channel) :
    Outside s (State.eachChannel { s with pmn := p } cs f) :=
  ⟨by simp, by simp, (Quiet.of_blocks (by simp) (by simp)).saw⟩

end Outside

/-- The commands of the blades, the channels, the jobs but their closing, the notices, the supplies lost and the time, with the
readings and the frames that are no request. -/
def Instr.outside : Instr → Bool
  | .addBlade .. | .amendBlade .. | .fitBlade .. | .removeBlade .. | .retireBlade .. => true
  | .setChannel .. | .calBegin .. | .calPoint .. | .calEnd .. | .calAbort .. => true
  | .channelSample .. | .graceExpiry .. | .fieldSupplyLoss | .fieldSupplyReturn .. => true
  | .openJob .. | .amendJob .. | .retireJob .. | .configureSaw .. => true
  | .readNotices | .setNotices .. | .readState .. | .busyRequest .. | .replySent => true
  | .badFrame .. | .byteGapTimeout .. | .sawMessageMalformed .. | .interlockReturn .. => true
  | .meteringInterval .. | .powerLoss .. | .backupFailure => true
  | .readMaterial .. | .readSlab .. | .findSlabs .. | .readRack .. | .readAudit | .readPlan .. | .readPassList .. => true
  | .readSaw .. | .readContext .. | .readBlade .. | .readChannel .. | .readPlant | .readJob .. | .unknownRequest .. => true
  | _ => false

section Blades

variable (s : State)

theorem addBlade_outside (number kerf price life : Nat) : Outside s (addBlade number kerf price life s).2 := by
  unfold addBlade
  iterate 3 (split; exact .refl s)
  exact .of_blocks rfl rfl rfl

theorem amendBlade_outside (number price life : Nat) : Outside s (amendBlade number price life s).2 := by
  unfold amendBlade
  iterate 3 (split; exact .refl s)
  exact .of_blocks (t := State.testHealth _ number)

theorem fitBlade_outside (number saw : Nat) : Outside s (fitBlade number saw s).2 := by
  unfold fitBlade
  iterate 6 (split; exact .refl s)
  dsimp only [performed]
  refine .after (.updateSaw _ _ fun _ => rfl) ?_
  cases (s.saw _).blade <;> exact .of_blocks rfl rfl rfl

theorem removeBlade_outside (saw : Nat) : Outside s (removeBlade saw s).2 := by
  unfold removeBlade
  iterate 3 (split; exact .refl s)
  exact .after (.updateSaw _ _ (f := fun r => { r with blade := none }) fun _ => rfl) (.of_blocks rfl rfl rfl)

theorem retireBlade_outside (number : Nat) : Outside s (retireBlade number s).2 := by
  unfold retireBlade
  split
  · exact .refl s
  split
  · exact .refl s
  all_goals exact .of_blocks rfl rfl rfl

end Blades

section Channels

variable (s : State)

theorem putChannel_outside (c : Chan) (r : Channel) : Outside s (s.putChannel c r) := .of_blocks

theorem eachChannel_outside (cs : List Chan) (f : Chan → Channel → Channel) : Outside s (s.eachChannel cs f) :=
  .eachChannel s s.pmn cs f

theorem setChannel_outside (channel range filter : Nat) (low high raw : Int) :
    Outside s (setChannel channel range filter low high raw s).2 := by
  unfold setChannel
  iterate 3 (split; exact .refl s)
  exact putChannel_outside ..

theorem calBegin_outside (set : List Nat) : Outside s (calBegin set s).2 := by
  unfold calBegin
  iterate 2 (split; exact .refl s)
  exact eachChannel_outside ..

theorem calPoint_outside (set : List Nat) (point : Nat) : Outside s (calPoint set point s).2 := by
  unfold calPoint
  iterate 2 (split; exact .refl s)
  exact eachChannel_outside ..

theorem calEnd_outside (set : List Nat) (mode : Nat) : Outside s (calEnd set mode s).2 := by
  unfold calEnd
  iterate 2 (split; exact .refl s)
  exact eachChannel_outside s (channelsOf set) fun _ c => (c.conclude mode).resample

theorem calAbort_outside (set : List Nat) : Outside s (calAbort set s).2 := by
  unfold calAbort
  iterate 2 (split; exact .refl s)
  exact eachChannel_outside s (channelsOf set) fun _ c => Channel.resample { c with result := .none }

theorem channelSample_outside (c : Chan) (raw : Int) : Outside s (channelSample c raw s) := by
  unfold channelSample
  dsimp only
  split
  · exact .refl s
  split
  · exact .of_blocks rfl rfl rfl
  · exact putChannel_outside ..

theorem graceExpiry_outside (c : Chan) : Outside s (graceExpiry c s) := by
  unfold graceExpiry
  split <;> exact .of_blocks rfl rfl rfl

theorem fieldSupplyLoss_outside : Outside s (fieldSupplyLoss s) := by
  unfold fieldSupplyLoss
  split
  · exact .eachChannel ..
  · exact .refl s

theorem fieldSupplyReturn_outside (raw : Seven Int) : Outside s (fieldSupplyReturn raw s) := by
  unfold fieldSupplyReturn
  split
  · exact .refl s
  · exact .eachChannel ..

end Channels

section Jobs

variable (s : State)

theorem openJob_outside (number lotNumber quote : Nat) : Outside s (openJob number lotNumber quote s).2 := by
  unfold openJob
  iterate 3 (split; exact .refl s)
  exact .of_blocks rfl rfl rfl

theorem amendJob_outside (number quote lotNumber : Nat) : Outside s (amendJob number quote lotNumber s).2 := by
  unfold amendJob
  iterate 4 (split; exact .refl s)
  exact .of_blocks (t := State.raiseIf ..)

theorem retireJob_outside (number : Nat) : Outside s (retireJob number s).2 := by
  unfold retireJob
  iterate 3 (split; exact .refl s)
  exact .of_blocks rfl rfl rfl

theorem configureSaw_outside (saw demand rate : Nat) : Outside s (configureSaw saw demand rate s).2 := by
  unfold configureSaw
  split
  · exact .refl s
  · exact .updateSaw s _ (f := fun r => { r with demand := clamp 5 120 demand, rate := clamp 0 100000 rate }) fun _ => rfl

theorem sawFrame_outside (w : Saw) : Outside s (s.sawFrame w) := .updateSaw s w fun _ => rfl

theorem setNotices_outside (enable : BitVec 16) (master : Nat) : Outside s (setNotices enable master s).2 := by
  unfold setNotices
  split
  · exact .refl s
  · exact .of_blocks rfl rfl rfl

theorem busyRequest_outside (kind : Byte) : Outside s (busyRequest kind s) := by
  unfold busyRequest
  split
  · exact .of_blocks
  · exact .refl s

theorem replySent_outside : Outside s (replySent s) := by
  unfold replySent
  split
  · exact .of_blocks rfl rfl rfl
  · exact .refl s

theorem setReceiver_outside (l : Link) (p : Phase) : Outside s (s.setReceiver l p) := by
  cases l <;> exact .of_blocks rfl rfl rfl

theorem meteringInterval_outside (w : Saw) : Outside s (meteringInterval w s) := by
  unfold meteringInterval
  dsimp only
  split
  case isFalse => exact .refl s
  have hticked : Outside s (s.updateSaw w fun r => { r with meters := r.meters.tick (s.intervalFlow w) }) :=
    .updateSaw s w fun _ => rfl
  split
  · exact .after .of_blocks hticked
  · exact hticked

theorem goSilent_outside (cause : LossCause) (unwritten : Bool) : Outside s (s.goSilent cause unwritten) := .of_blocks rfl rfl rfl

end Jobs

theorem act_outside (i : Instr) (s : State) (h : Instr.outside i = true) : Outside s ((Instr.meaning i).act s) := by
  cases i
  case readMaterial | readSlab | findSlabs | readRack | readAudit | readPlan | readPassList | readSaw | readContext
    | readBlade | readChannel | readPlant | readJob | unknownRequest =>
    rw [act_of_reads rfl]
    exact .refl s
  case addBlade => exact addBlade_outside s ..
  case amendBlade => exact amendBlade_outside s ..
  case fitBlade => exact fitBlade_outside s ..
  case removeBlade => exact removeBlade_outside s _
  case retireBlade => exact retireBlade_outside s _
  case setChannel => exact setChannel_outside s ..
  case calBegin => exact calBegin_outside s _
  case calPoint => exact calPoint_outside s ..
  case calEnd => exact calEnd_outside s ..
  case calAbort => exact calAbort_outside s _
  case channelSample => exact channelSample_outside s ..
  case graceExpiry => exact graceExpiry_outside s _
  case fieldSupplyLoss => exact fieldSupplyLoss_outside s
  case fieldSupplyReturn => exact fieldSupplyReturn_outside s _
  case openJob => exact openJob_outside s ..
  case amendJob => exact amendJob_outside s ..
  case retireJob => exact retireJob_outside s _
  case configureSaw => exact configureSaw_outside s ..
  case readNotices => exact .of_blocks rfl rfl rfl
  case setNotices => exact setNotices_outside s ..
  case readState => exact .of_blocks rfl rfl rfl
  case busyRequest => exact busyRequest_outside s _
  case replySent => exact replySent_outside s
  case badFrame => exact setReceiver_outside s ..
  case byteGapTimeout => exact setReceiver_outside s ..
  case sawMessageMalformed w kind =>
    exact .after (t := s.sawFrame w) (.of_blocks rfl rfl rfl) (sawFrame_outside s w)
  case interlockReturn w => exact .updateSaw s w (f := fun r => { r with interlock := true }) fun _ => rfl
  case meteringInterval => exact meteringInterval_outside s _
  case powerLoss => exact goSilent_outside s ..
  case backupFailure => exact .of_blocks rfl rfl rfl
  all_goals cases h

end Sys2Proof.Machine
end

section
/-! PROOFS. The working saws at the starts (R112, R131), and under every command. -/

namespace Sys2Proof.Machine

section Starts

variable {s : State}

theorem coldStart_saws (s : State) (interlock : Four Bool) (supply : Bool) : SawsStand (s.coldStart interlock supply) :=
  (coldStart_work s interlock supply).saws

theorem planFace?_giveBackAll (s t : State) (h : t.pln = ⟨s.pln.plans.map Plan.giveBackAll⟩) (n : Nat) :
    t.planFace? n = s.planFace? n := by
  unfold State.planFace? State.plan?
  rw [h, findBy_map giveBackAll_number, Option.map_map]
  exact congrArg (fun f => Option.map f _) (funext fun p => Prod.ext rfl (hasActive_giveBackAll p))

/-- The context of a warm start has a pass part where the saw's had one, or where its head plan has an ACTIVE pass. -/
theorem warmContext_part {w : Saw} {c : Context} (hc : s.warmContext w = some c) (hpart : c.part.isSome = true) :
    ((s.saw w).context.bind Context.part).isSome = true ∨ ∃ x, s.headFace? w = some (x, true) := by
  obtain ⟨hkept, hnone, hactive⟩ := warmContext_spec s w
  cases hx : (s.saw w).context with
  | some x =>
    cases hc.symm.trans (hkept x hx)
    refine .inl ?_
    rw [Option.bind_some]
    split at hpart <;> exact hpart
  | none =>
    cases ha : s.activePass? w with
    | none => cases hc.symm.trans (hnone hx ha)
    | some pq => exact .inr (headFace?_active.2 (by rw [ha]; rfl))

theorem warmed_saws (hq : QueueLaw s) (h : SawsStand s) (interlock : Four Bool) : SawsStand (s.warmed interlock) := by
  have hplan := planFace?_giveBackAll s (s.warmed interlock) rfl
  have hrecord (w : Saw) := (warmed_saw s interlock w).trans (warmSaw_eq s interlock w)
  have hhead (w : Saw) : (s.warmed interlock).headFace? w = s.headFace? w := by
    rw [State.headFace?, hrecord, show (s.warmed interlock).planFace? = s.planFace? from funext hplan]
    rfl
  refine ⟨fun w => ?_, fun w _ => ?_, fun n x a ha => h.fresh n x a (hplan n ▸ ha)⟩
  · rw [hhead]
    cases hc : s.warmContext w with
    | none => exact .resting (by rw [hrecord, hc]) (.inl (by rw [hrecord, hc]; rfl))
    | some c =>
      refine .faulted (c := c) (by rw [hrecord, hc]; rfl) (by rw [hrecord, hc]) fun hpart => ?_
      rcases warmContext_part hc hpart with hpart | hactive
      · exact h.headCutting (.inr (.inr (.inr (.inr (.inr hpart)))))
      · exact h.cutting_of_active hq hactive
  · refine ⟨fun _ => by rw [hrecord], fun _ => ?_⟩
    rw [hrecord]
    dsimp only
    split
    · exact .inl rfl
    · exact .inr rfl

theorem warmStart_saws (hq : QueueLaw s) (h : SawsStand s) (inputs : Inputs) : SawsStand (s.warmStart inputs) := by
  rw [warmStart_eq, State.warmChannels]
  exact (warmed_saws hq h inputs.interlock).quiet (Outside.eachChannel ..).quiet

theorem startOrCut_saws (hq : QueueLaw s) (h : SawsStand s) (inputs : Inputs) : SawsStand (s.startOrCut inputs) := by
  have hbackup : SawsStand ({ s with rsv := { s.rsv with backup := inputs.backup } } : State) := h.quiet (.of_blocks rfl rfl)
  have hstart : SawsStand (s.start inputs) := by
    unfold State.start
    dsimp only
    split
    · exact coldStart_saws ..
    · exact warmStart_saws (s := { s with rsv := { s.rsv with backup := inputs.backup } }) (hq.of_blocks rfl rfl) hbackup inputs
  rcases State.startOrCut_cases s inputs with e | e <;> rw [e]
  · exact hstart
  · exact hstart.quiet (goSilent_outside ..).quiet

end Starts

/-! ## Requests about the stock -/

/-- The requests about materials, slabs, racks and the audit that are no readings. -/
def Instr.ofStock : Instr → Bool
  | .defineMaterial .. | .dropMaterial .. | .createSlab .. | .amendSlab .. | .scrapSlab .. | .retireSlab .. => true
  | .moveSlab .. | .verifySlab .. | .startAudit .. | .endAudit | .abortAudit => true
  | _ => false

/-- Neither the plans nor the saws are moved. -/
structure StockOnly (s t : State) : Prop where
  pln : t.pln = s.pln
  sdp : t.sdp = s.sdp

theorem StockOnly.quiet {s t : State} (h : StockOnly s t) : Quiet s t := .of_blocks (by rw [h.sdp]) h.pln

theorem StockOnly.refl (s : State) : StockOnly s s := ⟨rfl, rfl⟩

theorem act_stock (i : Instr) (s : State) (h : Instr.ofStock i = true) : StockOnly s ((Instr.meaning i).act s) := by
  cases i
  case defineMaterial =>
    simp only [Instr.meaning, Meaning.act, defineMaterial]
    split <;> exact ⟨rfl, rfl⟩
  case dropMaterial =>
    simp only [Instr.meaning, Meaning.act, dropMaterial]
    iterate 3 (split; exact .refl s)
    exact ⟨rfl, rfl⟩
  case createSlab =>
    simp only [Instr.meaning, Meaning.act, createSlab]
    iterate 4 (split; exact .refl s)
    exact ⟨rfl, rfl⟩
  case amendSlab =>
    simp only [Instr.meaning, Meaning.act, amendSlab]
    iterate 5 (split; exact .refl s)
    exact ⟨rfl, rfl⟩
  case scrapSlab =>
    simp only [Instr.meaning, Meaning.act, scrapSlab]
    iterate 2 (split; exact .refl s)
    exact ⟨by simp [performed, State.leaveAudit], by simp [performed, State.leaveAudit]⟩
  case retireSlab =>
    simp only [Instr.meaning, Meaning.act, retireSlab]
    split
    · exact .refl s
    · split <;> exact ⟨rfl, rfl⟩
  case moveSlab =>
    simp only [Instr.meaning, Meaning.act, moveSlab]
    iterate 4 (split; exact .refl s)
    exact ⟨by simp [performed], by simp [performed]⟩
  case verifySlab =>
    simp only [Instr.meaning, Meaning.act, verifySlab]
    iterate 3 (split; exact .refl s)
    cases s.other? _ _ <;> exact ⟨by simp [performed], by simp [performed]⟩
  case startAudit =>
    simp only [Instr.meaning, Meaning.act, startAudit]
    split
    · exact .refl s
    · cases s.stk.audit.state <;> exact ⟨rfl, rfl⟩
  case endAudit =>
    simp only [Instr.meaning, Meaning.act, endAudit]
    split
    · exact .refl s
    · exact ⟨rfl, rfl⟩
  case abortAudit =>
    simp only [Instr.meaning, Meaning.act, abortAudit]
    split
    · exact .refl s
    · exact ⟨rfl, rfl⟩
  all_goals cases h

theorem WaterLaw.lined {s : State} (h : WaterLaw s) : Lined s := by
  refine ⟨h.lineNodup, fun e he => ?_⟩
  obtain ⟨v, k⟩ := e
  cases k with
  | started => exact .inl ((h.started v).1 he)
  | held => exact .inr ((h.held v).1 he)

theorem act_saws (i : Instr) (s : State) (hw : WaterLaw s) (hq : QueueLaw s) (h : SawsStand s) (ht : (Instr.meaning i).Taken s) :
    SawsStand ((Instr.meaning i).act s) := by
  have hl := hw.lined
  by_cases ho : Instr.outside i = true
  · exact h.quiet (act_outside i s ho).quiet
  cases i
  case defineMaterial | dropMaterial | createSlab | amendSlab | scrapSlab | retireSlab | moveSlab | verifySlab | startAudit | endAudit
    | abortAudit => exact h.quiet (act_stock _ s rfl).quiet
  case createPlan => exact createPlan_saws hq h ..
  case revisePlan => exact revisePlan_saws hq h ..
  case checkPlan => exact checkPlan_saws hq h _
  case releasePlan => exact releasePlan_saws hq h ..
  case cancelPlan => exact cancelPlan_saws hq h _
  case abandonPlan => exact abandonPlan_saws hq hl h _
  case retirePlan => exact retirePlan_saws hq h _
  case closeJob => exact closeJob_saws hq h _
  case resumeSaw => exact resumeSaw_saws hq h _
  case setPlant => exact setPlant_saws (hw.agree ht.1) hq h _
  case wipeStore =>
    simp only [Instr.meaning, Meaning.act, wipeStore]
    split
    · exact h
    · exact coldStart_saws ..
  case hello => exact hello_saws hq hl h ..
  case loaded => exact loaded_saws hq h ht.2
  case start => exact start_saws hq h ht.2
  case done => exact done_saws hq hw hl h ht.2
  case held => exact held_saws hq (hw.agree ht.1.1) h ht.2 _
  case fault => exact fault_saws hq hl h ..
  case status w position =>
    simp only [Instr.meaning, Meaning.act, status]
    split
    · exact h.quiet (.reportReached ..)
    · exact h
  case linkSilence => exact linkSilence_saws hq hl h _
  case holdTimerExpiry => exact holdTimerExpiry_saws hq h _
  case interlockDrop => exact interlockDrop_saws hq hl h _
  case capacityEvaluation => exact evaluate_saws (hw.agree ht) hq h
  case resetRelease =>
    simp only [Instr.meaning, Meaning.act, resetRelease]
    split
    · exact startOrCut_saws (s := { s with rsv := { s.rsv with resetAsserted := false } }) (hq.of_blocks rfl rfl)
        (h.quiet (.of_blocks rfl rfl)) _
    · exact h.quiet (.of_blocks rfl rfl)
  case powerReturn =>
    exact startOrCut_saws (s := { s with rsv := { s.rsv with mainPower := true } }) (hq.of_blocks rfl rfl)
      (h.quiet (.of_blocks rfl rfl)) _
  all_goals exact absurd rfl ho

end Sys2Proof.Machine
end

section
/-! PROOFS. The racks, the places and the marks (R8, R27, R31): what each change of a slab does to them. -/

namespace Sys2Proof.Machine

/-! ## The marks and the rack map -/

/-- The numbers of the slabs that carry the mark. -/
def State.marks (s : State) : Finset Nat := ((s.stk.slabs.filter Slab.mark).map Slab.number).toFinset

/-- The positions rise strictly and lie in the racks. -/
structure MapLaw (xs : List RackEntry) : Prop where
  positions : Rising RackEntry.key xs
  inRacks : ∀ e ∈ xs, (1 ≤ e.place.rack ∧ e.place.rack ≤ 32) ∧ (1 ≤ e.place.position ∧ e.place.position ≤ 12)

/-- A place in the racks. -/
def Place.inRacks (p : Place) : Prop := (1 ≤ p.rack ∧ p.rack ≤ 32) ∧ (1 ≤ p.position ∧ p.position ≤ 12)

/-- A slab that has left the racks for good, or stands on a saw. -/
def Slab.gone (r : Slab) : Prop := r.state = .onSaw ∨ r.state = .consumed ∨ r.state = .scrapped

/-- A slab without a place, a mark and the missing flag. -/
def Slab.clear (r : Slab) : Prop := r.place = none ∧ r.mark = false ∧ r.missing = false

section Marks

variable {s t : State} {n : Nat}

theorem mem_marks (h : TableLaw s) : n ∈ s.marks ↔ ∃ r, s.slab? n = some r ∧ r.mark = true := by
  simp only [State.marks, List.mem_toFinset, List.mem_map, List.mem_filter]
  constructor
  · rintro ⟨r, ⟨hr, hm⟩, rfl⟩
    exact ⟨r, h.slabs.find hr, hm⟩
  · rintro ⟨r, hr, hm⟩
    obtain ⟨hmem, hnumber⟩ := findBy_some hr
    exact ⟨r, ⟨hmem, hm⟩, hnumber⟩

theorem card_marks (h : TableLaw s) : s.marks.card = (s.stk.slabs.filter Slab.mark).length := by
  have hnodup : ((s.stk.slabs.filter Slab.mark).map Slab.number).Nodup :=
    (rising_iff_pairwise.1 h.slabs.filter).imp fun hlt => Nat.ne_of_lt hlt
  rw [State.marks, List.toFinset_card_of_nodup hnodup, List.length_map]

theorem marks_congr (hs : TableLaw s) (ht : TableLaw t)
    (hm : ∀ n, (t.slab? n).map Slab.mark = (s.slab? n).map Slab.mark) : t.marks = s.marks := by
  ext n
  have hn := hm n
  rw [mem_marks hs, mem_marks ht]
  cases hsn : s.slab? n <;> cases htn : t.slab? n <;> simp_all

theorem MapLaw.filter {xs : List RackEntry} (h : MapLaw xs) (f : RackEntry → Bool) : MapLaw (xs.filter f) :=
  ⟨h.positions.filter, fun e he => h.inRacks e (List.mem_filter.1 he).1⟩

theorem placeKey_inj {p q : Place} (hp : p.inRacks) (hq : q.inRacks) (h : p.key = q.key) : p = q := by
  obtain ⟨a, b⟩ := p
  obtain ⟨c, d⟩ := q
  simp only [Place.inRacks, Place.key] at *
  congr 1 <;> omega

theorem MapLaw.fill {xs : List RackEntry} (h : MapLaw xs) {p : Place} (hp : p.inRacks) (hfree : ∀ e ∈ xs, e.place ≠ p) (n : Nat) :
    MapLaw (insertBy RackEntry.key ⟨p, n⟩ xs) := by
  refine ⟨h.positions.insertBy (findBy_none.2 fun e he hk => hfree e he (placeKey_inj (h.inRacks e he) hp hk)), fun e he => ?_⟩
  rcases mem_insertBy.1 he with rfl | he
  · exact hp
  · exact h.inRacks e he

theorem setPlace_map (h : MapLaw s.stk.rackMap) {target : Option Place} (hp : ∀ p, target = some p → p.inRacks) (n : Nat) :
    MapLaw (s.setPlace n target).stk.rackMap := by
  unfold State.setPlace
  split
  · exact h
  next r _ =>
  have hleft : MapLaw (r.place.elim s s.clearRack).stk.rackMap := by
    cases r.place with
    | none => exact h
    | some q => exact h.filter _
  cases target with
  | none => exact hleft
  | some p =>
    refine (hleft.filter _).fill (hp p rfl) (fun e he => ?_) n
    simpa using (List.mem_filter.1 he).2

end Marks

/-! ## One slab rewritten -/

section Rewrite

variable {s t : State} {n : Nat} {r r' : Slab}

theorem RackLaw.map (h : RackLaw s) : MapLaw s.stk.rackMap := ⟨h.positions, h.inRacks⟩

/-- The audit of a slab rewritten: it stands as it did, or the mark comes off and is no longer counted. -/
structure Unmarked (s t : State) (r r' : Slab) : Prop where
  kept : r'.mark = r.mark → t.stk.audit = s.stk.audit
  off : r'.mark ≠ r.mark → r'.mark = false ∧ t.stk.audit.state = s.stk.audit.state ∧
    t.stk.audit.marked = s.stk.audit.marked - 1

/-- One slab alone is rewritten, and its position follows it. -/
theorem RackLaw.rewrite (h : RackLaw s) (hs : TableLaw s) (ht : TableLaw t) (hmap : MapLaw t.stk.rackMap)
    (hr : s.slab? n = some r) (hslab : ∀ m, t.slab? m = if m = n then some r' else s.slab? m)
    (hrack : ∀ p, t.rackAt? p = if r'.place = some p then some n else if r.place = some p then none else s.rackAt? p)
    (hfree : ∀ p, r'.place = some p → ∀ m, s.rackAt? p = some m → m = n) (hgone : r'.gone → r'.clear)
    (haudit : Unmarked s t r r') : RackLaw t := by
  have hself : t.slab? n = some r' := (hslab n).trans (if_pos rfl)
  have hother {m : Nat} (hm : m ≠ n) : t.slab? m = s.slab? m := (hslab m).trans (if_neg hm)
  refine ⟨hmap.positions, hmap.inRacks, fun p m => ?_, fun m x hx hgx => ?_, ?_, fun hidle => ?_⟩
  · have hat (m : Nat) := h.agree p m
    rw [hrack]
    by_cases hm : m = n
    · subst hm
      simp only [hself, Option.some.injEq, exists_eq_left']
      split
      · next hp => simp [hp]
      · next hp =>
        split
        · simp [hp]
        · next hq => simp only [hat, hr, Option.some.injEq, exists_eq_left', hp, hq]
    · rw [hother hm]
      split
      · next hp => exact ⟨fun e => absurd (Option.some.inj e).symm hm, fun e => absurd (hfree p hp m ((hat m).2 e)) hm⟩
      · split
        · next hq =>
          have hn : s.rackAt? p = some n := (hat n).2 ⟨r, hr, hq⟩
          exact ⟨nofun, fun e => absurd (Option.some.inj (hn.symm.trans ((hat m).2 e))).symm hm⟩
        · exact hat m
  · by_cases hm : m = n
    · cases (hm ▸ hself).symm.trans hx
      exact hgone hgx
    · exact h.gone m x (hother hm ▸ hx) hgx
  · rw [← card_marks ht]
    have hcount : s.stk.audit.marked = s.marks.card := by rw [card_marks hs]; exact h.marked
    by_cases hmark : r'.mark = r.mark
    · rw [haudit.kept hmark, hcount, marks_congr hs ht fun m => ?_]
      by_cases hm : m = n
      · rw [hm, hself, hr, Option.map_some, Option.map_some, hmark]
      · rw [hother hm]
    · obtain ⟨hoff, -, hless⟩ := haudit.off hmark
      have hon : r.mark = true := by
        cases hrm : r.mark with
        | true => rfl
        | false => exact absurd (hoff.trans hrm.symm) hmark
      have herase : t.marks = s.marks.erase n := by
        ext m
        rw [Finset.mem_erase, mem_marks ht, mem_marks hs]
        by_cases hm : m = n
        · subst hm
          simp [hself, hoff]
        · simp [hother hm, hm]
      rw [hless, hcount, herase, Finset.card_erase_of_mem ((mem_marks hs).2 ⟨r, hr, hon⟩)]
  · by_cases hmark : r'.mark = r.mark
    · rw [haudit.kept hmark] at hidle ⊢
      obtain ⟨hreset, hnone⟩ := h.idle hidle
      refine ⟨hreset, fun x hx => ?_⟩
      have hfound := ht.slabs.find hx
      by_cases hm : x.number = n
      · rw [hm] at hfound
        cases hself.symm.trans hfound
        rw [hmark]
        exact hnone r (findBy_some hr).1
      · exact hnone x (findBy_some ((hother hm).symm.trans hfound)).1
    · obtain ⟨hoff, hstate, -⟩ := haudit.off hmark
      have hnone := (h.idle (hstate ▸ hidle)).2 r (findBy_some hr).1
      exact absurd (hoff.trans hnone.symm) hmark

theorem RackLaw.of_stk (h : RackLaw s) (e : t.stk = s.stk) : RackLaw t := by
  have hslab := slab?_congr e
  refine ⟨e ▸ h.positions, e ▸ h.inRacks, fun p n => ?_, fun n r hr => h.gone n r (hslab n ▸ hr), e ▸ h.marked, e ▸ h.idle⟩
  rw [hslab, State.rackAt?, e]
  exact h.agree p n

theorem setPlace_racks (hs : TableLaw s) (h : RackLaw s) {target : Option Place}
    (hp : ∀ p, target = some p → p.inRacks ∧ ∀ m, s.rackAt? p = some m → m = n)
    (hg : target = none ∨ ∀ r, s.slab? n = some r → ¬ r.gone) : RackLaw (s.setPlace n target) := by
  cases hr : s.slab? n with
  | none => rw [setPlace_of_none hr]; exact h
  | some r =>
    obtain ⟨hslab, hrack, hframe⟩ := setPlace_spec hr target
    refine h.rewrite hs ((Steady.setPlace s n target).tables hs) (setPlace_map h.map (fun p e => (hp p e).1) n) hr hslab hrack
      (fun p e => (hp p e).2) (fun hgone => ?_) ⟨fun _ => by rw [hframe], fun hne => absurd rfl hne⟩
    rcases hg with rfl | hg
    · exact ⟨rfl, (h.gone n r hr hgone).2⟩
    · exact absurd hgone (hg r hr)

/-- A record changed that keeps its place and its mark. -/
theorem updateSlab_racks (hs : TableLaw s) (h : RackLaw s) {f : Slab → Slab} (hk : ∀ x, (f x).number = x.number)
    (hplace : ∀ x, (f x).place = x.place) (hmark : ∀ x, (f x).mark = x.mark)
    (hgone : ∀ r, s.slab? n = some r → (f r).gone → (f r).clear) : RackLaw (s.updateSlab n f) := by
  have ht := (Steady.updateSlab s n hk hmark).tables hs
  cases hr : s.slab? n with
  | none =>
    have hsame (m : Nat) : (s.updateSlab n f).slab? m = s.slab? m := by
      rw [updateSlab_slab? s n f m hk]
      split
      · next hm => rw [hm, hr]; rfl
      · rfl
    refine ⟨h.positions, h.inRacks, fun p m => by rw [hsame]; exact h.agree p m, fun m x hx => h.gone m x (hsame m ▸ hx), ?_,
      fun hidle => ⟨(h.idle hidle).1, fun x hx => ?_⟩⟩
    · rw [← card_marks ht, marks_congr hs ht fun m => by rw [hsame], card_marks hs]
      exact h.marked
    · exact (h.idle hidle).2 x (findBy_some ((hsame _).symm.trans (ht.slabs.find hx))).1
  | some r =>
    refine h.rewrite (r' := f r) hs ht h.map hr (updateSlab_slab?_of_some hr f hk) (fun p => ?_) (fun p hp m hm => ?_) (hgone r hr)
      ⟨fun _ => rfl, fun hne => absurd (hmark r) hne⟩
    · rw [hplace]
      split
      · next hp => exact (h.agree p n).2 ⟨r, hr, hp⟩
      · rfl
    · rw [hplace] at hp
      exact Option.some.inj (hm.symm.trans ((h.agree p n).2 ⟨r, hr, hp⟩))

theorem unmark_racks (hs : TableLaw s) (h : RackLaw s) {v : Nat} (hv : v ≤ 1) : RackLaw (s.unmark n v) := by
  cases hr : s.slab? n with
  | none => rw [State.unmark, hr]; exact h
  | some r =>
    obtain ⟨hslab, hframe⟩ := unmark_spec hr v
    have hmap : (s.unmark n v).stk.rackMap = s.stk.rackMap := by rw [hframe]
    refine h.rewrite (r' := { r with mark := false }) hs ((Steady.unmark s n hv).tables hs) (hmap ▸ h.map) hr hslab (fun p => ?_)
      (fun p hp m hm => ?_) (fun hg => ?_) ⟨fun hm => ?_, fun hm => ?_⟩
    · rw [State.rackAt?, hmap]
      split
      · next hp => exact (h.agree p n).2 ⟨r, hr, hp⟩
      · rfl
    · exact Option.some.inj (hm.symm.trans ((h.agree p n).2 ⟨r, hr, hp⟩))
    · obtain ⟨hplace, -, hmissing⟩ := h.gone n r hr hg
      exact ⟨hplace, rfl, hmissing⟩
    · rw [hframe, if_neg (by rw [← hm]; exact nofun)]
    · rw [hframe, if_pos (by simpa using Ne.symm hm)]
      exact ⟨rfl, rfl, rfl⟩

end Rewrite

end Sys2Proof.Machine
end

section
/-! PROOFS. The racks, the places and the marks under the requests about the stock (R9 to R12, R29 to R39). -/

namespace Sys2Proof.Machine

section Stock

variable {s t : State} {n : Nat} {r : Slab}

/-! ## Records added and removed -/

theorem insertSlab_racks (hs : TableLaw s) (h : RackLaw s) (hfree : s.slab? r.number = none)
    (hroom : s.stk.slabs.length < Config.maxSlabs) (hclear : r.clear) : RackLaw (s.withSlabs (insertBy Slab.number r)) := by
  obtain ⟨hplace, hmark, hmissing⟩ := hclear
  have ht := (Steady.insertSlab s hfree hroom hmark).tables hs
  have hslab := insert_slab? hfree
  refine ⟨h.positions, h.inRacks, fun p m => ?_, fun m x hx hg => ?_, ?_, fun hidle => ?_⟩
  · refine (h.agree p m).trans ?_
    rw [hslab]
    split
    · next hm => simp [hm, hfree, hplace]
    · rfl
  · rw [hslab] at hx
    split at hx
    · cases hx
      exact ⟨hplace, hmark, hmissing⟩
    · exact h.gone m x hx hg
  · rw [← card_marks ht, show (s.withSlabs (insertBy Slab.number r)).marks = s.marks from ?_, card_marks hs]
    · exact h.marked
    · ext m
      rw [mem_marks ht, mem_marks hs, hslab]
      split
      · next hm => simp [hm, hfree, hmark]
      · rfl
  · obtain ⟨hreset, hnone⟩ := h.idle hidle
    refine ⟨hreset, fun x hx => ?_⟩
    rcases mem_insertBy.1 hx with rfl | hx
    · exact hmark
    · exact hnone x hx

theorem removeSlab_racks (hs : TableLaw s) (ht : TableLaw (s.withSlabs (removeBy Slab.number n))) (h : RackLaw s)
    (hr : s.slab? n = some r) (hg : r.gone) : RackLaw (s.withSlabs (removeBy Slab.number n)) := by
  obtain ⟨hplace, hmark, -⟩ := h.gone n r hr hg
  have hslab := remove_slab? s n
  refine ⟨h.positions, h.inRacks, fun p m => ?_, fun m x hx hgx => ?_, ?_, fun hidle => ?_⟩
  · refine (h.agree p m).trans ?_
    rw [hslab]
    split
    · next hm => simp [hm, hr, hplace]
    · rfl
  · rw [hslab] at hx
    split at hx
    · cases hx
    · exact h.gone m x hx hgx
  · rw [← card_marks ht, show (s.withSlabs (removeBy Slab.number n)).marks = s.marks from ?_, card_marks hs]
    · exact h.marked
    · ext m
      rw [mem_marks ht, mem_marks hs, hslab]
      split
      · next hm => simp [hm, hr, hmark]
      · rfl
  · obtain ⟨hreset, hnone⟩ := h.idle hidle
    exact ⟨hreset, fun x hx => hnone x (mem_removeBy.1 hx).1⟩

theorem amendSlab_racks (hs : TableLaw s) (h : RackLaw s) (number material thickness lotNumber lotSeq basis : Nat)
    (flaws : List Flaw) : RackLaw (amendSlab number material thickness lotNumber lotSeq basis flaws s).2 := by
  unfold amendSlab
  iterate 5 (split; exact h)
  exact updateSlab_racks hs h (fun _ => rfl) (fun _ => rfl) (fun _ => rfl) fun x hx => h.gone _ x hx

/-- A slab leaves its place and the audit, and its record says so. -/
theorem offRack_racks (hs : TableLaw s) (h : RackLaw s) (x : SlabState) :
    RackLaw (((s.setPlace n none).leaveAudit n).updateSlab n fun r => { r with state := x, missing := false }) := by
  have hplaced : TableLaw (s.setPlace n none) := (Steady.setPlace ..).tables hs
  have hleft : TableLaw ((s.setPlace n none).leaveAudit n) := (Steady.unmark _ n (Nat.zero_le 1)).tables hplaced
  refine updateSlab_racks hleft (unmark_racks hplaced (setPlace_racks hs h nofun (.inl rfl)) (Nat.zero_le 1)) (fun _ => rfl)
    (fun _ => rfl) (fun _ => rfl) fun r hr _ => ?_
  cases hn : s.slab? n with
  | none =>
    rw [setPlace_of_none hn, State.leaveAudit, State.unmark, hn, hn] at hr
    cases hr
  | some y =>
    have hy := ((setPlace_spec hn none).1 n).trans (if_pos rfl)
    cases (((unmark_spec hy 0).1 n).trans (if_pos rfl)).symm.trans hr
    exact ⟨rfl, rfl, rfl⟩

theorem scrapSlab_racks (hs : TableLaw s) (h : RackLaw s) (number : Nat) : RackLaw (scrapSlab number s).2 := by
  unfold scrapSlab
  iterate 2 (split; exact h)
  exact offRack_racks hs h .scrapped

theorem retireSlab_racks (hs : TableLaw s) (h : RackLaw s) (number : Nat) : RackLaw (retireSlab number s).2 := by
  have ht := (retireSlab_steady number s).tables hs
  unfold retireSlab at ht ⊢
  split
  · exact h
  next r hr =>
  split
  · next hg =>
    rw [hr] at ht
    simp only [if_pos hg] at ht
    exact removeSlab_racks hs ht h hr (.inr hg)
  · exact h

/-! ## Places -/

theorem place_racks (hs : TableLaw s) (h : RackLaw s) (hr : s.slab? n = some r) (hstock : r.inStock = true)
    {target : Option Place} (hp : ∀ p, target = some p → p.inRacks ∧ ∀ m, s.rackAt? p = some m → m = n) :
    RackLaw (s.place n target) := by
  have hin : ¬ r.gone := by
    rcases Slab.inStock_iff.1 hstock with hx | hx <;> simp [Slab.gone, hx]
  have hplaced : TableLaw (s.setPlace n target) := (Steady.setPlace ..).tables hs
  have hfound : TableLaw ((s.setPlace n target).updateSlab n fun r => { r with missing := false }) :=
    (Steady.updateSlab _ n (f := fun r => { r with missing := false }) (fun _ => rfl) fun _ => rfl).tables hplaced
  have hplace := setPlace_racks hs h hp (.inr fun x hx => by cases hr.symm.trans hx; exact hin)
  refine unmark_racks hfound (updateSlab_racks hplaced hplace (fun _ => rfl) (fun _ => rfl) (fun _ => rfl) fun x hx hg => ?_)
    (Nat.le_refl 1)
  cases (((setPlace_spec hr target).1 n).trans (if_pos rfl)).symm.trans hx
  exact absurd hg hin

theorem placeOf_inRacks {rack position : Nat} (hf : placeForm rack position = true) {p : Place}
    (hp : placeOf rack position = some p) : p.inRacks := by
  obtain ⟨hrack, hposition, hboth⟩ := placeForm_iff.1 hf
  unfold placeOf at hp
  split at hp
  · cases hp
  · cases hp
    refine ⟨⟨?_, hrack⟩, ?_, hposition⟩ <;> dsimp only <;> omega

/-- No other slab stands at the target. -/
theorem free_of_other? {target : Option Place} (ho : s.other? n target = none) {p : Place} (hp : target = some p) {m : Nat}
    (hm : s.rackAt? p = some m) : m = n := by
  by_contra hne
  cases (other?_eq_some_iff.2 ⟨p, hp, hm, hne⟩).symm.trans ho

theorem moveSlab_racks (hs : TableLaw s) (h : RackLaw s) (number rack position : Nat) :
    RackLaw (moveSlab number rack position s).2 := by
  unfold moveSlab
  split
  · exact h
  next hf =>
  split
  · exact h
  next r hr =>
  split
  · exact h
  next hstock =>
  split
  · exact h
  next ho =>
  exact place_racks hs h hr (by simpa using hstock) fun p hp =>
    ⟨placeOf_inRacks (by simpa using hf) hp, fun m => free_of_other? (by simpa using ho) hp⟩

theorem verifySlab_racks (hs : TableLaw s) (h : RackLaw s) (number rack position : Nat) :
    RackLaw (verifySlab number rack position s).2 := by
  unfold verifySlab
  split
  · exact h
  next hf =>
  split
  · exact h
  next r hr =>
  split
  · exact h
  next hstock =>
  have hin {p : Place} (hp : placeOf rack position = some p) := placeOf_inRacks (by simpa using hf) hp
  have hstock : r.inStock = true := by simpa using hstock
  dsimp only [performed]
  cases ho : s.other? number (placeOf rack position) with
  | none => exact place_racks hs h hr hstock fun p hp => ⟨hin hp, fun m => free_of_other? ho hp⟩
  | some d =>
    obtain ⟨q, hq, hat, hne⟩ := other?_eq_some_iff.1 ho
    obtain ⟨x, hx, hplace⟩ := (h.agree q d).1 hat
    obtain ⟨hslab, hrack, -⟩ := setPlace_spec hx none
    refine place_racks ((Steady.setPlace ..).tables hs)
      (setPlace_racks (target := none) hs h (fun _ e => nomatch e) (.inl rfl))
      ((hslab number).trans ((if_neg (Ne.symm hne)).trans hr)) hstock fun p hp => ⟨hin hp, fun m hm => ?_⟩
    cases hq.symm.trans hp
    rw [hrack, if_neg nofun, if_pos hplace] at hm
    cases hm

/-! ## The audit -/

/-- A position names a slab exactly when the map holds the entry. -/
theorem rackAt?_iff (h : MapLaw s.stk.rackMap) {p : Place} {n : Nat} : s.rackAt? p = some n ↔ ⟨p, n⟩ ∈ s.stk.rackMap := by
  unfold State.rackAt?
  constructor
  · intro hn
    obtain ⟨e, he, rfl⟩ := Option.map_eq_some_iff.1 hn
    obtain rfl : e.place = p := by simpa using List.find?_some he
    exact List.mem_of_find?_eq_some he
  · intro hmem
    cases he : s.stk.rackMap.find? fun e => e.place == p with
    | none => simpa using List.find?_eq_none.1 he _ hmem
    | some e =>
      have hplace : e.place = p := by simpa using List.find?_some he
      have hkey : RackEntry.key e = RackEntry.key ⟨p, n⟩ := congrArg Place.key hplace
      have hfound := h.positions.find (List.mem_of_find?_eq_some he)
      rw [hkey, h.positions.find hmem] at hfound
      rw [← Option.some.inj hfound]
      rfl

/-- Every record is rewritten, and the positions of the slabs not kept in place are emptied. -/
theorem RackLaw.remade (h : RackLaw s) {f : Slab → Slab} {keep : Slab → Bool} (hslab : ∀ n, t.slab? n = (s.slab? n).map f)
    (hmap : MapLaw t.stk.rackMap)
    (hmem : ∀ e, e ∈ t.stk.rackMap ↔ e ∈ s.stk.rackMap ∧ ∀ r, s.slab? e.slab = some r → keep r = true)
    (hplace : ∀ r, (f r).place = if keep r then r.place else none)
    (hgone : ∀ r, (f r).gone → r.gone ∧ (r.clear → (f r).clear))
    (hmarked : t.stk.audit.marked = (t.stk.slabs.filter Slab.mark).length)
    (hidle : t.stk.audit.state = .idle → t.stk.audit = ⟨.idle, [], 0, 0⟩ ∧ ∀ r ∈ t.stk.slabs, r.mark = false) : RackLaw t := by
  refine ⟨hmap.positions, hmap.inRacks, fun p n => ?_, fun n x hx hg => ?_, hmarked, hidle⟩
  · rw [rackAt?_iff hmap, hmem, ← rackAt?_iff h.map, h.agree, hslab]
    constructor
    · rintro ⟨⟨r, hr, hp⟩, hkeep⟩
      exact ⟨f r, by rw [hr]; rfl, by rw [hplace, if_pos (hkeep r hr), hp]⟩
    · rintro ⟨x, hx, hp⟩
      obtain ⟨r, hr, rfl⟩ := Option.map_eq_some_iff.1 hx
      rw [hplace] at hp
      split at hp
      · next hkeep => exact ⟨⟨r, hr, hp⟩, fun y hy => by cases hr.symm.trans hy; exact hkeep⟩
      · cases hp
  · rw [hslab] at hx
    obtain ⟨r, hr, rfl⟩ := Option.map_eq_some_iff.1 hx
    obtain ⟨hrg, hclear⟩ := hgone r hg
    exact hclear (h.gone n r hr hrg)

theorem closeAudit_racks (h : RackLaw s) : RackLaw s.closeAudit := by
  refine h.remade (f := fun r => { r with mark := false }) (keep := fun _ => true) (fun n => ?_) h.map (fun e => by simp; rfl)
    (fun _ => rfl) (fun r hg => ⟨hg, fun hc => ⟨hc.1, rfl, hc.2.2⟩⟩) ?_ fun _ => ⟨rfl, fun r hr => ?_⟩
  · exact findBy_map (f := fun r : Slab => { r with mark := false }) (fun _ => rfl) n _
  · exact (marks_cleared _).symm
  · obtain ⟨x, -, rfl⟩ := List.mem_map.1 hr
    rfl

theorem walked_inStock {spans : List Span} {r : Slab} (hw : r.walked spans = true) : r.inStock = true :=
  (Bool.and_eq_true_iff.1 hw).1

theorem openAudit_racks (h : RackLaw s) (spans : List Span) : RackLaw (s.openAudit spans) := by
  refine h.remade (f := fun r => { r with mark := r.walked spans }) (keep := fun _ => true) (fun n => ?_) h.map
    (fun e => by simp; rfl) (fun _ => rfl) (fun r hg => ⟨hg, fun hc => ⟨hc.1, ?_, hc.2.2⟩⟩) ?_ nofun
  · exact findBy_map (f := fun r : Slab => { r with mark := r.walked spans }) (fun _ => rfl) n _
  · refine Bool.eq_false_iff.2 fun hw => ?_
    have hstock := Slab.inStock_iff.1 (walked_inStock hw)
    rcases (show r.gone from hg) with hx | hx | hx <;> simp [hx] at hstock
  · show (s.stk.slabs.filter (Slab.walked spans)).length = ((s.stk.slabs.map fun r => { r with mark := r.walked spans }).filter Slab.mark).length
    rw [List.filter_map, List.length_map]
    rfl

theorem startAudit_racks (h : RackLaw s) (spans : List Span) : RackLaw (startAudit spans s).2 := by
  unfold startAudit
  split
  · exact h
  · dsimp only [performed]
    split
    · exact openAudit_racks (closeAudit_racks h) spans
    · exact openAudit_racks h spans

theorem endAudit_racks (h : RackLaw s) : RackLaw (endAudit s).2 := by
  cases hrun : s.stk.audit.state with
  | idle => rw [endAudit_idle hrun]; exact h
  | running =>
    rw [endAudit_running hrun]
    refine RackLaw.of_stk ?_ (State.raise_stk ..)
    have hslabs := declareMissing_closeAudit_slabs s
    refine h.remade (f := fun r =>
        if r.mark then { r with missing := true, place := none, mark := false } else { r with mark := false })
      (keep := fun r => !r.mark) (fun n => ?_) (h.map.filter _) (fun e => ?_) (fun r => ?_) (fun r hg => ⟨?_, fun hc => ?_⟩) ?_
      fun _ => ⟨rfl, fun r hr => ?_⟩
    · rw [State.slab?, hslabs]
      exact findBy_map (fun r => by split <;> rfl) n _
    · refine mem_declareMissing_rackMap.trans ?_
      simp
    · cases hm : r.mark <;> simp
    · unfold Slab.gone at hg ⊢
      split at hg <;> exact hg
    · rw [if_neg (by rw [hc.2.1]; exact nofun)]
      exact ⟨hc.1, rfl, hc.2.2⟩
    · exact (marks_cleared _).symm
    · obtain ⟨x, -, rfl⟩ := List.mem_map.1 (show r ∈ s.declareMissing.stk.slabs.map fun r => { r with mark := false } from hr)
      rfl

end Stock

end Sys2Proof.Machine
end

section
/-! PROOFS. The slabs and the plans that hold them (R8): the law of the work in words of what a plan holds and what a slab is held
by, and what each change of the two does to it. -/

namespace Sys2Proof.Machine

/-! ## What holds what -/

/-- The slab a plan holds, with the state it holds it in. -/
def Plan.bond (p : Plan) : Option (SlabState × Nat) :=
  match p.state with
  | .checked => some (.reserved, p.slab)
  | .released => some (.reserved, p.slab)
  | .cutting => some (.onSaw, p.slab)
  | _ => none

def State.bond? (s : State) (n : Nat) : Option (SlabState × Nat) := (s.plan? n).bind Plan.bond

/-- A slab's state with the plan that reserves it. -/
def Slab.tie (r : Slab) : SlabState × Option Nat := (r.state, r.plan)

def State.tie? (s : State) (k : Nat) : Option (SlabState × Option Nat) := (s.slab? k).map Slab.tie

/-- The slab, if on record, is held by no plan. -/
def Loose (s : State) (k : Nat) : Prop := ∀ x m, s.tie? k = some (x, m) → x ≠ .reserved ∧ x ≠ .onSaw ∧ m = none

/-- Every plan that holds a slab is the one the slab names, and every slab held is held by the plan it names. -/
structure Bound (s : State) : Prop where
  bond : ∀ n x k, s.bond? n = some (x, k) → s.tie? k = some (x, some n)
  tied : ∀ k x m, s.tie? k = some (x, m) → x = .reserved ∨ x = .onSaw → ∃ n, m = some n ∧ s.bond? n = some (x, k)
  loose : ∀ k x m, s.tie? k = some (x, m) → x ≠ .reserved → x ≠ .onSaw → m = none

/-- The plan holds the slab, or neither is held. -/
def Paired (s : State) (n k : Nat) : Prop :=
  (∃ x, s.bond? n = some (x, k) ∧ s.tie? k = some (x, some n)) ∨ (s.bond? n = none ∧ Loose s k)

section Bonds

variable {s t u : State} {n k : Nat} {p : Plan} {r : Slab}

theorem bond?_of_plan (h : s.plan? n = some p) : s.bond? n = p.bond := by rw [State.bond?, h]; rfl

theorem tie?_of_slab (h : s.slab? k = some r) : s.tie? k = some (r.state, r.plan) := by rw [State.tie?, h]; rfl

theorem WorkLaw.bound (h : WorkLaw s) : Bound s := by
  refine ⟨fun n x k hb => ?_, fun k x m hk hx => ?_, fun k x m hk hr ho => ?_⟩
  · obtain ⟨p, hp, hbond⟩ := Option.bind_eq_some_iff.1 hb
    unfold Plan.bond at hbond
    split at hbond
    case h_4 => cases hbond
    all_goals cases hbond
    case h_1 hx | h_2 hx =>
      obtain ⟨r, hr, hstate, hplan⟩ := h.reserved n p hp (by simp [hx])
      rw [tie?_of_slab hr, hstate, hplan]
    case h_3 hx =>
      obtain ⟨r, hr, hstate, hplan⟩ := h.onSaw n p hp hx
      rw [tie?_of_slab hr, hstate, hplan]
  · obtain ⟨r, hr, hrx⟩ := Option.map_eq_some_iff.1 hk
    cases hrx
    obtain ⟨n, p, hplan, hp, hslab, hreserved, honSaw⟩ := h.holder k r hr hx
    refine ⟨n, hplan, ?_⟩
    rw [bond?_of_plan hp, ← hslab]
    rcases hx with hx | hx
    · rcases hreserved hx with hpx | hpx <;> simp [Plan.bond, hpx, hx]
    · simp [Plan.bond, honSaw hx, hx]
  · obtain ⟨r, hr', hrx⟩ := Option.map_eq_some_iff.1 hk
    cases hrx
    exact h.free k r hr' hr ho

/-- The law of the work is the law of the saws with the law of the slabs. -/
theorem WorkLaw.of_parts (h : SawsStand s) (b : Bound s) : WorkLaw s := by
  have held {n : Nat} {p : Plan} {x : SlabState} (hp : s.plan? n = some p) (hb : p.bond = some (x, p.slab)) :
      ∃ r, s.slab? p.slab = some r ∧ r.state = x ∧ r.plan = some n := by
    obtain ⟨r, hr, hrx⟩ := Option.map_eq_some_iff.1 (b.bond n x p.slab ((bond?_of_plan hp).trans hb))
    obtain ⟨hstate, hplan⟩ := Prod.mk.inj hrx
    exact ⟨r, hr, hstate, hplan⟩
  refine ⟨fun w hw => headFace?_cutting.1 ((h.fit w).working hw), fun w => (h.fit w).context, fun w hx =>
    headFace?_active.1 ((h.fit w).held hx), fun w => ⟨(h.link w id).offline, (h.link w id).down⟩, fun n p hp hx q hq ha => ?_,
    fun n p hp hx => held hp ?_, fun n p hp hx => held hp (by rw [Plan.bond, hx]), fun n r hr hx => ?_, fun n r hr hne ho =>
    b.loose n _ _ (tie?_of_slab hr) hne ho⟩
  · have hnone := h.fresh n p.state p.hasActive (planFace?_of_plan hp) (PlanState.early_iff.2 hx)
    exact Bool.eq_false_iff.1 hnone (List.find?_isSome.2 ⟨q, hq, by simpa using ha⟩)
  · rcases hx with hx | hx <;> rw [Plan.bond, hx]
  · obtain ⟨m, hm, hbond⟩ := b.tied n _ _ (tie?_of_slab hr) hx
    obtain ⟨p, hp, hpb⟩ := Option.bind_eq_some_iff.1 hbond
    refine ⟨m, p, hm, hp, ?_⟩
    unfold Plan.bond at hpb
    split at hpb
    case h_4 => cases hpb
    all_goals obtain ⟨hstate, hslab⟩ := Prod.mk.inj (Option.some.inj hpb)
    case h_1 hpx => exact ⟨hslab, fun _ => .inl hpx, fun ho => nomatch hstate.trans ho⟩
    case h_2 hpx => exact ⟨hslab, fun _ => .inr hpx, fun ho => nomatch hstate.trans ho⟩
    case h_3 hpx => exact ⟨hslab, fun hr => (nomatch hstate.trans hr), fun _ => hpx⟩

theorem Bound.paired (h : Bound s) (hp : s.plan? n = some p) (hk : p.slab = k) (hl : p.bond = none → Loose s k) :
    Paired s n k := by
  have hbond := bond?_of_plan hp
  cases hb : p.bond with
  | none => exact .inr ⟨hbond.trans hb, hl hb⟩
  | some b =>
    obtain ⟨x, j⟩ := b
    have hj : j = k := by
      rw [← hk]
      unfold Plan.bond at hb
      split at hb <;> cases hb <;> rfl
    subst hj
    exact .inl ⟨x, hbond.trans hb, h.bond n x j (hbond.trans hb)⟩

/-- One plan and one slab alone change, held or not, together. -/
theorem Bound.rebind (h : Bound s) (hs : Paired s n k) (ht : Paired t n k) (hb : ∀ m, m ≠ n → t.bond? m = s.bond? m)
    (hk : ∀ j, j ≠ k → t.tie? j = s.tie? j) : Bound t := by
  have hapart {m : Nat} (hm : m ≠ n) {x : SlabState} : s.bond? m ≠ some (x, k) := fun hmx => by
    have htie := h.bond m x k hmx
    rcases hs with ⟨y, -, hty⟩ | ⟨-, hloose⟩
    · cases hty.symm.trans htie
      exact hm rfl
    · exact nomatch (hloose x (some m) htie).2.2
  refine ⟨fun m x j hm => ?_, fun j x m hj hx => ?_, fun j x m hj hr ho => ?_⟩
  · by_cases hmn : m = n
    · subst hmn
      rcases ht with ⟨y, hby, hty⟩ | ⟨hnone, -⟩
      · cases hby.symm.trans hm
        exact hty
      · cases hnone.symm.trans hm
    · rw [hb m hmn] at hm
      have hjk : j ≠ k := fun e => hapart hmn (e ▸ hm)
      rw [hk j hjk]
      exact h.bond m x j hm
  · by_cases hjk : j = k
    · subst hjk
      rcases ht with ⟨y, hby, hty⟩ | ⟨-, hloose⟩
      · cases hty.symm.trans hj
        exact ⟨n, rfl, hby⟩
      · obtain ⟨hr, ho, -⟩ := hloose x m hj
        exact absurd hx (not_or.2 ⟨hr, ho⟩)
    · rw [hk j hjk] at hj
      obtain ⟨i, hi, hbi⟩ := h.tied j x m hj hx
      refine ⟨i, hi, (hb i fun e => ?_).trans hbi⟩
      subst e
      rcases hs with ⟨y, hby, -⟩ | ⟨hnone, -⟩
      · cases hby.symm.trans hbi
        exact hjk rfl
      · cases hnone.symm.trans hbi
  · by_cases hjk : j = k
    · subst hjk
      rcases ht with ⟨y, hby, hty⟩ | ⟨-, hloose⟩
      · cases hty.symm.trans hj
        obtain ⟨p, -, hp⟩ := Option.bind_eq_some_iff.1 hby
        unfold Plan.bond at hp
        split at hp
        case h_4 => cases hp
        all_goals cases hp
        · exact absurd rfl hr
        · exact absurd rfl hr
        · exact absurd rfl ho
      · exact (hloose x m hj).2.2
    · rw [hk j hjk] at hj
      exact h.loose j x m hj hr ho

/-- One slab alone changes, held by no plan before and after. -/
theorem Bound.reslab (h : Bound s) (hs : Loose s k) (ht : Loose t k) (hb : ∀ m, t.bond? m = s.bond? m)
    (hk : ∀ j, j ≠ k → t.tie? j = s.tie? j) : Bound t := by
  refine ⟨fun m x j hm => ?_, fun j x m hj hx => ?_, fun j x m hj hr ho => ?_⟩
  · rw [hb] at hm
    have htie := h.bond m x j hm
    rw [hk j fun e => ?_]
    · exact htie
    · subst e
      exact nomatch (hs x (some m) htie).2.2
  · by_cases hjk : j = k
    · subst hjk
      obtain ⟨hr, ho, -⟩ := ht x m hj
      exact absurd hx (not_or.2 ⟨hr, ho⟩)
    · rw [hk j hjk] at hj
      obtain ⟨i, hi, hbi⟩ := h.tied j x m hj hx
      exact ⟨i, hi, (hb i).trans hbi⟩
  · by_cases hjk : j = k
    · exact (ht x m (hjk ▸ hj)).2.2
    · rw [hk j hjk] at hj
      exact h.loose j x m hj hr ho

theorem Bound.same (h : Bound s) (hb : ∀ m, t.bond? m = s.bond? m) (hk : ∀ j, t.tie? j = s.tie? j) : Bound t := by
  refine ⟨fun n x k hn => ?_, fun k x m hm hx => ?_, fun k x m hm => h.loose k x m (hk k ▸ hm)⟩
  · rw [hk]
    exact h.bond n x k (hb n ▸ hn)
  · obtain ⟨n, hmn, hn⟩ := h.tied k x m (hk k ▸ hm) hx
    exact ⟨n, hmn, (hb n).trans hn⟩

theorem loose_of_absent (h : s.slab? k = none) : Loose s k := fun x m hx => by rw [State.tie?, h] at hx; cases hx

/-- A slab neither RESERVED nor ON_SAW is held by no plan. -/
theorem Bound.loose_of (h : Bound s) (hr : s.slab? k = some r) (hres : r.state ≠ .reserved) (ho : r.state ≠ .onSaw) : Loose s k :=
  fun x m hx => by
    cases (tie?_of_slab hr).symm.trans hx
    exact ⟨hres, ho, h.loose k _ _ (tie?_of_slab hr) hres ho⟩

theorem loose_of_record (hr : s.slab? k = some r) (hres : r.state ≠ .reserved) (ho : r.state ≠ .onSaw) (hp : r.plan = none) :
    Loose s k := fun x m hx => by
  cases (tie?_of_slab hr).symm.trans hx
  exact ⟨hres, ho, hp⟩

end Bonds

/-! ## What leaves the stock and the plans' holds -/

/-- The stock stays, and what every plan holds. -/
structure Firm (s t : State) : Prop where
  bond : ∀ n, t.bond? n = s.bond? n
  stk : t.stk = s.stk

/-- The slabs are held by the plans they name, and the racks agree with their places. -/
structure Stocked (s : State) : Prop where
  bound : Bound s
  racks : RackLaw s

section Firm

variable {s t u : State} {n : Nat}

theorem tie?_congr (h : t.stk = s.stk) (k : Nat) : t.tie? k = s.tie? k := by rw [State.tie?, slab?_congr h, State.tie?]

theorem Firm.refl (s : State) : Firm s s := ⟨fun _ => rfl, rfl⟩

theorem Firm.after (k : Firm t u) (h : Firm s t) : Firm s u := ⟨fun n => (k.bond n).trans (h.bond n), k.stk.trans h.stk⟩

theorem Firm.of_bare (hp : t.pln.plans.map Plan.bare = s.pln.plans.map Plan.bare) (hk : t.stk = s.stk) : Firm s t := by
  refine ⟨fun n => ?_, hk⟩
  have hbare := plan?_bare hp n
  have hkey (u : State) : u.bond? n = ((u.plan? n).map Plan.bare).bind Plan.bond := by
    rw [Option.bind_map]
    rfl
  rw [hkey, hkey, hbare]

theorem Firm.of_steady (h : Steady s t) (hk : t.stk = s.stk) : Firm s t := .of_bare h.plans hk

theorem Firm.of_kept (h : Kept s t) (hk : t.stk = s.stk) : Firm s t := by
  refine ⟨fun n => ?_, hk⟩
  have hkey (u : State) : u.bond? n = (u.keptPlan? n).bind Plan.bond := by
    rw [State.keptPlan?, Option.bind_map]
    rfl
  rw [hkey, hkey, h.2]

theorem Firm.of_blocks (hp : t.pln = s.pln) (hk : t.stk = s.stk) : Firm s t := .of_bare (by rw [hp]) hk

theorem Outside.firm (h : Outside s t) : Firm s t := .of_blocks h.pln h.stk

theorem Firm.stocked (k : Firm s t) (h : Stocked s) : Stocked t :=
  ⟨h.bound.same k.bond (tie?_congr k.stk), h.racks.of_stk k.stk⟩

theorem bond?_updatePlan (s : State) (m : Nat) {f : Plan → Plan} (hk : ∀ p, (f p).number = p.number) (n : Nat) :
    (s.updatePlan m f).bond? n = if n = m then (s.plan? n).bind fun p => (f p).bond else s.bond? n := by
  rw [State.bond?, updatePlan_plan? s m f n hk]
  split
  · rw [Option.bind_map]; rfl
  · rfl

/-- A plan rewritten that holds what it held. -/
theorem Firm.updatePlan (s : State) (m : Nat) {f : Plan → Plan} (hk : ∀ p, (f p).number = p.number)
    (hf : ∀ p, s.plan? m = some p → (f p).bond = p.bond) : Firm s (s.updatePlan m f) := by
  refine ⟨fun n => ?_, rfl⟩
  rw [bond?_updatePlan s m hk]
  split
  · next hn =>
    subst hn
    rw [State.bond?]
    cases hp : s.plan? n with
    | none => rfl
    | some p => exact hf p hp
  · rfl

end Firm

end Sys2Proof.Machine
end

section
/-! PROOFS. The slabs with the plans that hold them, and the racks, under the requests about plans (R50 to R61). -/

namespace Sys2Proof.Machine

section Holding

variable {s t : State} {n k : Nat} {p : Plan} {r : Slab} {x : SlabState}

/-- The slab of a plan that holds it. -/
theorem Stocked.holds (h : Stocked s) (hp : s.plan? n = some p) (hb : p.bond = some (x, p.slab)) :
    ∃ r, s.slab? p.slab = some r ∧ r.state = x ∧ r.plan = some n := by
  obtain ⟨r, hr, hrx⟩ := Option.map_eq_some_iff.1 (h.bound.bond n x p.slab ((bond?_of_plan hp).trans hb))
  obtain ⟨hstate, hplan⟩ := Prod.mk.inj hrx
  exact ⟨r, hr, hstate, hplan⟩

theorem Stocked.paired (h : Stocked s) (hp : s.plan? n = some p) (hb : p.bond = some (x, p.slab)) : Paired s n p.slab :=
  h.bound.paired hp rfl fun hnone => nomatch hnone.symm.trans hb

/-- One plan and its slab change together: the plan holds the slab in its new state, or neither is held. -/
structure Rebound (s t : State) (n k : Nat) (f : Slab → Slab) (r : Slab) : Prop where
  stk : t.stk = (s.updateSlab k f).stk
  other : ∀ m, m ≠ n → t.bond? m = s.bond? m
  own : (t.bond? n = none ∧ (f r).state ≠ .reserved ∧ (f r).state ≠ .onSaw ∧ (f r).plan = none) ∨
    (t.bond? n = some ((f r).state, k) ∧ (f r).plan = some n)

theorem Stocked.rebind (h : Stocked s) (hs : TableLaw s) (hpair : Paired s n k) (hr : s.slab? k = some r) {f : Slab → Slab}
    (hk : ∀ x, (f x).number = x.number) (hplace : ∀ x, (f x).place = x.place) (hmark : ∀ x, (f x).mark = x.mark)
    (hgone : (f r).gone → (f r).clear) (e : Rebound s t n k f r) : Stocked t := by
  have hslab (m : Nat) : t.slab? m = if m = k then some (f r) else s.slab? m :=
    (slab?_congr e.stk m).trans (updateSlab_slab?_of_some hr f hk m)
  have hself : t.slab? k = some (f r) := (hslab k).trans (if_pos rfl)
  refine ⟨h.bound.rebind hpair ?_ e.other fun j hj => by rw [State.tie?, hslab, if_neg hj, State.tie?],
    (updateSlab_racks hs h.racks hk hplace hmark fun y hy hg => ?_).of_stk e.stk⟩
  · rcases e.own with ⟨hnone, hres, hon, hplan⟩ | ⟨hbond, hplan⟩
    · exact .inr ⟨hnone, loose_of_record hself hres hon hplan⟩
    · exact .inl ⟨_, hbond, by rw [tie?_of_slab hself, hplan]⟩
  · cases hr.symm.trans hy
    exact hgone hg

theorem Steady.bond (h : Steady s t) (n : Nat) : t.bond? n = s.bond? n := by
  have hkey (u : State) : u.bond? n = ((u.plan? n).map Plan.bare).bind Plan.bond := by
    rw [Option.bind_map]
    rfl
  rw [hkey, hkey, plan?_bare h.plans]

/-- A plan that holds its slab RESERVED lets it go. -/
theorem Stocked.unreserves (h : Stocked s) (hs : TableLaw s) (hp : s.plan? n = some p) (hb : p.bond = some (.reserved, p.slab))
    (hstk : t.stk = (s.unreserve p.slab).stk) (hother : ∀ m, m ≠ n → t.bond? m = s.bond? m) (hown : t.bond? n = none) :
    Stocked t := by
  obtain ⟨r, hr, -, -⟩ := h.holds hp hb
  exact h.rebind hs (h.paired hp hb) hr (f := fun r => { r with state := .available, plan := none }) (fun _ => rfl) (fun _ => rfl)
    (fun _ => rfl) (by simp [Slab.gone]) ⟨hstk, hother, .inl ⟨hown, nofun, nofun, rfl⟩⟩

end Holding

section Requests

variable {s : State}

theorem createPlan_firm (number job slab kerf : Nat) (strips : List Strip) (s : State) :
    Firm s (createPlan number job slab kerf strips s).2 := by
  unfold createPlan
  split
  · exact .refl s
  split
  case h_2 => exact .refl s
  iterate 3 (split; exact .refl s)
  split
  · exact .refl s
  next hfree =>
  have hfree : s.plan? number = none := by simpa using hfree
  refine ⟨fun n => ?_, rfl⟩
  show (findBy Plan.number n (insertBy Plan.number (newPlan number job slab kerf strips) s.pln.plans)).bind Plan.bond = _
  rw [findBy_insertBy (r := newPlan number job slab kerf strips) hfree]
  split
  · next hn =>
    rw [hn, State.bond?, show s.plan? (newPlan number job slab kerf strips).number = none from hfree]
    rfl
  · rfl

/-- A plan rewritten that holds nothing after, with every other plan as it was. -/
theorem bond?_let_go {s t : State} {number : Nat} {f : Plan → Plan} (hk : ∀ x, (f x).number = x.number)
    (hf : ∀ x, (f x).bond = none) (ht : t.pln = (s.updatePlan number f).pln) :
    (∀ m, m ≠ number → t.bond? m = s.bond? m) ∧ t.bond? number = none := by
  have hbond (m : Nat) : t.bond? m = if m = number then none else s.bond? m := by
    rw [State.bond?, plan?_congr ht]
    refine (bond?_updatePlan s number hk m).trans ?_
    split
    · simp [hf]
    · rfl
  exact ⟨fun m hm => (hbond m).trans (if_neg hm), (hbond number).trans (if_pos rfl)⟩

theorem revisePlan_stocked (hs : TableLaw s) (h : Stocked s) (number kerf : Nat) (strips : List Strip) :
    Stocked (revisePlan number kerf strips s).2 := by
  unfold revisePlan
  iterate 2 (split; exact h)
  next p hp =>
  split
  · next hx =>
    split
    · exact h
    · refine Firm.stocked (.updatePlan s number (f := Plan.revise kerf strips) (fun _ => rfl) fun q hq => ?_) h
      cases hp.symm.trans hq
      simp [Plan.bond, Plan.revise, hx]
  · next hx =>
    split
    · exact h
    · obtain ⟨hother, hown⟩ := bond?_let_go (s := s) (t := (s.undoCheck p).updatePlan number (Plan.revise kerf strips))
        (f := Plan.revise kerf strips) (fun _ => rfl) (fun _ => rfl) rfl
      exact h.unreserves hs hp (by rw [Plan.bond, hx]) rfl hother hown
  · exact h

theorem checkPlan_stocked (hs : TableLaw s) (h : Stocked s) (number : Nat) : Stocked (checkPlan number s).2 := by
  unfold checkPlan
  split
  · exact h
  next p hp =>
  split
  · exact h
  next hx =>
  have hdraft : p.state = .draft := not_not.1 hx
  split
  · exact h
  next r hr =>
  split
  · exact h
  next ha =>
  have havail : r.state = .available := not_not.1 ha
  iterate 3 (split; exact h)
  next d _ =>
  obtain rfl : p.number = number := (findBy_some hp).2
  have hbond (m : Nat) : (s.performCheck p d).bond? m = if m = p.number then some (.reserved, p.slab) else s.bond? m := by
    refine (bond?_updatePlan s p.number (f := fun p => { p with derived := some d, state := .checked }) (fun _ => rfl) m).trans ?_
    split
    · next hm => rw [hm, hp]; rfl
    · rfl
  have hpair : Paired s p.number p.slab :=
    .inr ⟨by rw [bond?_of_plan hp, Plan.bond, hdraft], h.bound.loose_of hr (by rw [havail]; exact nofun) (by rw [havail]; exact nofun)⟩
  exact h.rebind hs hpair hr (f := fun r => { r with state := .reserved, plan := some p.number }) (fun _ => rfl) (fun _ => rfl)
    (fun _ => rfl) (by simp [Slab.gone])
    ⟨rfl, fun m hm => (hbond m).trans (if_neg hm), .inr ⟨(hbond p.number).trans (if_pos rfl), rfl⟩⟩

theorem releasePlan_firm (number saw : Nat) (s : State) : Firm s (releasePlan number saw s).2 := by
  unfold releasePlan
  split
  · exact .refl s
  next w _ =>
  split
  · exact .refl s
  next p hp =>
  split
  · exact .refl s
  next hx =>
  have hchecked : p.state = .checked := not_not.1 hx
  split
  · exact .refl s
  split
  · exact .refl s
  iterate 3 (split; exact .refl s)
  have hreleased := Firm.updatePlan s number (f := fun p => { p with state := .released, saw := some w }) (fun _ => rfl) fun q hq => by
    cases hp.symm.trans hq
    simp [Plan.bond, hchecked]
  have hjoined : Firm s (s.planReleased number w) := ⟨hreleased.bond, rfl⟩
  exact .after (.of_steady (.loadHead (s.planReleased number w) w) (State.loadHead_stk ..)) hjoined

theorem Firm.leaveQueue (s : State) (w : Saw) (n : Nat) : Firm s (s.leaveQueue w n) := by
  unfold State.leaveQueue
  exact .after (.updatePlan _ n (f := fun p => { p with saw := none }) (fun _ => rfl) fun _ _ => rfl) (.of_blocks rfl rfl)

theorem cancelPlan_stocked (hs : TableLaw s) (h : Stocked s) (number : Nat) : Stocked (cancelPlan number s).2 := by
  unfold cancelPlan
  split
  · exact h
  next p hp =>
  dsimp only
  obtain ⟨hother, hown⟩ := bond?_let_go (s := s) (t := s.cancelled p number) (f := fun p => { p with state := .cancelled })
    (fun _ => rfl) (fun _ => rfl) rfl
  split
  case h_1 hx =>
    refine Firm.stocked (.updatePlan s number (f := fun p => { p with state := .cancelled }) (fun _ => rfl) fun q hq => ?_) h
    cases hp.symm.trans hq
    simp [Plan.bond, hx]
  case h_2 hx => exact h.unreserves hs hp (by rw [Plan.bond, hx]) rfl hother hown
  case h_4 => exact h
  next hx =>
  have hcancelled : Stocked (s.cancelled p number) := h.unreserves hs hp (by rw [Plan.bond, hx]) rfl hother hown
  show Stocked (p.saw.elim (s.cancelled p number) fun w => ((s.cancelled p number).leaveQueue w number).cancelLoad w number)
  cases p.saw with
  | none => exact hcancelled
  | some w => exact Firm.stocked (.after (.of_steady (.cancelLoad ..) (by simp)) (.leaveQueue ..)) hcancelled

theorem abandonPlan_stocked (hs : TableLaw s) (h : Stocked s) (number : Nat) : Stocked (abandonPlan number s).2 := by
  unfold abandonPlan
  split
  · exact h
  next p hp =>
  split
  · exact h
  next hx =>
  have hcutting : p.state = .cutting := not_not.1 (not_or.1 hx).1
  have hb : p.bond = some (.onSaw, p.slab) := by rw [Plan.bond, hcutting]
  obtain ⟨r, hr, hon, -⟩ := h.holds hp hb
  have hcleared : Steady s (p.saw.elim (s.writeOff p) fun w => (s.writeOff p).clearSaw w number) := by
    cases p.saw with
    | none => exact .writeOff s p
    | some w => exact .after (.clearSaw ..) (.writeOff s p)
  have hstk : (p.saw.elim (s.writeOff p) fun w => (s.writeOff p).clearSaw w number).stk = (s.scrapOnAbandon p.slab).stk := by
    have hwritten : (s.writeOff p).stk = (s.scrapOnAbandon p.slab).stk := by
      simp only [State.writeOff, State.updateJob_stk, State.charge_stk]
      rfl
    cases p.saw with
    | none => exact hwritten
    | some w => exact (State.clearSaw_stk ..).trans hwritten
  dsimp only [performed]
  generalize (p.saw.elim (s.writeOff p) fun w => (s.writeOff p).clearSaw w number) = cleared at *
  have habandoned : Stocked (cleared.updatePlan number fun p => { p with state := .abandoned }) := by
    obtain ⟨hother, hown⟩ := bond?_let_go (s := cleared) (f := fun p => { p with state := .abandoned })
      (t := cleared.updatePlan number fun p => { p with state := .abandoned }) (fun _ => rfl) (fun _ => rfl) rfl
    refine h.rebind hs (h.paired hp hb) hr (f := fun r => { r with state := .scrapped, plan := none }) (fun _ => rfl) (fun _ => rfl)
      (fun _ => rfl) (fun _ => ?_) ⟨hstk, fun m hm => (hother m hm).trans (hcleared.bond m), .inl ⟨hown, nofun, nofun, rfl⟩⟩
    exact h.racks.gone p.slab r hr (.inl hon)
  cases p.saw with
  | none => exact habandoned
  | some w => exact Firm.stocked (.after (.of_steady (.goOnByLink ..) (by simp)) (.leaveQueue ..)) habandoned

theorem retirePlan_firm (number : Nat) (s : State) : Firm s (retirePlan number s).2 := by
  unfold retirePlan
  split
  · exact .refl s
  next p hp =>
  split
  case isFalse => exact .refl s
  next he =>
  refine ⟨fun n => ?_, rfl⟩
  show (findBy Plan.number n (removeBy Plan.number number s.pln.plans)).bind Plan.bond = _
  rw [findBy_removeBy]
  split
  · next hn =>
    rw [hn, bond?_of_plan hp]
    unfold Plan.bond
    cases hx : p.state <;> simp [hx, PlanState.ended] at he ⊢
  · rfl

theorem closeJob_firm (number : Nat) (s : State) : Firm s (closeJob number s).2 := by
  unfold closeJob
  iterate 3 (split; exact .refl s)
  next j _ _ _ =>
  refine ⟨fun n => ?_, rfl⟩
  have hbond (p : Plan) : (p.cancelDraft j.plans).bond = p.bond := by
    unfold Plan.cancelDraft
    split
    · next hd =>
      have hdraft : p.state = .draft := by simpa using (Bool.and_eq_true_iff.1 hd).2
      simp [Plan.bond, hdraft]
    · rfl
  show (findBy Plan.number n (s.pln.plans.map (Plan.cancelDraft j.plans))).bind Plan.bond = _
  rw [findBy_map (cancelDraft_number _), Option.bind_map]
  exact congrArg (Option.bind _) (funext hbond)

end Requests

end Sys2Proof.Machine
end

section
/-! PROOFS. The slabs with the plans that hold them, and the racks, under LOADED, DONE, the requests about the stock and the starts;
and so what every step keeps of the work in hand and of the racks. -/

namespace Sys2Proof.Machine

/-! ## LOADED and DONE -/

section Messages

variable {s : State} {w : Saw}

/-- A plan loaded holds its slab ON_SAW, off the racks (R20, R62). -/
theorem reportLoad_stocked (hs : TableLaw s) (h : Stocked s) (plan : Nat) : Stocked (s.reportLoad plan) := by
  unfold State.reportLoad
  split
  case h_2 => exact h
  next p hp =>
  split
  case h_2 => exact h
  next hx =>
  have hb : p.bond = some (.reserved, p.slab) := by rw [Plan.bond, hx]
  obtain ⟨r, hr, hres, hplan⟩ := h.holds hp hb
  have hcut : TableLaw (s.updatePlan plan fun p => { p with state := .cutting }) :=
    (Sound.updatePlan s plan (f := fun p => { p with state := .cutting }) fun _ => rfl).tables hs
  have hracks : RackLaw (s.updatePlan plan fun p => { p with state := .cutting }) := h.racks.of_stk rfl
  rw [putOnSaw_reserved (s := s.updatePlan plan fun p => { p with state := .cutting }) hr hres]
  obtain ⟨hslab, -, hframe⟩ := offRack_spec (s := s.updatePlan plan fun p => { p with state := .cutting }) hr
    fun r => { r with state := .onSaw, missing := false }
  have hput := offRack_racks (n := p.slab) hcut hracks .onSaw
  generalize ((State.setPlace _ p.slab none).leaveAudit p.slab).updateSlab p.slab _ = put at *
  have hbond (m : Nat) : put.bond? m = if m = plan then some (.onSaw, p.slab) else s.bond? m := by
    rw [State.bond?, plan?_congr (s := s.updatePlan plan fun p => { p with state := .cutting }) (by rw [hframe])]
    refine (bond?_updatePlan s plan (f := fun p => { p with state := .cutting }) (fun _ => rfl) m).trans ?_
    split
    · next hm => rw [hm, hp]; rfl
    · rfl
  refine ⟨h.bound.rebind (h.paired hp hb) (.inl ⟨.onSaw, (hbond plan).trans (if_pos rfl), ?_⟩)
    (fun m hm => (hbond m).trans (if_neg hm)) fun j hj => ?_, hput⟩
  · rw [tie?_of_slab ((hslab p.slab).trans (if_pos rfl)), hplan]
  · rw [State.tie?, hslab, if_neg hj]
    rfl

theorem loaded_stocked (hs : TableLaw s) (h : Stocked s) (w : Saw) (plan : Nat) : Stocked (loaded w plan s) := by
  unfold loaded
  have hcleared : Firm s (s.updateSaw w fun r => { r with pendingLoad := none }) := .of_blocks rfl rfl
  have hreported := reportLoad_stocked ((Steady.clearLoad s w).tables hs) (hcleared.stocked h) plan
  refine Firm.stocked (.of_kept (((Kept.refill ..).trans (.refill ..)).trans (.setSawState ..)) (by simp)) hreported

/-- A slab AVAILABLE joins the stock, held by no plan. -/
theorem insertSlab_stocked (hs : TableLaw s) (h : Stocked s) {r : Slab} (hfree : s.slab? r.number = none)
    (hroom : s.stk.slabs.length < Config.maxSlabs) (hclear : r.clear) (havail : r.state = .available) (hplan : r.plan = none) :
    Stocked (s.withSlabs (insertBy Slab.number r)) := by
  have hslab := insert_slab? hfree
  refine ⟨h.bound.reslab (loose_of_absent hfree) ?_ (fun _ => rfl) fun j hj => ?_, insertSlab_racks hs h.racks hfree hroom hclear⟩
  · exact loose_of_record ((hslab r.number).trans (if_pos rfl)) (by rw [havail]; exact nofun) (by rw [havail]; exact nofun) hplan
  · exact congrArg (Option.map Slab.tie) ((hslab j).trans (if_neg hj))

/-- A remnant joins the stock (R23). -/
theorem createRemnant_stocked (hs : TableLaw s) (h : Stocked s) (n : Nat) (part : RemnantPart) :
    Stocked (s.createRemnant n part).2 := by
  unfold State.createRemnant
  split
  · exact h
  next r _ =>
  split
  · exact h
  next hroom =>
  have hfewer : s.stk.slabs.length < 15536 := by simp only [Config.maxSlabs] at hroom; omega
  obtain ⟨k, -, hk, hfree, -⟩ := freeRemnant_spec s.stk.slabs hs.counter hfewer
  rw [← hk] at hfree
  generalize freeRemnant s.stk.slabs (s.stk.slabs.length + 1) s.stk.counter = m at *
  obtain ⟨hbound, hracks⟩ := insertSlab_stocked (r := remnantRecord m r part) hs h hfree (not_le.1 hroom) ⟨rfl, rfl, rfl⟩ rfl rfl
  exact ⟨hbound.same (fun _ => rfl) fun _ => rfl,
    hracks.positions, hracks.inRacks, hracks.agree, hracks.gone, hracks.marked, hracks.idle⟩

theorem settleRemnant_stocked (hs : TableLaw s) (h : Stocked s) (p : Plan) (d : Derived) : Stocked (s.settleRemnant p d) := by
  unfold State.settleRemnant
  split
  · exact Firm.stocked (.of_blocks (by simp) (by simp)) h
  · next part _ =>
    have hcreated := createRemnant_stocked hs h p.slab part
    dsimp only
    split
    · next n _ =>
      have hgiven := Firm.updatePlan (s.createRemnant p.slab part).2 p.number (f := fun p => { p with remnantGiven := some n })
        (fun _ => rfl) fun _ _ => rfl
      exact Firm.stocked (.after (.of_blocks (by simp) (by simp)) hgiven) hcreated
    · exact Firm.stocked (.of_blocks (by simp) (by simp)) hcreated

theorem complete_stocked {p : Plan} (hs : TableLaw s) (h : Stocked s) (hp : s.plan? p.number = some p) (hx : p.state = .cutting) :
    Stocked (s.complete w p) := by
  have hb : p.bond = some (.onSaw, p.slab) := by rw [Plan.bond, hx]
  obtain ⟨r, hr, hon, -⟩ := h.holds hp hb
  have hdone : TableLaw ((s.updatePlan p.number fun p => { p with state := .done }).consume p.slab) :=
    (Steady.consume ..).tables ((Sound.updatePlan s p.number (f := fun p => { p with state := .done }) fun _ => rfl).tables hs)
  have hconsumed : Stocked ((s.updatePlan p.number fun p => { p with state := .done }).consume p.slab) := by
    obtain ⟨hother, hown⟩ := bond?_let_go (s := s) (f := fun p => { p with state := .done })
      (t := (s.updatePlan p.number fun p => { p with state := .done }).consume p.slab) (fun _ => rfl) (fun _ => rfl) rfl
    refine h.rebind hs (h.paired hp hb) hr (f := fun r => { r with state := .consumed, plan := none }) (fun _ => rfl) (fun _ => rfl)
      (fun _ => rfl) (fun _ => ?_) ⟨rfl, hother, .inl ⟨hown, nofun, nofun, rfl⟩⟩
    exact h.racks.gone p.slab r hr (.inl hon)
  unfold State.complete
  dsimp only
  generalize (s.updatePlan p.number fun p => { p with state := .done }).consume p.slab = consumed at *
  have hsettled : Stocked (p.derived.elim (consumed.raise .planDone) fun d => consumed.settleRemnant p d) := by
    cases p.derived with
    | none => exact Firm.stocked (s := consumed) (.of_blocks rfl rfl) hconsumed
    | some d => exact settleRemnant_stocked hdone hconsumed p d
  exact Firm.stocked (.after (.of_steady (.goOn ..) (by simp)) (.after (.of_steady (.unload ..) (by simp)) (.leaveQueue ..))) hsettled

theorem done_stocked (hs : TableLaw s) (h : Stocked s) (hl : SawsStand s) {tag : Nat}
    (hc : checkDone w tag s = none) : Stocked (done w s) := by
  have hcut := checkDone_inCut hc
  unfold done
  split
  · exact h
  next p q ha =>
  obtain ⟨hp, -⟩ := activePass?_some ha
  have hkept : Kept s (s.finishPass w p q) := .finishPass s w p q
  have hfinished : Stocked (s.finishPass w p q) := Firm.stocked (.of_kept hkept (by simp)) h
  have hhead : HeadCutting s w :=
    hl.headCutting (hcut.elim (fun hx => .inr (.inr (.inl hx))) fun hx => .inr (.inr (.inr (.inl hx))))
  have htables := (Sound.finishPass s w p q).tables hs
  obtain ⟨p', hp', hkeeps⟩ := hkept.plan' (headPlan?_some hp).2
  have hnumber : p'.number = p.number := (findBy_some hp').2
  dsimp only
  rw [hp']
  dsimp only
  split
  · exact complete_stocked htables hfinished (by rw [hnumber]; exact hp') ((Plan.kept_state hkeeps).trans (hhead.state hp))
  · exact Firm.stocked (.of_kept ((Kept.stagePass ..).trans (.setSawState ..)) (by simp)) hfinished

end Messages

/-! ## Requests about the stock -/

section Stock

variable {s t : State} {n k : Nat} {r : Slab}

/-- The plans stay, and every slab keeps its state and the plan it names. -/
theorem Stocked.of_ties (h : Stocked s) (hp : t.pln = s.pln) (hk : ∀ j, t.tie? j = s.tie? j) (hr : RackLaw t) : Stocked t :=
  ⟨h.bound.same (Firm.of_blocks (t := { t with stk := s.stk }) hp rfl).bond hk, hr⟩

/-- The plans stay, and one slab changes that no plan holds. -/
theorem Stocked.of_loose (h : Stocked s) (hp : t.pln = s.pln) (hs : Loose s k) (ht : Loose t k)
    (hk : ∀ j, j ≠ k → t.tie? j = s.tie? j) (hr : RackLaw t) : Stocked t :=
  ⟨h.bound.reslab hs ht (Firm.of_blocks (t := { t with stk := s.stk }) hp rfl).bond hk, hr⟩

theorem tie?_updateSlab (s : State) (n : Nat) {f : Slab → Slab} (hk : ∀ x, (f x).number = x.number)
    (hf : ∀ x, (f x).tie = x.tie) (k : Nat) : (s.updateSlab n f).tie? k = s.tie? k := by
  rw [State.tie?, updateSlab_slab? s n f k hk]
  split
  · rw [Option.map_map, State.tie?]
    exact congrArg (fun g => Option.map g _) (funext hf)
  · rfl

theorem tie?_setPlace (s : State) (n : Nat) (target : Option Place) (k : Nat) : (s.setPlace n target).tie? k = s.tie? k := by
  cases hr : s.slab? n with
  | none => rw [setPlace_of_none hr]
  | some r =>
    rw [State.tie?, (setPlace_spec hr target).1]
    split
    · next hk => rw [hk, tie?_of_slab hr]; rfl
    · rfl

theorem tie?_unmark (s : State) (n v k : Nat) : (s.unmark n v).tie? k = s.tie? k := by
  cases hr : s.slab? n with
  | none => rw [State.unmark, hr]
  | some r =>
    rw [State.tie?, (unmark_spec hr v).1]
    split
    · next hk => rw [hk, tie?_of_slab hr]; rfl
    · rfl

theorem tie?_place (s : State) (n : Nat) (target : Option Place) (k : Nat) : (s.place n target).tie? k = s.tie? k := by
  unfold State.place State.sighted
  rw [tie?_unmark, tie?_updateSlab _ n (f := fun r => { r with missing := false }) (fun _ => rfl) fun _ => rfl, tie?_setPlace]

theorem tie?_map {f : Slab → Slab} (hk : ∀ x, (f x).number = x.number) (hf : ∀ x, (f x).tie = x.tie)
    (ht : t.stk.slabs = s.stk.slabs.map f) (k : Nat) : t.tie? k = s.tie? k := by
  rw [State.tie?, State.slab?, ht, findBy_map hk, Option.map_map]
  exact congrArg (fun g => Option.map g _) (funext hf)

theorem Stocked.of_blocks (h : Stocked s) (hp : t.pln = s.pln) (hk : t.stk = s.stk) : Stocked t := (Firm.of_blocks hp hk).stocked h

theorem material_stocked (h : Stocked s) (f : List Material → List Material) : Stocked (s.withMaterials f) :=
  h.of_ties rfl (fun _ => rfl) ⟨h.racks.positions, h.racks.inRacks, h.racks.agree, h.racks.gone, h.racks.marked, h.racks.idle⟩

theorem createSlab_stocked (hs : TableLaw s) (h : Stocked s) (number material thickness lotNumber lotSeq length width basis : Nat)
    (flaws : List Flaw) :
    Stocked (createSlab number material thickness lotNumber lotSeq length width basis flaws s).2 := by
  unfold createSlab
  iterate 2 (split; exact h)
  split
  · exact h
  next hfree =>
  split
  · exact h
  next hroom =>
  exact insertSlab_stocked hs h (by simpa using hfree) (not_le.1 hroom) ⟨rfl, rfl, rfl⟩ rfl rfl

theorem amendSlab_stocked (hs : TableLaw s) (h : Stocked s) (number material thickness lotNumber lotSeq basis : Nat)
    (flaws : List Flaw) : Stocked (amendSlab number material thickness lotNumber lotSeq basis flaws s).2 := by
  have hracks := amendSlab_racks hs h.racks number material thickness lotNumber lotSeq basis flaws
  have hstock := act_stock (.amendSlab number material thickness lotNumber lotSeq basis flaws) s rfl
  refine h.of_ties hstock.pln (fun j => ?_) hracks
  unfold amendSlab
  iterate 5 (split; rfl)
  exact tie?_updateSlab s number (f := fun r =>
    { r with material := material, thickness := thickness, lot := lotOf lotNumber lotSeq, flaws := flaws, basis := basis })
    (fun _ => rfl) (fun _ => rfl) j

theorem scrapSlab_stocked (hs : TableLaw s) (h : Stocked s) (number : Nat) : Stocked (scrapSlab number s).2 := by
  have hracks := scrapSlab_racks hs h.racks number
  have hpln := (act_stock (.scrapSlab number) s rfl).pln
  change (scrapSlab number s).2.pln = s.pln at hpln
  cases hr : s.slab? number with
  | none => rw [scrapSlab_none hr]; exact h
  | some r =>
    by_cases ha : r.state = .available
    · obtain ⟨hslab, -, -⟩ := scrapped_spec hr
      have hplan : r.plan = none :=
        h.bound.loose number r.state r.plan (tie?_of_slab hr) (by rw [ha]; exact nofun) (by rw [ha]; exact nofun)
      rw [scrapSlab_performed hr ha] at hpln hracks ⊢
      refine h.of_loose (k := number) hpln (h.bound.loose_of hr (by rw [ha]; exact nofun) (by rw [ha]; exact nofun)) ?_
        (fun j hj => ?_) hracks
      · exact loose_of_record ((hslab number).trans (if_pos rfl)) nofun nofun hplan
      · exact congrArg (Option.map Slab.tie) ((hslab j).trans (if_neg hj))
    · rw [scrapSlab_state hr ha]
      exact h

theorem retireSlab_stocked (hs : TableLaw s) (h : Stocked s) (number : Nat) : Stocked (retireSlab number s).2 := by
  have hracks := retireSlab_racks hs h.racks number
  cases hr : s.slab? number with
  | none => rw [retireSlab_none hr]; exact h
  | some r =>
    by_cases hx : r.state = .consumed ∨ r.state = .scrapped
    · have hslab := remove_slab? s number
      rw [retireSlab_performed hr hx] at hracks ⊢
      refine h.of_loose (k := number) rfl (h.bound.loose_of hr ?_ ?_) (loose_of_absent ((hslab number).trans (if_pos rfl)))
        (fun j hj => congrArg (Option.map Slab.tie) ((hslab j).trans (if_neg hj))) hracks
      all_goals rcases hx with hx | hx <;> rw [hx] <;> exact nofun
    · rw [retireSlab_state hr (not_or.1 hx).1 (not_or.1 hx).2]
      exact h

theorem moveSlab_stocked (hs : TableLaw s) (h : Stocked s) (number rack position : Nat) :
    Stocked (moveSlab number rack position s).2 := by
  refine h.of_ties (act_stock (.moveSlab number rack position) s rfl).pln (fun j => ?_) (moveSlab_racks hs h.racks ..)
  unfold moveSlab
  iterate 4 (split; rfl)
  exact tie?_place ..

theorem verifySlab_stocked (hs : TableLaw s) (h : Stocked s) (number rack position : Nat) :
    Stocked (verifySlab number rack position s).2 := by
  refine h.of_ties (act_stock (.verifySlab number rack position) s rfl).pln (fun j => ?_) (verifySlab_racks hs h.racks ..)
  unfold verifySlab
  iterate 3 (split; rfl)
  dsimp only [performed]
  rw [tie?_place]
  cases s.other? number (placeOf rack position) with
  | none => rfl
  | some m => exact tie?_setPlace ..

theorem tie?_closeAudit (s : State) (k : Nat) : s.closeAudit.tie? k = s.tie? k :=
  tie?_map (f := fun r => { r with mark := false }) (fun _ => rfl) (fun _ => rfl) rfl k

theorem tie?_openAudit (s : State) (spans : List Span) (k : Nat) : (s.openAudit spans).tie? k = s.tie? k :=
  tie?_map (f := fun r => { r with mark := r.walked spans }) (fun _ => rfl) (fun _ => rfl) rfl k

theorem startAudit_stocked (h : Stocked s) (spans : List Span) : Stocked (startAudit spans s).2 := by
  refine h.of_ties (act_stock (.startAudit spans) s rfl).pln (fun j => ?_) (startAudit_racks h.racks spans)
  unfold startAudit
  split
  · rfl
  · dsimp only [performed]
    rw [tie?_openAudit]
    split
    · exact tie?_closeAudit ..
    · rfl

theorem endAudit_stocked (h : Stocked s) : Stocked (endAudit s).2 := by
  refine h.of_ties (act_stock .endAudit s rfl).pln (fun j => ?_) (endAudit_racks h.racks)
  cases hrun : s.stk.audit.state with
  | idle => rw [endAudit_idle hrun]; rfl
  | running =>
    rw [endAudit_running hrun]
    refine (tie?_closeAudit s.declareMissing j).trans (tie?_map (f := Slab.declareMissing) (fun r => ?_) (fun r => ?_) rfl j)
    all_goals unfold Slab.declareMissing
    all_goals split <;> rfl

theorem abortAudit_stocked (h : Stocked s) : Stocked (abortAudit s).2 := by
  unfold abortAudit
  split
  · exact h
  · exact h.of_ties rfl (tie?_closeAudit s) (closeAudit_racks h.racks)

/-! ## The starts -/

theorem coldStart_stocked (s : State) (interlock : Four Bool) (supply : Bool) : Stocked (s.coldStart interlock supply) :=
  ⟨(coldStart_work s interlock supply).bound, coldStart_racks s interlock supply⟩

theorem warmStart_stocked (h : Stocked s) (inputs : Inputs) : Stocked (s.warmStart inputs) := by
  obtain ⟨hstk, -⟩ := warmStart_frame s inputs
  have hbond := (Steady.warmStart s inputs).bond
  cases hrun : s.stk.audit.state with
  | idle =>
    have hsame : (s.warmStart inputs).stk = s.stk := hstk.trans (by rw [State.warmStock, hrun])
    exact ⟨h.bound.same hbond (tie?_congr hsame), h.racks.of_stk hsame⟩
  | running =>
    have hsame : (s.warmStart inputs).stk = s.closeAudit.stk := hstk.trans (by rw [State.warmStock, hrun]; rfl)
    exact ⟨h.bound.same hbond fun k => (tie?_congr hsame k).trans (tie?_closeAudit s k), (closeAudit_racks h.racks).of_stk hsame⟩

theorem startOrCut_stocked (h : Stocked s) (inputs : Inputs) : Stocked (s.startOrCut inputs) := by
  have hbackup : Stocked ({ s with rsv := { s.rsv with backup := inputs.backup } } : State) := h.of_blocks rfl rfl
  have hstart : Stocked (s.start inputs) := by
    unfold State.start
    dsimp only
    split
    · exact coldStart_stocked ..
    · exact warmStart_stocked hbackup inputs
  rcases State.startOrCut_cases s inputs with e | e <;> rw [e]
  · exact hstart
  · exact (goSilent_outside ..).firm.stocked hstart

end Stock

/-! ## Every command, and every step -/

/-! ### The saws' messages and events leave the stock -/

section Messages

variable (s : State) (w : Saw)

theorem resumeSaw_stk (saw : Nat) : (resumeSaw saw s).2.stk = s.stk := by
  unfold resumeSaw
  split
  · rfl
  dsimp only
  split
  · rfl
  iterate 3 (split; rfl)
  exact State.resumeSaw_stk ..

theorem hello_stk (maxFeed : Nat) : (hello w maxFeed s).stk = s.stk := by
  cases hl : (s.saw w).link with
  | down => rw [hello_down hl, State.linkUp_stk]; rfl
  | up => rw [hello_up hl, State.linkUp_stk, State.loseLink_stk]; rfl

theorem start_stk (tag : Nat) : (start w tag s).stk = s.stk := by
  unfold start
  split <;> simp

theorem held_stk (position : Nat) : (held w position s).stk = s.stk := by simp [held]

theorem fault_stk (tag : Option Nat) (position : Nat) (cause : Cause) : (fault w tag position cause s).stk = s.stk := by
  unfold fault
  split
  all_goals simp

theorem status_stk (position : Nat) : (status w position s).stk = s.stk := by
  unfold status
  split <;> simp

theorem linkSilence_stk : (linkSilence w s).stk = s.stk := by
  unfold linkSilence
  split <;> simp

theorem holdTimerExpiry_stk : (holdTimerExpiry w s).stk = s.stk := by
  unfold holdTimerExpiry
  split
  · simp
  · rfl

theorem interlockDrop_stk : (interlockDrop w s).stk = s.stk := by
  unfold interlockDrop
  split
  · dsimp only
    split <;> simp
  · rfl

end Messages

theorem act_stocked (i : Instr) (s : State) (hs : TableLaw s) (hl : SawsStand s) (h : Stocked s) (ht : (Instr.meaning i).Taken s) :
    Stocked ((Instr.meaning i).act s) := by
  have firm {t : State} (k : Steady s t) (hk : t.stk = s.stk) : Stocked t := Firm.stocked (.of_steady k hk) h
  by_cases ho : Instr.outside i = true
  · exact (act_outside i s ho).firm.stocked h
  cases i
  case defineMaterial code hardness feed =>
    simp only [Instr.meaning, Meaning.act, defineMaterial]
    split
    · exact h
    · exact material_stocked h fun ms => insertBy Material.code ⟨code, hardness, feed⟩ (removeBy Material.code code ms)
  case dropMaterial =>
    simp only [Instr.meaning, Meaning.act, dropMaterial]
    iterate 3 (split; exact h)
    exact material_stocked h _
  case createSlab => exact createSlab_stocked hs h ..
  case amendSlab => exact amendSlab_stocked hs h ..
  case scrapSlab => exact scrapSlab_stocked hs h _
  case retireSlab => exact retireSlab_stocked hs h _
  case moveSlab => exact moveSlab_stocked hs h ..
  case verifySlab => exact verifySlab_stocked hs h ..
  case startAudit => exact startAudit_stocked h _
  case endAudit => exact endAudit_stocked h
  case abortAudit => exact abortAudit_stocked h
  case createPlan => exact (createPlan_firm ..).stocked h
  case revisePlan => exact revisePlan_stocked hs h ..
  case checkPlan => exact checkPlan_stocked hs h _
  case releasePlan => exact (releasePlan_firm ..).stocked h
  case cancelPlan => exact cancelPlan_stocked hs h _
  case abandonPlan => exact abandonPlan_stocked hs h _
  case retirePlan => exact (retirePlan_firm ..).stocked h
  case closeJob => exact (closeJob_firm ..).stocked h
  case resumeSaw => exact firm (resumeSaw_steady ..) (resumeSaw_stk ..)
  case setPlant => exact firm (setPlant_steady ..) (State.evaluate_stk _)
  case wipeStore =>
    simp only [Instr.meaning, Meaning.act, wipeStore]
    split
    · exact h
    · exact coldStart_stocked ..
  case hello => exact firm (hello_steady ..) (hello_stk ..)
  case loaded => exact loaded_stocked hs h ..
  case start => exact firm (start_steady ..) (start_stk ..)
  case done => exact done_stocked hs h hl ht.2
  case held => exact firm (held_steady ..) (held_stk ..)
  case fault => exact firm (fault_steady ..) (fault_stk ..)
  case status => exact firm (status_steady ..) (status_stk ..)
  case linkSilence => exact firm (linkSilence_steady ..) (linkSilence_stk ..)
  case holdTimerExpiry => exact firm (holdTimerExpiry_steady ..) (holdTimerExpiry_stk ..)
  case interlockDrop => exact firm (interlockDrop_steady ..) (interlockDrop_stk ..)
  case capacityEvaluation => exact firm (.evaluate s) (State.evaluate_stk s)
  case resetRelease =>
    have hreset : Stocked ({ s with rsv := { s.rsv with resetAsserted := false } } : State) := h.of_blocks rfl rfl
    simp only [Instr.meaning, Meaning.act, resetRelease]
    split
    · exact startOrCut_stocked hreset _
    · exact hreset
  case powerReturn =>
    exact startOrCut_stocked (s := { s with rsv := { s.rsv with mainPower := true } }) (h.of_blocks rfl rfl) _
  all_goals exact absurd rfl ho

/-! ### The work in hand and the racks together -/

/-- The laws that a step keeps together: those of the water, the queues and the tables, of the saws, and of the slabs and racks. -/
def Ordered (s : State) : Prop := WaterLaw s ∧ QueueLaw s ∧ TableLaw s ∧ SawsStand s ∧ Stocked s

theorem act_ordered (i : Instr) (s : State) (h : Ordered s) (ht : (Instr.meaning i).Taken s) :
    Ordered ((Instr.meaning i).act s) := by
  obtain ⟨hwater, hqueues, htables, hsaws, hstock⟩ := h
  exact ⟨act_water i s hwater ht, act_queues i s hqueues ht, (act_sound i s).tables htables,
    act_saws i s hwater hqueues hsaws ht, act_stocked i s htables hsaws hstock ht⟩

theorem age_outside (s : State) : Outside s s.age := ⟨rfl, rfl, fun w => by rw [age_saw]; rfl⟩

/-- A law that goes on wherever the stock, the plans and the saws' faces stay is ambient. -/
theorem Ambient.of_outside {P : State → Prop} (h : ∀ {s t}, Outside s t → P s → P t) : Ambient P where
  queue s _ := h (s := s) (.of_blocks rfl rfl rfl)
  slot s _ _ _ := h (s := s) (.of_blocks rfl rfl rfl)
  heard s w := h (sawFrame_outside s w)
  sent s _ _ := h (s := s) (.of_blocks rfl rfl rfl)
  aged s := h (age_outside s)

theorem ordered_ambient : Ambient Ordered :=
  water_ambient.and (queue_ambient.and (table_ambient.and
    ((Ambient.of_outside fun h (k : SawsStand _) => k.quiet h.quiet).and
      (.of_outside fun h (k : Stocked _) => h.firm.stocked k))))

/-- Settles O59: the tables by what every shared operation does to them (`Sound`); the law of the work as the law of the saws
(`SawsStand`) with the law of the slabs (`Bound`), which every command keeps with the laws of the water, the queues, the tables
and the racks. -/
theorem stepsKeepTheTables : Obligations.StepsKeepTheTables := by
  unfold Obligations.StepsKeepTheTables
  refine ⟨fun s t => step_keeps_tables, fun s t hw hq hs hl hr ht => ?_⟩
  obtain ⟨-, -, -, hsaws, hbound, hracks⟩ := ordered_ambient.step act_ordered ⟨hw, hq, hs, hl.saws, hl.bound, hr⟩ ht
  exact ⟨.of_parts hsaws hbound, hracks⟩

end Sys2Proof.Machine
end
